-- ==== Sys2Proof/Word.lean ====
section
/-! DEFINITION. The word types of the U9 (little-endian memory of bytes; numbers of 16, 32 and 64 bits). -/

namespace Sys2Proof

/-- One byte of memory. -/
abbrev Byte := BitVec 8
/-- A 32-bit pattern; FP32 values travel in this form. -/
abbrev W32 := BitVec 32
/-- A 64-bit pattern; generator words travel in this form. -/
abbrev W64 := BitVec 64

end Sys2Proof
end

