-- ==== Sys2Proof/Syntax.lean ====
section
/-! DEFINITION. The commands of the U9: one constructor of `Instr` per row of spec/opcode_table.json, with the operands
the row's rule gives it, and the data the operands carry. -/

namespace Sys2Proof

/-- Who reaches the dictionary, and on which path (R375, R379 to R382). `pf true` is direct access through PF BAR0,
`pf false` the PF's mailbox. -/
inductive Src where
  | ring
  | pf (direct : Bool)
  | vf (n : Nat)
  | peer (m : Nat)
  | ringmaster
  deriving DecidableEq, Repr

/-- A datagram (Table 12.7). -/
structure Datagram where
  cmd : Nat
  mode : Nat
  address : Nat
  index : Nat
  sub : Nat
  status : Nat
  offset : Nat
  ack : Nat
  data : List Byte
  deriving DecidableEq, Repr

/-- What the boot finds of the module itself (R79, R133, R204, R233, R267, R327, R430, R432): whether the two ROMs reach
the same verdict, the lanes that fail in the link to each stack, the stacks that fail training, the units that fail
their self-tests, and the time elapsed at the end of each step of Table 14.4, in ms. (log 145: DESIGN CHOICE) -/
structure BootFinds where
  romsAgree : Bool := true
  times : List Nat := []
  lanes : List Nat := []
  untrained : List Nat := []
  tiles : List Nat := []
  precision : List Nat := []
  arrays : List Nat := []
  engines : List Nat := []
  walkers : List Nat := []
  samplers : List Nat := []
  updaters : List Nat := []
  deriving DecidableEq, Repr

/-- A frame on the Kimal ring (Tables 12.6, 12.7b): `size` bytes as it arrived. -/
structure KFrame where
  etherType : Nat
  vlan : Bool
  size : Nat
  version : Nat
  ident : Nat
  datagrams : List Datagram
  fcsGood : Bool
  deriving DecidableEq, Repr

/-- An exchange message of class 1 (Table 9.2). -/
structure XMsg where
  step : Nat
  hod : Nat
  first : Nat
  kind : Nat
  sender : Nat
  count : Nat
  esc : Nat
  contribs : Nat
  sent : Nat
  imageOff : Nat
  payload : List Byte
  deriving DecidableEq, Repr

/-- A flit as it arrives or leaves (Tables 11.3 and 11.4): its header's fields, its payload, its CRC; and whether the
receiver's FEC could not correct it (R342). -/
structure Flit where
  kind : Nat
  cls : Nat
  seq : Nat
  ack : Nat
  creditClass : Nat
  credits : Nat
  tkind : Nat
  dest : Nat
  src : Nat
  hops : Nat
  tag : Nat
  payload : List Byte
  crc : Nat
  fecFailed : Bool
  deriving DecidableEq, Repr

/-- One answer in an XANS (Table 11.6): tag, and 0 ACCEPT, 1 RETRY, 2 BUSY, 3 REFUSED. -/
structure XAnswer where
  tag : Nat
  code : Nat
  deriving DecidableEq, Repr

/-- What the module stage reports over PMBus (R409): millivolts, milliamperes, milliwatts, millidegrees. -/
structure StageReport where
  inMv : Nat
  inMa : Nat
  inMw : Nat
  outMa : Nat
  tempMc : Int
  status : Nat
  warning : Bool
  fault : Bool
  deriving DecidableEq, Repr

/-- The PCIe link as it trains with the host (R351, R355, R450): generation, width, FLIT mode, the virtual functions the
host enables, and the MSI-X vectors it leaves disabled (function, vector). (log 18: DESIGN CHOICE) -/
structure HostLink where
  gen : Nat
  width : Nat
  flit : Bool
  vfs : Nat
  masked : List (Nat × Nat)
  deriving DecidableEq, Repr

/-- The commands. A `d` operand is the number the queue engine gave a fetched descriptor. -/
inductive Instr where
  -- module, pins and boot (chapters 16, 14)
  | inputTurnOn (mv : Nat)
  | powerEnable
  | powerDisable (inputMv : Option Nat)
  | powerOffTimeEnd
  | moduleResetAssert (ns : Nat)
  | moduleResetRelease
  | bootComplete (found : BootFinds)
  | perstAssert
  | perstDeassert (link : HostLink)
  | thermTripShutdown
  -- device state (chapter 0)
  | requestRun (src : Src)
  | requestDrain (src : Src)
  | drainComplete
  -- queues, tallies, host (chapter 11)
  | doorbell (fn q off v : Nat)   -- a write of v at an offset of a queue page
  | tallySet (fn t v : Nat)
  | tallyAdd (fn t v : Nat)
  | queueFetch (q : Nat) (hostSlot : Option (List Byte))
  | queueAbort (src : Src) (q : Nat)
  | abortRemovalDone (q : Nat)
  | queueResume (src : Src) (q : Nat)
  | functionLevelReset (fn : Nat)
  | pcieLinkDown
  | bar4Access (off len : Nat) (write : Option (List Byte))
  | tallyOp (d : Nat)
  | copy (d engine : Nat)
  | descriptorComplete (d : Nat)
  -- forward tiles (chapter 2)
  | forwardProduct (d : Nat)
  | gatedFfProduct (d : Nat)
  | tableLoad (d : Nat)
  | weightChunkLoad (tile : Nat)
  | laneGroupHandshake (tile lg : Nat)
  | bondRelease (tile : Nat)
  -- precision units (chapter 3)
  | puProduct (d : Nat)
  | rowStatistics (d : Nat)
  | gather (d : Nat)
  | select (d : Nat)
  -- backward arrays (chapter 4)
  | productBackward (d : Nat)
  | normalisationBackward (d : Nat)
  | headSoftmaxBackward (d : Nat)
  | attentionBackward (d : Nat)
  | gradientDeposit (d : Nat)
  -- converters and trackers (chapter 5)
  | convert (d : Nat)
  | spanConvert (conv : Nat)
  | watchRecordsWrite
  -- attention engines and pages (chapter 6)
  | attention (d : Nat)
  | attentionItem (engine : Nat)
  | pageWaitTimeout (engine : Nat)
  | remoteReadTimeout (engine : Nat)
  | poolFreePage (src : Src) (pool page : Nat)
  | quarantineRelease
  -- contexts (chapter 7)
  | ctxOpen (d : Nat)
  | ctxClose (d : Nat)
  | ctxHold (d : Nat)
  | ctxRelease (d : Nat)
  | ctxPark (d : Nat)
  | parkPagesAcknowledged (ctx : Nat)
  | ctxResume (d : Nat)
  | ctxInsert (d : Nat)
  | abortStep (d : Nat)
  | flushPrefix (d : Nat)
  | deferredContextOp (ctx : Nat)
  | decodeStepOpen (d : Nat)
  | sampleTarget (d : Nat)
  | sampleDraft (d : Nat)
  | holdLimitExpiry
  -- training step (chapter 8)
  | stepOpen (d : Nat)
  | stepOpenEffect
  | microbatchOpen (d : Nat)
  | microbatchClose (d : Nat)
  | updateSgd (d : Nat)
  | updateAdamw (d : Nat)
  | updateSignMomentum (d : Nat)
  | refresh (d : Nat)
  | publish (d : Nat)
  | load (d : Nat)
  | exportBank (d : Nat)
  | exportTimeout (d : Nat)
  | bankGrant (b : Nat)
  -- gradient exchange (chapter 9)
  | depositReceived (m : XMsg)
  | endReceived (m : XMsg)
  | hodDeadlineOpen (hod : Nat)
  | hodDeadlineFirst (hod : Nat)
  | ringReceived (m : XMsg)
  | ringEndReceived (m : XMsg)
  | ringHopTimeout (tag : Nat)
  | imageReceived (m : XMsg)
  | xansReceived (answers : List XAnswer)
  | resendTimer (tag : Nat)
  | novoteTimeout
  | voteReceived (step member : Nat) (novote : Bool) (hodCrc memberCrc : Nat)
  | voteWindowExpiry
  | commitReceived (step : Nat) (c listeners admitted : List Nat) (admitStep : Nat)
  | abandonReceived (step : Nat) (silent : List Nat)
  | commitWaitExpiry
  | fpReceived (step member summary torn : Nat)
  | fpWindowExpiry
  | closeReceived (step agreed : Nat) (excluded : List Nat) (split : Bool)
  | rejoinRequest (src : Src)
  | rejoinReqReceived (member lastStep : Nat)
  | rejoinReqResend
  | grantReceived (leader stepR source rejoiner version : Nat)
  | rejoinPullDone
  | doneReceived (member : Nat)
  | rejoinHoldExpiry
  -- memory system (chapter 10)
  | hbmSlot (pc : Nat)
  | wcbAgeWriteback (stack entry : Nat)
  | hbmPatrolScrub (addr symbols : Nat)
  | tileStoreScrub (addr flips : Nat)
  | repairExecute (src : Src)
  -- Fyven links (chapter 11)
  | portTrainingStart (f : Nat)
  | trainingComplete (f : Nat) (failedLanes delayNs peer : Nat)
  | trainingRetry (f : Nat)
  | lossOfSignal (f : Nat)
  | flitBoundary (f : Nat)
  | txnFlitReceived (f : Nat) (flit : Flit)
  | nakReceived (f seq cls credits : Nat)
  | linkFlitReceived (f ack cls credits : Nat)
  | recoverDone (f : Nat)
  | recoverTimeout (f : Nat)
  -- transactions (chapter 11)
  | rd (src tag addr len : Nat)
  | rdData (tag : Nat) (data : List Byte)
  | rdErr (tag code : Nat)
  | wr (src tag addr len : Nat) (data : List Byte)
  | wrData (src tag : Nat) (data : List Byte)
  | wrAck (tag code : Nat)
  | dreq (src tag : Nat) (dg : Datagram)
  | dans (tag : Nat) (dg : Datagram)
  | completionTimeout (tag : Nat)
  -- dictionary and ring (chapter 12)
  | objectWrite (src : Src) (index sub : Nat) (offset : Nat) (data : List Byte)
  | stagingWrite (src : Src) (index sub : Nat) (data : List Byte)
  | keystoneApply (src : Src)
  | keystoneDiscard (src : Src)
  | stagingHoldExpiry
  | aliasWrite (src : Src) (alias_ sub : Nat) (data : List Byte)
  | mailboxDoorbell (fn : Nat) (dg : Datagram)
  | kimalFrame (port : Nat) (f : KFrame)
  | kimalLinkDown (k : Nat)
  | kimalLinkUp (k : Nat)
  | delayProbe (k : Nat) (roundTrip turnaround : Option Nat)
  | syncLoss
  | timeSet (src : Src) (t : Nat)
  -- power and timing (chapter 13)
  | powerEstimate (mw : Nat)
  | stagePoll (r : StageReport)
  | stageSilent
  | governorCycle (ratesMhs : List Nat) (mwAtVoltage : List Nat)
  | temperatureRead (mc cores : List Int)   -- the sensors; the core dies' reports, on the reads that take them
  | railMonitorSample (rail mv : Nat)
  | idleDrop (dom : Nat)
  | pllLockLoss (k : Nat)   -- a domain of Table 13.5, or 34 to 38 for a reference
  -- security and firmware (chapter 14)
  | challengeRequest (src : Src)
  | response (src : Src) (data : List Byte)
  | challengeExpiry
  | quoteNonce (src : Src) (data : List Byte)
  | quoteReady
  | getVersion
  | getCapabilities
  | negotiateAlgorithms (algs : List Nat)
  | getDigests
  | getCertificate (slot off len : Nat)
  | challenge (slot : Nat) (nonce : List Byte)
  | getMeasurements (index : Nat) (nonce : List Byte)
  | spdmUnsupported (code : Nat)
  | updateErase (src : Src)
  | updateImageWrite (src : Src) (kind offset : Nat) (data : List Byte)
  | updateVerify (src : Src)
  | updateCommit (src : Src)
  | updateConfirm (src : Src)
  | updateAbandon (src : Src)
  | configBlobWrite (src : Src) (data : List Byte)
  | enrolWrite (src : Src) (data : List Byte)
  | overrideWrite (src : Src) (data : List Byte)
  -- errors and injection (chapter 15)
  | eventLogWrite (die : Nat)
  | eventsDropped (die : Nat)
  | faultClear (src : Src)
  | stageStall (w : Nat)
  | ringmasterWatchdog (target : Nat)
  | injectionArm (src : Src) (slot : Nat)
  | injectionDisarm (src : Src) (slot : Nat)
  | periodicInjection (slot : Nat)
  -- the rows the table lists last
  | stageShutsItselfDown
  | internalResetHoldEnd
  | probeBlockReceived (k sentAt : Nat)
  | bar4Resize (bytes : Nat)
  | directAccessRead (fn offset len : Nat)
  | bar2Read (fn offset len : Nat)
  | jtagInstruction (code : Nat)
  | serviceRepairCompletes (ok : Bool)
  | updateCommandEnd (flashOk : Bool)
  | prefixClearingEnds
  | imageRequestedAgain (member hod : Nat)
  deriving DecidableEq, Repr

end Sys2Proof
end

