-- ==== Sys2Proof/Config.lean ====
section
/-! DEFINITION. What the manual leaves open, as constants with no body: nothing in Lean can say what they are, so a
claim about them holds whatever they are. -/

namespace Sys2Proof.Config

/-- The n-th free value: a value the manual leaves undefined, or that the device draws from a random source
(R93, R439). Each use takes the next n from the state's counter. (log 4: DESIGN CHOICE). -/
opaque freeNat : Nat → Nat

/-- By how many units in the last place the device's exp of an FP32 operand differs from the nearest FP32 value;
the use clamps it to the 2 of R178 and R222. (log 10: DESIGN CHOICE). -/
opaque expUlp : W32 → Int

/-- By how many codes the device's natural logarithm of an FP32 operand differs from the nearest FP32 value, modulo
2^32: R178 and R222 give no accuracy for ln, so nothing bounds it. (log 11: DESIGN CHOICE). -/
opaque lnUlp : W32 → Int

/-- What a byte of an enabled pool's state area reads as (R187: its layout is not given): at a time, at an address.
(log 6: DESIGN CHOICE). -/
opaque poolByte : Nat → Nat → Byte

/-- The block class and instance that holds watch point w (R455): the manual gives no map.
(log 13: DESIGN CHOICE). -/
opaque watchSource : Nat → Nat

/-- The depth of clocked domain k's synchronising FIFO (R415, Table 13.7: per domain). (log 5: DESIGN CHOICE). -/
opaque clkFifoDepth : Nat → Nat

/-- The voltage of a stack's VSTK rail in mV, set by its core dies' requirements (Table 13.3): free, by stack.
(log 161: DESIGN CHOICE) -/
opaque stackMv : Nat → Nat

end Sys2Proof.Config
end

