-- ==== Sys2Proof/Machine/Bits.lean ====
section
/-! DEFINITION. Bit fields, byte order, sorted maps and the checksums the manual names: CRC-32C (R24), CRC-64
(R263), the generator mix (R91). -/

namespace Sys2Proof.Machine

/-- Bits [hi:lo] of a number, as the manual writes them. -/
def fld (x hi lo : Nat) : Nat := (x >>> lo) % 2 ^ (hi + 1 - lo)

/-- One bit of a number. -/
def bitAt (x i : Nat) : Bool := Nat.testBit x i

/-- The number that little-endian bytes spell. -/
def ofLE : List Byte → Nat
  | [] => 0
  | b :: bs => b.toNat + 256 * ofLE bs

/-- The n little-endian bytes of a number. -/
def toLE : Nat → Nat → List Byte
  | 0, _ => []
  | n + 1, x => BitVec.ofNat 8 x :: toLE n (x / 256)

/-- The n bytes at offset o of a list, zeros beyond its end. -/
def bytesAt (bs : List Byte) (o n : Nat) : List Byte :=
  let t := (bs.drop o).take n
  t ++ List.replicate (n - t.length) 0

/-- The little-endian number of n bytes at offset o. -/
def numAt (bs : List Byte) (o n : Nat) : Nat := ofLE (bytesAt bs o n)

/-- Two's complement reading of the low w bits. -/
def toInt (w x : Nat) : Int :=
  let y := x % 2 ^ w
  if y < 2 ^ (w - 1) then (y : Int) else (y : Int) - 2 ^ w

/-- The low w bits of an integer. -/
def ofInt (w : Nat) (i : Int) : Nat := (i % (2 ^ w : Int)).toNat

/-- ⌈a / b⌉. -/
def ceilDiv (a b : Nat) : Nat := (a + b - 1) / b

/-- The next multiple of n at or above x. -/
def roundUp (x n : Nat) : Nat := ceilDiv x n * n

/-- ⌊log2 x⌋ for x > 0. -/
def flog2 (x : Nat) : Nat := Nat.log2 x

/-- Magics given byte by byte in ascending order, as a little-endian number. -/
def magic (a b c d : Nat) : Nat := a + 256 * (b + 256 * (c + 256 * d))

/-- A map from numbers to values, its keys rising. -/
abbrev KMap (α : Type) := List (Nat × α)

/-- The value under a key. -/
def KMap.get? {α : Type} : KMap α → Nat → Option α
  | [], _ => none
  | (j, v) :: m, k => if j = k then some v else KMap.get? m k

/-- The value under a key, or a default. -/
def KMap.getD {α : Type} (m : KMap α) (k : Nat) (d : α) : α := (KMap.get? m k).getD d

/-- Put a value under a key, keeping the keys rising. -/
def KMap.set {α : Type} : KMap α → Nat → α → KMap α
  | [], k, v => [(k, v)]
  | (j, w) :: m, k, v =>
    if k < j then (k, v) :: (j, w) :: m
    else if k = j then (k, v) :: m
    else (j, w) :: KMap.set m k v

/-- Take a key away. -/
def KMap.erase {α : Type} (m : KMap α) (k : Nat) : KMap α := m.filter fun p => p.1 != k

/-- Replace the value under a key by a function of it, where there is one. -/
def KMap.modify {α : Type} (m : KMap α) (k : Nat) (f : α → α) : KMap α :=
  m.map fun p => if p.1 = k then (p.1, f p.2) else p

/-- One bit-serial step of a reflected CRC with polynomial p. -/
def crcBit (p c : Nat) : Nat := if c % 2 = 1 then (c / 2) ^^^ p else c / 2

/-- One byte into a reflected CRC. -/
def crcByte (p c : Nat) (b : Byte) : Nat :=
  (List.range 8).foldl (fun c _ => crcBit p c) (c ^^^ b.toNat)

/-- CRC-32C (R24 to R26: scale headers; R264, R341). -/
def crc32c (bs : List Byte) : Nat :=
  (bs.foldl (crcByte 0x82F63B78) 0xFFFFFFFF) ^^^ 0xFFFFFFFF

/-- The ECMA-182 polynomial 0x42F0E1EBA9EA3693 with its bits reflected (R263). -/
def crc64Poly : Nat := 0xC96C5795D7870F42

/-- A CRC-64 of more bytes, after that of those before them; that of none is 0. -/
def crc64More (crc : Nat) (bs : List Byte) : Nat :=
  (bs.foldl (crcByte crc64Poly) (crc ^^^ 0xFFFFFFFFFFFFFFFF)) ^^^ 0xFFFFFFFFFFFFFFFF

/-- The CRC-64 of the manual (R263): reflected, initial value and final XOR all ones. -/
def crc64 (bs : List Byte) : Nat :=
  (bs.foldl (crcByte crc64Poly) 0xFFFFFFFFFFFFFFFF) ^^^ 0xFFFFFFFFFFFFFFFF

/-- mix of R91. -/
def mix (z : W64) : W64 :=
  let z1 := (z ^^^ (z >>> 33)) * 0xFF51AFD7ED558CCD#64
  let z2 := (z1 ^^^ (z1 >>> 33)) * 0xC4CEB9FE1A85EC53#64
  z2 ^^^ (z2 >>> 33)

/-- mix on numbers. -/
def mixN (z : Nat) : Nat := (mix (BitVec.ofNat 64 z)).toNat

/-- The 128-bit word w(C) of a generator with key k at counter c (R91): low half first. -/
def genWord (k c : Nat) : Nat :=
  mixN (k ^^^ (2 * c % 2 ^ 64)) + 2 ^ 64 * mixN (k ^^^ ((2 * c + 1) % 2 ^ 64))

/-- The i-th 16-bit value of a word (R91: eight values, low half first). -/
def genU16 (w i : Nat) : Nat := (w >>> (16 * i)) % 65536

/-- The key of a bank keyed by device seed, work tag and layer id (R92, R123, R166). -/
def bankKey (seed tag layer : Nat) : Nat := mixN (seed ^^^ mixN (tag * 65536 + layer))

end Sys2Proof.Machine
end

