-- ==== Sys2Proof/Machine/Num.lean ====
section
/-! DEFINITION. Numbers (R14, R29, R30, R31, R39, R40): exact values, element formats, rounding, and the FP32 and FP64
arithmetic of the manual, computed exactly and narrowed once at the end. -/

namespace Sys2Proof.Machine

/-- A value on its way through the machine: exact, with the classes IEEE 754 distinguishes.
`fin s m e` is (-1)^s * m * 2^e with m > 0. -/
inductive Num where
  | nan
  | inf (s : Bool)
  | zero (s : Bool)
  | fin (s : Bool) (m : Nat) (e : Int)
  deriving DecidableEq, Repr

/-- Rounding (Table 1.6); SR carries its 16-bit uniform value (R30). -/
inductive Rnd where
  | rne
  | sr (u : Nat)
  | trz
  deriving DecidableEq, Repr

namespace Num

/-- Is the value a NaN or an infinity (R33)? -/
def nonFinite : Num → Bool
  | nan => true
  | inf _ => true
  | _ => false

/-- Is the value an exact zero? -/
def isZero : Num → Bool
  | zero _ => true
  | _ => false

/-- Its sign bit. -/
def sign : Num → Bool
  | nan => false
  | inf s => s
  | zero s => s
  | fin s _ _ => s

/-- The value with its sign flipped. -/
def neg : Num → Num
  | nan => nan
  | inf s => inf (!s)
  | zero s => zero (!s)
  | fin s m e => fin (!s) m e

/-- |x|. -/
def abs : Num → Num
  | nan => nan
  | inf _ => inf false
  | zero _ => zero false
  | fin _ m e => fin false m e

/-- m * 2^e for a signed m; a zero takes the sign given. -/
def ofScaled (m : Int) (e : Int) (zs : Bool := false) : Num :=
  if m = 0 then zero zs else fin (m < 0) m.natAbs e

/-- A natural number. -/
def ofNat (n : Nat) : Num := ofScaled n 0

/-- The value scaled by 2^k, exactly. -/
def scale (k : Int) : Num → Num
  | fin s m e => fin s m (e + k)
  | x => x

/-- ⌊log2 |x|⌋ of a nonzero finite value. -/
def flog : Num → Int
  | fin _ m e => (Nat.log2 m : Int) + e
  | _ => 0

/-- ⌈log2 |x|⌉ of a nonzero finite value. -/
def clog : Num → Int
  | fin _ m e => if m = 2 ^ Nat.log2 m then (Nat.log2 m : Int) + e else (Nat.log2 m : Int) + e + 1
  | _ => 0

end Num

/-- Compare m1 * 2^e1 with m2 * 2^e2, both at least 0. -/
def cmpMag (m1 : Nat) (e1 : Int) (m2 : Nat) (e2 : Int) : Ordering :=
  if e2 ≤ e1 then compare (m1 <<< (e1 - e2).toNat) m2 else compare m1 (m2 <<< (e2 - e1).toNat)

namespace Num

/-- Compare magnitudes; infinities are above every finite value. -/
def cmpAbs : Num → Num → Ordering
  | fin _ m e, fin _ n f => cmpMag m e n f
  | fin _ _ _, zero _ => .gt
  | zero _, fin _ _ _ => .lt
  | zero _, zero _ => .eq
  | inf _, inf _ => .eq
  | inf _, _ => .gt
  | _, inf _ => .lt
  | _, _ => .eq

/-- |x| > |y|. -/
def absGt (x y : Num) : Bool := cmpAbs x y == .gt

/-- x < y as numbers (false with a NaN). -/
def lt (x y : Num) : Bool :=
  match x, y with
  | nan, _ => false
  | _, nan => false
  | _, _ =>
    if x.isZero && y.isZero then false
    else if x.isZero then !y.sign
    else if y.isZero then x.sign
    else if x.sign != y.sign then x.sign
    else if x.sign then cmpAbs x y == .gt
    else cmpAbs x y == .lt

/-- The larger of two values; a NaN loses. -/
def max (x y : Num) : Num :=
  match x, y with
  | nan, _ => y
  | _, nan => x
  | _, _ => if lt x y then y else x

/-- The larger magnitude, as a magnitude. -/
def maxAbs (x y : Num) : Num := if absGt y x then y.abs else x.abs

/-- The signed significand of a finite value at exponent e0, which must be at or below its own. -/
def atExp (e0 : Int) : Num → Int
  | fin s m e => if s then -((m <<< (e - e0).toNat : Nat) : Int) else ((m <<< (e - e0).toNat : Nat) : Int)
  | _ => 0

/-- The exact sum. Opposite infinities give a NaN; a zero sum of unlike signs is +0. -/
def add (x y : Num) : Num :=
  match x, y with
  | nan, _ => nan
  | _, nan => nan
  | inf s, inf t => if s = t then inf s else nan
  | inf s, _ => inf s
  | _, inf t => inf t
  | zero s, zero t => zero (s && t)
  | zero _, y => y
  | x, zero _ => x
  | fin s m e, fin t n f =>
    let e0 := min e f
    ofScaled (atExp e0 (fin s m e) + atExp e0 (fin t n f)) e0

/-- The exact product. -/
def mul (x y : Num) : Num :=
  match x, y with
  | nan, _ => nan
  | _, nan => nan
  | inf s, zero _ => let _ := s; nan
  | zero _, inf _ => nan
  | inf s, y => inf (s != y.sign)
  | x, inf t => inf (x.sign != t)
  | zero s, y => zero (s != y.sign)
  | x, zero t => zero (x.sign != t)
  | fin s m e, fin t n f => fin (s != t) (m * n) (e + f)

/-- The exact difference. -/
def sub (x y : Num) : Num := add x (neg y)

/-- A quotient with at least 64 significant bits and a sticky last bit, enough for one later rounding. -/
def divSticky (x y : Num) : Num :=
  match x, y with
  | nan, _ => nan
  | _, nan => nan
  | inf _, inf _ => nan
  | inf s, y => inf (s != y.sign)
  | x, inf t => zero (x.sign != t)
  | zero _, zero _ => nan
  | zero s, y => zero (s != y.sign)
  | x, zero t => inf (x.sign != t)
  | fin s m e, fin t n f =>
    let k := 70 + Nat.log2 n
    let q := (m <<< k) / n
    let r := (m <<< k) % n
    fin (s != t) (2 * q + (if r = 0 then 0 else 1)) (e - f - k - 1)

end Num

/-- ⌊√n⌋ by bits: `isqrtLoop k r n` tries bits k-1 down to 0 on top of r. -/
def isqrtLoop : Nat → Nat → Nat → Nat
  | 0, r, _ => r
  | k + 1, r, n =>
    let r' := r + 2 ^ k
    if r' * r' ≤ n then isqrtLoop k r' n else isqrtLoop k r n

/-- ⌊√n⌋. -/
def isqrt (n : Nat) : Nat := isqrtLoop (Nat.log2 n / 2 + 1) 0 n

/-- A square root with a sticky last bit, enough for one later rounding. -/
def Num.sqrtSticky : Num → Num
  | .nan => .nan
  | .zero s => .zero s
  | .inf s => if s then .nan else .inf false
  | .fin true _ _ => .nan
  | .fin false m e =>
    let m' := if e % 2 = 0 then m <<< 140 else m <<< 141
    let e' := if e % 2 = 0 then e - 140 else e - 141
    let r := isqrt m'
    .fin false (2 * r + (if r * r = m' then 0 else 1)) (e' / 2 - 1)

/-- m / 2^k rounded to a whole number (R29, R30). -/
def roundShift (r : Rnd) (m k : Nat) : Nat :=
  let q := m >>> k
  let rem := m % 2 ^ k
  match r with
  | .rne => if 2 * rem > 2 ^ k ∨ (2 * rem = 2 ^ k ∧ q % 2 = 1) then q + 1 else q
  | .sr u => if u < (rem <<< 16) >>> k then q + 1 else q
  | .trz => q

/-- m * 2^(e - q) rounded to a whole number. -/
def roundAt (r : Rnd) (m : Nat) (e q : Int) : Nat :=
  if q ≤ e then m <<< (e - q).toNat else roundShift r m (q - e).toNat

/-- A floating element format (Table 1.1): mantissa bits, bias, width, and the largest finite value maxM * 2^maxE.
`top` says what the codes at the top exponent are. -/
inductive TopCodes where
  | none_     -- every code is finite (E2M1)
  | nanOnly   -- one NaN mantissa, no infinity (E4M3)
  | ieee      -- infinity and NaNs
  deriving DecidableEq, Repr

/-- A floating format. -/
structure FFmt where
  bits : Nat
  mb : Nat
  bias : Nat
  maxM : Nat
  maxE : Int
  top : TopCodes
  nanCode : Nat
  deriving DecidableEq, Repr

def fmtE2M1 : FFmt := ⟨4, 1, 1, 3, 1, .none_, 0⟩
def fmtE4M3 : FFmt := ⟨8, 3, 7, 7, 6, .nanOnly, 0x7F⟩
def fmtE5M2 : FFmt := ⟨8, 2, 15, 7, 13, .ieee, 0x7F⟩
def fmtBF16 : FFmt := ⟨16, 7, 127, 255, 120, .ieee, 0x7FC0⟩
def fmtFP16 : FFmt := ⟨16, 10, 15, 2047, 5, .ieee, 0x7E00⟩
def fmtFP32 : FFmt := ⟨32, 23, 127, 16777215, 104, .ieee, 0x7FC00000⟩
def fmtFP64 : FFmt := ⟨64, 52, 1023, 9007199254740991, 971, .ieee, 0x7FF8000000000000⟩

/-- E8M13, the narrow run of the backward arrays (R39). -/
def fmtE8M13 : FFmt := ⟨22, 13, 127, 16383, 114, .ieee, 0x1FF000⟩

/-- An element format by its code (Table 1.1). -/
inductive Elem where
  | flt (f : FFmt)
  | int (n : Nat)
  deriving DecidableEq, Repr

/-- Element format codes (Table 1.1). -/
def elemOfCode : Nat → Option Elem
  | 0x01 => some (.flt fmtE2M1)
  | 0x02 => some (.flt fmtE4M3)
  | 0x03 => some (.flt fmtE5M2)
  | 0x04 => some (.int 4)
  | 0x05 => some (.int 8)
  | 0x06 => some (.int 2)
  | 0x08 => some (.flt fmtBF16)
  | 0x09 => some (.flt fmtFP16)
  | 0x0A => some (.flt fmtFP32)
  | _ => none

/-- Block formats (Table 1.2). -/
inductive BlkFmt where
  | b4 | b8m | b8e | q4 | q8 | q2 | b4s
  deriving DecidableEq, Repr

/-- Block format codes (Table 1.2). -/
def blkOfCode : Nat → Option BlkFmt
  | 0x81 => some .b4
  | 0x82 => some .b8m
  | 0x83 => some .b8e
  | 0x84 => some .q4
  | 0x85 => some .q8
  | 0x86 => some .q2
  | 0x91 => some .b4s
  | _ => none

/-- The element format of a block format. -/
def BlkFmt.elem : BlkFmt → Elem
  | .b4 => .flt fmtE2M1
  | .b8m => .flt fmtE4M3
  | .b8e => .flt fmtE5M2
  | .q4 => .int 4
  | .q8 => .int 8
  | .q2 => .int 2
  | .b4s => .flt fmtE2M1

/-- Is the code one of Tables 1.1 and 1.2 (R17)? -/
def knownFormat (c : Nat) : Bool := (elemOfCode c).isSome || (blkOfCode c).isSome

/-- Bits of one element. -/
def Elem.width : Elem → Nat
  | .flt f => f.bits
  | .int n => n

/-- The largest magnitude of an element format (R141: Fmax). (log 40: DEDUCED) -/
def Elem.maxMag : Elem → Num
  | .flt f => .fin false f.maxM f.maxE
  | .int n => .ofNat (2 ^ (n - 1) - 1)

/-- Data bytes of one block (Table 1.2). -/
def BlkFmt.bytes (b : BlkFmt) : Nat := 4 * b.elem.width

/-- The largest finite value with a sign. -/
def FFmt.maxNum (f : FFmt) (s : Bool) : Num := .fin s f.maxM f.maxE

/-- The largest finite value. -/
def FFmt.maxNumPos (f : FFmt) : Num := f.maxNum false

/-- The exponent of the unit in the last place at a nonzero finite value. -/
def FFmt.quantum (f : FFmt) (x : Num) : Int := (if x.flog < 1 - (f.bias : Int) then 1 - (f.bias : Int) else x.flog) - f.mb

/-- The code of n * 2^q, where n is at most 2^(mb+1) and q is the value's quantum. -/
def FFmt.pack (f : FFmt) (s : Bool) (n : Nat) (q : Int) : Nat :=
  let n' := if n = 2 ^ (f.mb + 1) then 2 ^ f.mb else n
  let q' := if n = 2 ^ (f.mb + 1) then q + 1 else q
  let mag := if n' < 2 ^ f.mb then n' else ((q' + f.mb + f.bias).toNat <<< f.mb) + (n' - 2 ^ f.mb)
  mag + (if s then 2 ^ (f.bits - 1) else 0)

/-- The all-ones exponent with a zero mantissa. -/
def FFmt.infCode (f : FFmt) (s : Bool) : Nat :=
  ((2 ^ (f.bits - 1 - f.mb) - 1) <<< f.mb) + (if s then 2 ^ (f.bits - 1) else 0)

/-- The largest finite code with a sign. -/
def FFmt.maxCode (f : FFmt) (s : Bool) : Nat :=
  f.pack s (f.maxM <<< (f.mb + 1 - (Nat.log2 f.maxM + 1)))
    (f.maxE - ((f.mb + 1 - (Nat.log2 f.maxM + 1) : Nat) : Int))

/-- Decode an element code (R14). A negative zero of E2M1, E4M3 and E5M2 reads as zero (R15). -/
def FFmt.decode (f : FFmt) (c : Nat) : Num :=
  let s := Nat.testBit c (f.bits - 1)
  let mant := c % 2 ^ f.mb
  let ex := (c >>> f.mb) % 2 ^ (f.bits - 1 - f.mb)
  let top := 2 ^ (f.bits - 1 - f.mb) - 1
  let fin := if ex = 0 then
      (if mant = 0 then Num.zero (s && decide (16 ≤ f.bits)) else Num.fin s mant (1 - (f.bias : Int) - f.mb))
    else Num.fin s (2 ^ f.mb + mant) ((ex : Int) - f.bias - f.mb)
  match f.top with
  | .none_ => fin
  | .nanOnly => if ex = top ∧ mant = 2 ^ f.mb - 1 then .nan else fin
  | .ieee => if ex = top then (if mant = 0 then .inf s else .nan) else fin

/-- Decode an element of any format of Table 1.1. -/
def Elem.decode : Elem → Nat → Num
  | .flt f, c => f.decode c
  | .int n, c => .ofScaled (toInt n c) 0

/-- What a conversion gives: the code, and the outcomes R32 and R33 count. -/
structure Conv where
  code : Nat
  sat : Bool := false     -- S: written as the largest finite value
  zeroed : Bool := false  -- F: a nonzero finite value written as zero
  nfSat : Bool := false   -- a non-finite value written as the largest finite value (0x3008:02)
  nfKept : Bool := false  -- a non-finite value kept under NFP
  deriving DecidableEq, Repr

/-- Convert a value to an element format (R15, R31, R34, R35). -/
def Elem.conv (t : Elem) (nfp : Bool) (r : Rnd) (x : Num) : Conv :=
  match t with
  | .flt f =>
    let satTo (s : Bool) : Conv := { code := f.maxCode s, sat := true, nfSat := true }
    match x with
    | .nan => if nfp && f.top != .none_ then { code := f.nanCode, nfKept := true } else satTo false
    | .inf s =>
      if nfp && f.top == .ieee then { code := f.infCode s, nfKept := true }
      else if nfp && f.top == .nanOnly then { code := f.nanCode, nfKept := true }
      else satTo s
    | .zero s => { code := if s ∧ 16 ≤ f.bits then 2 ^ (f.bits - 1) else 0 }
    | .fin s m e =>
      if Num.absGt x (f.maxNum s) then { code := f.maxCode s, sat := true }
      else
        let q := f.quantum x
        let n := roundAt r m e q
        if n = 0 then { code := if s ∧ 16 ≤ f.bits then 2 ^ (f.bits - 1) else 0, zeroed := true }
        else { code := f.pack s n q }
  | .int n =>
    let mx : Nat := 2 ^ (n - 1) - 1
    let neg (s : Bool) (v : Nat) : Nat := ofInt n (if s then -(v : Int) else (v : Int))
    match x with
    | .nan => { code := mx, sat := true, nfSat := true }
    | .inf s => { code := neg s mx, sat := true, nfSat := true }
    | .zero _ => { code := 0 }
    | .fin s m e =>
      if Num.absGt x (.ofNat mx) then { code := neg s mx, sat := true }
      else
        let v := roundAt r m e 0
        { code := neg s v, zeroed := decide (v = 0) }

/-- IEEE 754 rounding of an exact value into a format, overflow to infinity (RNE). -/
def FFmt.rnd (f : FFmt) (x : Num) : Num :=
  match x with
  | .fin s m e =>
    let q := f.quantum x
    let n := roundAt .rne m e q
    if n = 0 then .zero s
    else
      let y := Num.fin s n q
      if Num.absGt y (f.maxNum s) then .inf s else y
  | y => y

/-- The code of a value of the format (a NaN takes the code of R35). -/
def FFmt.encode (f : FFmt) (x : Num) : Nat :=
  match x with
  | .nan => f.nanCode
  | .inf s => f.infCode s
  | .zero s => if s then 2 ^ (f.bits - 1) else 0
  | .fin s m e =>
    let q := f.quantum x
    f.pack s (roundAt .rne m e q) q

/-- FP32 arithmetic with RNE and subnormals kept (R40, R178, R252). -/
def rnd32 (x : Num) : Num := fmtFP32.rnd x
def fadd (x y : Num) : Num := rnd32 (x.add y)
def fsub (x y : Num) : Num := rnd32 (x.sub y)
def fmul (x y : Num) : Num := rnd32 (x.mul y)
/-- Fused multiply-add x * y + z (R40). -/
def ffma (x y z : Num) : Num := rnd32 ((x.mul y).add z)
def fdiv (x y : Num) : Num := rnd32 (x.divSticky y)
def fsqrt (x : Num) : Num := rnd32 x.sqrtSticky
/-- FP64 with RNE (R250, R281). -/
def dadd (x y : Num) : Num := fmtFP64.rnd (x.add y)
def ddiv (x y : Num) : Num := fmtFP64.rnd (x.divSticky y)
def dsqrt (x : Num) : Num := fmtFP64.rnd x.sqrtSticky

/-- The FP32 value of a pattern, and the pattern of an FP32 value. -/
def f32 (c : Nat) : Num := fmtFP32.decode c
def f32Code (x : Num) : Nat := fmtFP32.encode x
def bf16 (c : Nat) : Num := fmtBF16.decode c
def f64Code (x : Num) : Nat := fmtFP64.encode x
def f64 (c : Nat) : Num := fmtFP64.decode c

/-- FP32 with a finite overflow held at the largest finite value (Table 1.7's S). (log 127: DESIGN CHOICE) -/
def satF32 (x : Num) : Num :=
  match x with
  | .fin s _ _ => if Num.absGt x (fmtFP32.maxNum s) then fmtFP32.maxNum s else rnd32 x
  | y => y

/-- A whole number in FP32. -/
def fOfNat (n : Nat) : Num := rnd32 (.ofNat n)

/-- ln 2 with 200 fraction bits, rounded down. -/
def ln2Fix : Int := 1113844574712631719546256151097547306333272293549090750737802

/-- Taylor sum of e^r for r with 200 fraction bits: `term` is r^k/k! so far. -/
def expTaylor : Nat → Nat → Int → Int → Int → Int
  | 0, _, _, _, acc => acc
  | n + 1, k, r, term, acc =>
    let t := term * r / ((k : Int) * 2 ^ 200)
    expTaylor n (k + 1) r t (acc + t)

/-- e^x to nearly 200 bits, for finite x of moderate size. (log 10: DESIGN CHOICE) -/
def expExact (x : Num) : Num :=
  match x with
  | .fin s m e =>
    let k200 : Int := e + 200
    let mag : Int := if 0 ≤ k200 then ((m <<< k200.toNat : Nat) : Int) else ((m >>> (-k200).toNat : Nat) : Int)
    let fx : Int := if s then -mag else mag
    let k : Int := (2 * fx + ln2Fix) / (2 * ln2Fix)
    let r := fx - k * ln2Fix
    .ofScaled (expTaylor 45 1 r (2 ^ 200) (2 ^ 200)) (k - 200)
  | _ => .ofNat 1

/-- Move a positive FP32 pattern by d units in the last place, inside [0, infinity]. (log 10: DESIGN CHOICE) -/
def nudge (c : Nat) (d : Int) : Nat :=
  let v : Int := (c : Int) + d
  if v < 0 then 0 else if v > 0x7F800000 then 0x7F800000 else v.toNat

/-- exp in FP32 to within 2 units in the last place (R178, R222): the nearest value moved by a free offset of at
most 2. exp of 0 is 1 and of -inf is 0 (R178: 1 when the maximum holds). (log 10: DESIGN CHOICE). -/
def fexp (x : Num) : Num :=
  match x with
  | .nan => .nan
  | .inf s => if s then .zero false else .inf false
  | .zero _ => .ofNat 1
  | .fin s _ _ =>
    let d := Config.expUlp (BitVec.ofNat 32 (f32Code x))
    let d := if d < -2 then -2 else if d > 2 then 2 else d
    let base := if Num.absGt x (.ofNat 200) then (if s then 0 else 0x7F800000) else f32Code (rnd32 (expExact x))
    f32 (nudge base d)

/-- The sum of t^(2i+1)/(2i+1) from the present power on, t with 200 fraction bits. -/
def atanhSum : Nat → Nat → Int → Int → Int → Int
  | 0, _, _, _, acc => acc
  | n + 1, k, tt, pow, acc => atanhSum n (k + 2) tt (pow * tt / 2 ^ 200) (acc + pow / (k : Int))

/-- ln of a positive finite value to nearly 200 bits: the exponent's share, and 2 atanh((y-1)/(y+1)) of the significand
y from 1 to 2. (log 11: DESIGN CHOICE) -/
def lnExact (x : Num) : Num :=
  match x with
  | .fin _ m e =>
    let l := Nat.log2 m
    let y : Int := ((m <<< (200 - min l 200) : Nat) : Int)
    let t := (y - 2 ^ 200) * 2 ^ 200 / (y + 2 ^ 200)
    .ofScaled ((e + (l : Int)) * ln2Fix + 2 * atanhSum 70 1 (t * t / 2 ^ 200) t 0) (-200)
  | _ => .zero false

/-- ln in FP32: ln 1 is 0, ln 0 is -inf; otherwise the nearest value moved by a free offset with no bound, since the
manual gives no accuracy for ln (log 11: DESIGN CHOICE). -/
def flnv (x : Num) : Num :=
  match x with
  | .zero _ => .inf true
  | .nan => .nan
  | .inf s => if s then .nan else .inf false
  | _ =>
    if f32Code x = 0x3F800000 then .zero false
    else
      let c := f32Code x
      f32 (BitVec.ofInt 32 ((f32Code (rnd32 (lnExact x)) : Int) + Config.lnUlp (BitVec.ofNat 32 c))).toNat

/-- The sign of a value: -1, 0 or 1 (R252: sign(0) = 0). -/
def fsign (x : Num) : Num :=
  match x with
  | .fin s _ _ => .fin s 1 0
  | .inf s => .fin s 1 0
  | _ => .zero false

/-- Smallest E in 1 to 254 with amax ≤ fmax * 2^(E-127) before the clamp (R143), as an integer. -/
def fitRaw (amax fmax : Num) : Int :=
  match amax, fmax with
  | .fin _ m e, .fin _ n f =>
    let j := amax.flog - fmax.flog
    127 + (if cmpMag m e n (f + j) != .gt then j else j + 1)
  | _, _ => 1

/-- E held to 1 to 254. -/
def clampE (e : Int) : Nat := if e < 1 then 1 else if e > 254 then 254 else e.toNat

/-- ⌈log2 (a / b)⌉ of positive finite values (R141). -/
def clogRatio (a b : Num) : Int := fitRaw a b - 127

/-- rne(8 log2 x) of a positive finite value (R253), exactly: the whole n with 2^(2n-1) < x^16 ≤ 2^(2n+1). -/
def log2x8 (x : Num) : Int :=
  match x with
  | .fin _ m e =>
    let p := m ^ 16
    let l : Int := (Nat.log2 p : Int) + 16 * e      -- floor of 16 log2 x
    let n := (l + 1) / 2
    -- 16 log2 x in [l, l+1): nearest even-half multiple; a tie needs x^16 = 2^(2n+1) exactly
    if l % 2 ≠ 0 ∧ p = 2 ^ Nat.log2 p then (if n % 2 = 0 then n else n - 1) else n
  | _ => 0

end Sys2Proof.Machine
end

