-- ==== Sys2Proof/Machine/State.lean ====
section
/-! DEFINITION. The state of the U9: everything the manual gives the module, as plain data; the reasons a step can
stop; and the module right after reset is released. -/

namespace Sys2Proof.Machine

/-- Device states (Table 0.4). -/
inductive Dev where
  | off | boot | standby | ready | run | drain | faultStop | rejoin
  deriving DecidableEq, Repr

/-- Memory: bytes by address, addresses strictly rising, no byte equal to what an unlisted address reads as. -/
abbrev Mem := List Host.Cell

/-! ### Events, log, injection (chapter 15) -/

/-- An event record (Table 15.1): `fmt`, `inj`, `esc` and `cls` are the outcome byte of Table 15.2. -/
structure EventRec where
  time : Nat
  code : Nat
  source : Nat
  step : Nat
  fmt : Nat
  inj : Bool
  esc : Bool
  cls : Nat
  detail : Nat
  tag : Nat
  deriving DecidableEq, Repr

/-- The event unit: the FIFO of each mortar die (oldest first) with the records it dropped since it last had room, the
records written (newest first, at most 65,536), and R449, R453. -/
structure LogUnit where
  fifo : KMap (List EventRec) := []
  dropped : KMap Nat := []
  recs : List EventRec := []
  written : Nat := 0
  codes : KMap Nat := []
  cause : Option EventRec := none
  causeOwn : Nat := 0        -- the cause's own default class (R454)
  cleared : Bool := false
  msix : List (Nat × Nat) := []   -- MSI-X raised: function, vector; newest first
  onceRun : List Nat := []   -- events logged once per RUN entry that this entry has logged
  onceStep : List Nat := []  -- events logged once per step that this step has logged
  deriving DecidableEq, Repr

/-- An injection slot: what arming latched (R457), its arm time, the next k of R458, and its state. -/
structure InjSlot where
  detector : Nat
  periodic : Bool
  target : Nat
  pattern : Nat
  address : Nat
  period : Nat
  armedAt : Nat
  nextK : Nat
  due : Bool
  count : Nat
  state : Nat
  deriving DecidableEq, Repr

/-! ### Dictionary and ring (chapter 12) -/

/-- A snapshot of a segmented read, or the gathered segments of a write, of one source (R372). -/
structure Segs where
  src : Src
  key : Nat
  time : Nat
  data : List Byte
  fresh : Bool := false     -- taken by a ring read that was answered BUSY (R389)
  deriving DecidableEq, Repr

/-- The dictionary: applied values that differ from their defaults, keyed index * 256 + subindex; the staging set and
its owner; the keystone result; segments; the status of the last accesses; ring and timebase state. -/
structure Dict where
  objs : KMap Nat := []
  blobs : KMap (List Byte) := []
  staged : KMap Nat := []
  sel : KMap (Nat × Nat) := [] -- selectors written: the selection their views still show, and until when (R373)
  owner : Nat := 0
  ksTime : Nat := 0
  ksNumber : Nat := 0
  ksObjects : Nat := 0
  ksFail : Nat := 0          -- index * 256 + subindex, or 0
  ksResult : Nat := 0
  snaps : List Segs := []
  gathers : List Segs := []
  lastStatus : Nat := 0      -- the last access's status (Table 12.3)
  lastData : List Byte := [] -- and the data it returned
  direct : Nat := 0          -- DIRECT_STATUS (R379)
  mboxLast : KMap Nat := []  -- LAST_STATUS of each function's mailbox (R380)
  mbox : KMap Datagram := [] -- the datagram each mailbox holds, serviced
  mboxDone : KMap Nat := []  -- when the service of each mailbox's last datagram ends (R380)
  k0 : Bool := false
  k1 : Bool := false
  ringOut : Option (Nat × KFrame) := none  -- the last frame sent on, with its port
  probeOut : List (Nat × Nat × Option Nat) := []   -- delay-probe blocks sent: port, time, turnaround in an answer
  follows : Bool := false    -- the last SYNC came with a valid time (R393)
  steer : Int := 0           -- offset still to be slewed (R394)
  slewAcc : Nat := 0         -- ns since the last slewed ns
  deriving DecidableEq, Repr

/-! ### Memory system (chapter 10) -/

/-- Who waits for a write to be acknowledged (R312): a unit that asks no more of it, a descriptor (R361), a peer that
sent a WR (R347). -/
inductive Writer where
  | unit
  | desc (d : Nat)
  | peer (src tag : Nat)
  deriving DecidableEq, Repr

/-- A write-combining entry (R311): entry j of a pseudo-channel; the bytes written (bit mask) or sums held; the number
of its write-back, once it is written back. -/
structure WcbEntry where
  stack : Nat
  pc : Nat
  j : Nat
  part : Nat
  mask : Nat
  sums : Bool
  used : Nat
  wb : Nat := 0
  deriving DecidableEq, Repr

/-- A request waiting for slots of a pseudo-channel (R320); kind 0 read, 1 write-back, 2 the read that completes a
sector; for 1 and 2 the number of the write-back. -/
structure HbmReq where
  pc : Nat
  part : Nat
  kind : Nat
  at_ : Nat
  wb : Nat := 0
  deriving DecidableEq, Repr

/-- A write that waits for an entry of its partition's quota (R316): its granule, the write-back it waits for (none
where the quota is 0), whether it takes an entry (a second write into the same entry takes none), and whose it is. -/
structure EntryWait where
  granule : Nat
  part : Nat
  on : Option Nat
  takes : Bool := true
  who : Writer := .unit
  deriving DecidableEq, Repr

/-- A row with corrected errors (R324), by the target of Table 10.6. -/
structure RowCe where
  target : Nat
  count : Nat
  deriving DecidableEq, Repr

/-- The memory system: device memory (HBM and tile store) and each function's host memory, unlisted bytes zero; poisoned
sectors and tile-store words by address; the buffer, the waiting requests, the regulators and repair.
(log 8: DESIGN CHOICE) -/
structure MemSys where
  mem : Mem := []
  host : KMap Mem := []
  poison : List Nat := []       -- sector (HBM) or word (tile store) addresses, rising
  injSyms : KMap Nat := []      -- by sector address: symbols corrupted
  tsFlips : KMap Nat := []      -- by word address: bits flipped, not yet corrected
  wcb : List WcbEntry := []
  wbs : List WcbEntry := []     -- entries being written back, which still serve reads (R313)
  wbN : Nat := 0                -- how many entries have been written back
  entryWaits : List EntryWait := []
  reqs : List HbmReq := []      -- oldest first
  tokens : KMap Int := []       -- by stack * 16 + partition, in units of 1/8,000 byte
  tokensAt : KMap Nat := []     -- time the bucket was last filled
  lastPart : KMap Nat := []     -- by pseudo-channel: the partition served last
  rows : KMap (List RowCe) := []
  repairs : List (Nat × Nat) := []   -- repairs in force, in order: target, kind
  repairRun : Option (Nat × Nat) := none
  lanes : List Nat := []        -- by stack: failed link lanes that training replaced by spares (R327)
  patrolled : Nat := 0          -- sectors read in the present patrol pass
  scaling : Bool := false
  deriving DecidableEq, Repr

/-! ### Links, host and queues (chapter 11) -/

/-- What a transaction serves. -/
inductive TxnUse where
  | copyRead (d chunk : Nat)
  | copyWrite (d chunk : Nat)
  | page (engine walker key : Nat)
  | exportWr (d off : Nat)
  | bar4 (read : Bool)
  | xmsg (hod : Nat)
  | xcmd
  | dict
  | pull
  deriving DecidableEq, Repr

/-- An outstanding transaction of this device, under its tag (R364). -/
structure Txn where
  use : TxnUse
  peer : Nat
  addr : Nat
  len : Nat
  got : List Byte
  at_ : Nat
  deriving DecidableEq, Repr

/-- A request to a peer that found no tag and waits for one (R364): a WR with its data, or an RD. -/
structure TagWait where
  use : TxnUse
  cls : Nat
  peer : Nat
  addr : Nat
  len : Nat
  data : Option (List Byte)
  at_ : Nat
  deriving DecidableEq, Repr

/-- A peer's WR whose data is still arriving (R347). -/
structure InWr where
  src : Nat
  tag : Nat
  addr : Nat
  len : Nat
  got : List Byte
  deriving DecidableEq, Repr

/-- A flit with the number of times it was sent. -/
structure SentFlit where
  flit : Flit
  sends : Nat
  deriving DecidableEq, Repr

/-- A class-0 flit handed to a port and not yet admitted (R345): since when, and whether it is forwarded. -/
structure Offer where
  flit : Flit
  at_ : Nat
  fwd : Bool
  deriving DecidableEq, Repr

/-- A Fyven port (R340 to R345). Queues are oldest first; `credits` counts flits the far end will take, `held` the flits
in this end's class buffers, `owed` credits to return. -/
structure Port where
  state : Nat := 1
  peer : Nat := 0xFF
  lanes : Nat := 0
  delay : Nat := 0
  seq : Nat := 0
  txq : KMap (List Flit) := []     -- local flits by class, those of class 0 admitted
  fwq : KMap (List Flit) := []     -- forwarded flits by class
  turn : KMap Bool := []           -- by class: true when the forwarded queue goes first
  replay : List SentFlit := []     -- unacknowledged, oldest first
  again : List Nat := []           -- sequence numbers awaiting replay
  credits : KMap Nat := []
  owed : KMap Nat := []
  expect : Nat := 0                -- the sequence number after the last one seen
  early : List Flit := []          -- flits held behind a missing one of their class
  lost : List (Nat × Nat) := []    -- missing flits: sequence number, class
  delivered : List Flit := []      -- what the last arrival delivered to this device
  rr : Nat := 1                    -- class the round robin serves
  rrLeft : Nat := 0                -- flits it may still take
  meter : Nat := 32768             -- class-0 tokens, in 1/4,096 flit
  meterAt : Nat := 0
  offers : List Offer := []        -- class-0 flits that wait for a token, oldest first
  boundAt : Nat := 0               -- time of the last flit boundary
  recovers : List Nat := []        -- times of the last entries to RECOVER
  out : Option Flit := none        -- the flit sent at the last boundary
  naks : List Nat := []            -- NAKs to send
  spoilLeft : Nat := 0             -- arriving flits that the last injection of detector 0x12 still corrupts
  spoilFec : Bool := false         -- and whether as uncorrectable codewords
  deriving DecidableEq, Repr

/-- A work queue (R356, R363). -/
structure Queue where
  state : Nat := 0
  head : Nat := 0
  tail : Nat := 0
  lastEvent : Nat := 0
  fetched : List (Option (List Byte)) := []   -- slots read ahead of the head (R358); none: a fetch that failed
  waitAt : Option Nat := none     -- since when its next descriptor waits on a full pending set
  deriving DecidableEq, Repr

/-- A fetched descriptor: waiting in its pending set, issued, or with its work done and its writes not yet
acknowledged. -/
structure Desc where
  queue : Nat
  head : Nat
  bytes : List Byte
  issued : Bool := false
  done : Bool := false
  early : Bool := false     -- doorbelled before the DRAIN request
  marks : List Nat := []    -- events logged once per descriptor that it has logged
  hdrs : List Nat := []     -- scale headers it writes, whose CRC follows the last line (R162)
  wrote : List (Nat × Nat) := []  -- output it has written: address, bytes (R80, R161, R205)
  readyAt : Option Nat := none    -- when its wait was satisfied, in the order of `Links.readyN` (R72, R96, R128)
  signalled : Bool := false       -- its signal was given in the action itself (R239, R246, R260, R261)
  deriving DecidableEq, Repr

/-- A running copy (type 0x02): the chunks not yet moved (offset, length) and those waiting on a peer. -/
structure CopyRun where
  engine : Nat
  src : Nat
  dst : Nat
  srcLoc : Nat
  dstLoc : Nat
  peer : Nat
  chunks : List (Nat × Nat)
  flight : Nat
  serial : Bool
  deriving DecidableEq, Repr

/-- Queues, tallies, descriptors, transactions and ports. -/
structure Links where
  queues : KMap Queue := []
  tallies : KMap Nat := []
  descs : KMap Desc := []
  nextDesc : Nat := 0
  readyN : Nat := 0                -- how many times waits have come to be satisfied (R72)
  lastFetch : Nat := 255           -- the queue that the queue engine took last (R358; log 151: DESIGN CHOICE)
  copies : KMap CopyRun := []
  txns : KMap Txn := []
  tagWaits : List TagWait := []    -- oldest first
  inWrs : List InWr := []
  ackWaits : List (Nat × Nat × Nat) := []   -- WRs whose bytes wait for their entry: member, tag, class (R347)
  ended : List TagWait := []       -- requests that found no route when their tag came (R349)
  ports : KMap Port := [(0, {}), (1, {}), (2, {}), (3, {}), (4, {}), (5, {})]
  link : Option HostLink := none   -- what the host brings to the PCIe link
  retries : Nat := 0               -- configuration requests answered with Request Retry Status (R431)
  bar4Bytes : Nat := 17179869184
  hostData : List Byte := []       -- what the last host read was completed with
  deriving DecidableEq, Repr

/-! ### Forward tiles (chapter 2), plane precision (chapter 3), converters and trackers (chapter 5) -/

/-- One block of weights as a tile holds it (R49): the scale word's E, its split offsets, signed magnitudes. -/
structure WBlk where
  e : Nat
  off : Nat
  q : List Int
  deriving DecidableEq, Repr

/-- A resident weight slot (R68): key and chunk, the 32 columns' blocks, when it was used, and whether it is stale. -/
structure WSlot where
  addr : Nat
  tag : Nat
  col : Nat
  pos : Nat
  cols : List (List WBlk)
  used : Nat
  stale : Bool
  bad : Bool := false       -- an injected uncorrectable error not yet met
  deriving DecidableEq, Repr

/-- A loaded activation table (Table 2.2). -/
structure ATable where
  xt : Int
  t : List Int
  deriving DecidableEq, Repr

/-- One block of one token in plane form (R28): E, whether it is a non-finite block, signs, magnitudes and the
remainders' first 16 bits. -/
structure ActBlk where
  e : Nat
  nf : Bool
  neg : List Bool
  mag : List Nat
  rho : List Nat
  deriving DecidableEq, Repr

/-- One lane group's results for a token (R53): each lane's runs (sum, exponent), and the lanes a non-finite block
reached. -/
structure SkewEnt where
  tok : Nat
  rnd : Nat
  runs : List (List (Int × Int))
  nf : List Bool
  deriving DecidableEq, Repr

/-- A token slice of an activation buffer (Table 2.1): the eight blocks of a lane group. -/
structure SliceEnt where
  tok : Nat
  rnd : Nat
  blks : List ActBlk
  deriving DecidableEq, Repr

/-- A lane group: the token and round it works on, the planes it has consumed, its block registers (per lane, per
block, in units of 2^-6), its activation buffer of at most 16 slices, oldest first, and its skew FIFO.
(log 136: DEDUCED) -/
structure LaneGrp where
  tok : Nat := 0
  rnd : Nat := 0
  shakes : Nat := 0
  regs : List (List Int) := []
  buf : List SliceEnt := []
  fifo : List SkewEnt := []
  deriving DecidableEq, Repr

/-- A wide accumulator value (R37); `nf` marks a column a non-finite block reached. -/
structure Wide where
  a : Int := 0
  x : Int := 0
  nf : Bool := false
  deriving DecidableEq, Repr

/-- Wide partials of a token in a chain FIFO. -/
structure ChainEnt where
  tok : Nat
  rnd : Nat
  vals : List Wide
  deriving DecidableEq, Repr

/-- A token's results in an output FIFO: the token, its first output column and the values. -/
structure OutEnt where
  tok : Nat
  col : Nat
  vals : List Num
  deriving DecidableEq, Repr

/-- A forward tile. -/
structure Tile where
  slots : KMap WSlot := []
  tables : KMap ATable := []
  lgs : KMap LaneGrp := []
  chain : List ChainEnt := []
  relTok : Nat := 0
  relRnd : Nat := 0
  busy : Option Nat := none      -- the descriptor it runs
  clock : Nat := 0               -- uses, for least-recently-used
  held : KMap Nat := []          -- slot that holds each round's chunk for the running descriptor
  looked : Nat := 0              -- rounds whose chunk has been looked up
  redo : List Nat := []          -- rounds whose chunk must be loaded again for a rerun (R80)
  outq : List OutEnt := []       -- the output FIFO, at most 8 tokens, oldest first (R60)
  sup : Nat := 0                 -- tokens of the present round that a rerun does not write again (R80)
  tabBad : List Nat := []        -- table slots that hold an injected uncorrectable error
  deriving DecidableEq, Repr

/-- What a descriptor latches of a tracked tensor at issue (R139, R142, R85). -/
structure Latch where
  layer : Nat
  kind : Nat
  role : Nat
  tracked : Bool     -- under delayed scaling (R138)
  ed : Nat
  wide : Bool
  step : Nat
  prof : Nat
  window : Nat
  policy : Nat
  limit : Nat
  satFar : Nat
  split : Nat
  deriving DecidableEq, Repr

/-- Where converted blocks go: element format or block format code, rounding and NFP, the scale tensor, the generator
key and role (R166), the producer tag (R162) and the first sequence number (R25, R184). -/
structure Target where
  fmt : Nat
  rmode : Nat
  nfp : Bool
  scale : Nat
  key : Nat
  role : Nat
  tag : Nat
  blocks : Nat
  seq : Nat := 0
  deriving DecidableEq, Repr

/-- An operand: data and scale addresses (logical), format code, rows, row length in elements; the expansion table of
R27 (none: scale and zero point). -/
structure Opnd where
  addr : Nat
  scale : Nat
  fmt : Nat
  rows : Nat
  cols : Nat
  table : Option (List Num) := none
  top : Option Nat := none         -- rows read, where not all are
  deriving DecidableEq, Repr

/-- One block of a span: where its data bytes go, its number in the scale tensor, the index of its first element, and
the values presented (padding left out). -/
structure SpanBlk where
  data : Nat
  blk : Nat
  elem : Nat
  vals : List Num
  deriving DecidableEq, Repr

/-- A span (R148) waiting for a converter or held by one. `die` is 0, 1, or 2 for a type 0x30 span, which either die
serves. An ACT span releases its blocks to the tiles; ACT and STASH spans read their source again, an operand with its
header, instead of holding values. A CACHE span names its item. -/
structure Span where
  d : Nat
  die : Nat
  lat : Latch
  tgt : Target
  blks : List SpanBlk
  act : Bool
  src : Option (Opnd × List Byte)
  conv : Option Nat
  item : Option Nat := none
  deriving DecidableEq, Repr

/-- A running forward product (types 0x20, 0x21). -/
structure FtRun where
  d : Nat
  tag : Nat
  chains : List (List Nat)
  planes : Nat
  tail : Nat
  key : Nat
  actLat : Latch
  outLat : Latch
  wide : Bool
  clipT : Nat
  crushT : Nat
  pMin : Nat
  pMax : Nat
  master : Nat            -- BF16 master address when weights load from it, else 0
  step : Nat
  addrs : List Nat := []       -- addresses as resolved at issue: activation, weight, output (each with its scale), stash
  acts : KMap ActBlk := []     -- by token * 2,048 + block
  hist : List Nat := [0, 0, 0, 0, 0, 0, 0, 0, 0, 0]
  zeros : Nat := 0
  outs : KMap (List Num) := []   -- values waiting for their OUT span: ((block column) * 2^20 + token) * 2 + half
  left : Nat                   -- tokens times column blocks not yet released by final tiles
  deriving DecidableEq, Repr

/-- What a tracker saw of a tensor in one step (R140, R147, R156). FP32 patterns for amax, least and sum of squares. -/
structure Obs where
  amax : Nat := 0
  least : Nat := 0
  sumsq : Nat := 0
  elems : Nat := 0
  nonzero : Nat := 0
  sat : Nat := 0
  zeroed : Nat := 0
  crushed : Nat := 0
  nonfin : Nat := 0
  vanished : Nat := 0
  pinned : Nat := 0
  split : Nat := 0
  saw : Bool := false
  far : Nat := 0
  replays : Nat := 0
  replayed : Nat := 0
  ed : Nat := 0
  wasEmpty : Bool := false
  deriving DecidableEq, Repr

/-- A closed step's observations of a tensor, and E_d for the a_ref its advance settled (R142, R156). -/
structure PastObs where
  step : Nat
  obs : Obs
  edNext : Nat
  deriving DecidableEq, Repr

/-- A tracker record (R137, R141): the amax history newest first, each entry with its step, a_ref, the element format of
the last descriptor that latched it (0 none), the present step's observations, those of the last two closed steps newest
first (descriptors latched there still add to them, R142), and whether an uncorrectable error has emptied the history
since the last advance (R170). -/
structure TrackRec where
  hist : List (Nat × Nat) := []
  aref : Nat := 0
  fmt : Nat := 0
  obs : Obs := {}
  past : List PastObs := []
  lost : Bool := false
  deriving DecidableEq, Repr

/-- A closed step whose watch records await writing (R155, R157): whether it was a wide step, and what it widened. -/
structure WatchSet where
  step : Nat
  wide : Bool
  widened : List Nat
  deriving DecidableEq, Repr

/-- The forward side. `pnow` and `lastHist` are keyed kind * 4,096 + layer; `track` is keyed
(kind - 1) * 24,576 + role * 4,096 + layer (R155). -/
structure Fwd where
  tiles : KMap Tile := []
  runs : List FtRun := []
  active : KMap Nat := []          -- running descriptor of each group
  pnow : KMap Nat := []
  lastHist : KMap (List Nat) := [] -- ten bins and the zero count
  seeds : List (Nat × List Nat) := []   -- seed directory, most recently used first; fingerprints newest first
  spans : List Span := []          -- waiting and held, oldest first
  track : KMap TrackRec := []
  initObjs : KMap Nat := []        -- profile maps and amax_init as the last step advance found them (R141)
  widened : List Nat := []         -- kind * 4,096 + layer, widened in this step
  wideStep : Bool := false
  prevActive : Nat := 0            -- kind-2 layers that saw values in the previous step
  prevStep : Option Nat := none    -- the step `prevActive` counts; none in the first step after BOOT or REJOIN (R153)
  noPrev : Bool := true            -- no step has been opened since BOOT or REJOIN
  watch : List WatchSet := []      -- oldest first
  deriving DecidableEq, Repr

/-! ### Attention engines and pages (chapter 6) -/

/-- A page pool (R187 to R189): the free ring is the pages from `fresh` to the pool's last, in order, then `back`,
oldest first; the allocated pages; and whether its state area was written while it was enabled. -/
structure Pool where
  fresh : Nat := 0
  back : List Nat := []
  alloc : List Nat := []
  broken : Bool := false
  deriving DecidableEq, Repr

/-- A page in quarantine, with the time of its free (R189). -/
structure QPage where
  pool : Nat
  page : Nat
  at_ : Nat
  deriving DecidableEq, Repr

/-- An item of a running type 0x40 descriptor: its number, its 64 bytes, and its addresses resolved at issue: list or
dense row base, query, query scale, output, new rows, statistics. -/
structure AItem where
  idx : Nat
  bytes : List Byte
  addrs : List Nat
  deriving DecidableEq, Repr

/-- A page of a walk: its block, its page number and where it lies; `locDense` marks 32 rows of a DENSE tensor. -/
structure PageAt where
  b : Nat
  page : Nat
  loc : Nat
  deriving DecidableEq, Repr

/-- An item an engine works on (R190, R193, R196, R198): its snapshot generation, the start of its walk, since when it
waits for a page and for which block, whether its new rows are with the converters, whether its entries are read, the
pages not yet delivered in position order, the bytes of remote pages it has (keyed block * 4 + part: 0 header, 1 scale
lines, 2 data) and those it still waits for. -/
structure ItemRun where
  d : Nat
  engine : Nat
  walker : Nat
  item : AItem
  gen : Nat
  walkAt : Option Nat := none
  pageWait : Option Nat := none
  sought : Option Nat := none
  writing : Bool := false
  walked : Bool := false
  restarts : Nat := 0
  pages : List PageAt := []
  got : KMap (List Byte) := []
  need : List Nat := []
  deriving DecidableEq, Repr

/-- 128 elements as four blocks: each its exponent and its elements without it (R178). -/
abbrev BareRow := List (Nat × List Num)

/-- A page's keys and values for an engine, by position; the page's format. -/
structure PageKV where
  fmt : Nat
  key : List BareRow
  val : List BareRow
  deriving DecidableEq, Repr

/-- A page slot of an engine (R174): the walker that delivered it, its block, its contents. -/
structure PageSlot where
  walker : Nat
  b : Nat
  kv : PageKV
  deriving DecidableEq, Repr

/-- Running state of a row: maximum, sum, output accumulator. -/
structure RowState where
  m : Num
  l : Num
  o : List Num
  deriving DecidableEq, Repr

/-- An attention engine (R174): the query rows of each walker's item (two slots), at most 8 page slots in the order of
delivery, the walker whose item it computes with the running state of its rows, and the walker that takes the next
item. -/
structure AEng where
  q : KMap (List BareRow) := []
  slots : List PageSlot := []
  run : Option Nat := none
  rows : List RowState := []
  next : Nat := 0
  deriving DecidableEq, Repr

/-- A running type 0x40 descriptor: items not started, items without a status, what it latched of the CACHE tensor, and
the K and V tensors (resolved) with their headers when DENSE. -/
structure AttnRun where
  d : Nat
  base : Nat
  waiting : List AItem
  left : Nat
  lat : Latch
  k : Opnd
  v : Opnd
  kHdr : List Byte
  vHdr : List Byte
  deriving DecidableEq, Repr

/-- The attention side. `quarantine` is oldest first. -/
structure Attn where
  pools : KMap Pool := []
  quarantine : List QPage := []
  runs : List AttnRun := []
  items : List ItemRun := []
  engs : KMap AEng := []
  deriving DecidableEq, Repr

/-! ### Rollout contexts (chapter 7) -/

/-- A context record (Table 7.1), with the bank its open decode step runs on. Numbers hold the fields' bits. -/
structure Ctx where
  state : Nat := 0
  endReason : Nat := 0
  pin : Bool := false
  forced : Bool := false
  changed : Bool := false
  cMax : Nat := 0
  pool : Nat := 0
  fmt : Nat := 0
  stopCount : Nat := 0
  list : Nat := 0
  prompt : Nat := 0
  promptLen : Nat := 0
  pos : Nat := 0
  limit : Nat := 0
  last : Nat := 0
  inUse : Nat := 0
  startVer : Nat := 0
  node : Nat := 0xFFFFFFFF
  shared : Nat := 0
  temp : Nat := 0
  topP : Nat := 0
  minP : Nat := 0
  topK : Nat := 0
  stops : List Nat := []
  seed : Nat := 0
  ledBase : Nat := 0
  ledCap : Nat := 0
  ledCount : Nat := 0
  parkBase : Nat := 0
  parked : Nat := 0
  steps : Nat := 0
  proposed : Nat := 0
  accepted : Nat := 0
  openTime : Nat := 0
  tag : List Byte := []
  bank : Nat := 0
  deriving DecidableEq, Repr

/-- A context op that waits on a STEPPING context (R211). -/
structure CtxWait where
  d : Nat
  ctx : Nat
  op : Nat
  deriving DecidableEq, Repr

/-- A RESUME that waits for pages (R230): the entries still to be given one (layer, block, park index) and the pages
taken so far (layer, block, page). -/
structure ResumeRun where
  d : Nat
  ctx : Nat
  todo : List (Nat × Nat × Nat)
  taken : List (Nat × Nat × Nat)
  deriving DecidableEq, Repr

/-- A sampled context whose ledger entries are not acknowledged yet (R214): its record and result follow. -/
structure SampleEnd where
  d : Nat
  ctx : Nat
  next : Ctx
  res : Nat
  emitted : Nat
  accepted : Nat
  deriving DecidableEq, Repr

/-- Context records that are not FREE, samples whose ledger entries wait, waiting ops, parks and resumes in progress
(descriptor, context), the cold list's ends, the valid entries and the cold ones, the prefix table's clearing, and the
hold of a bank request (R216). -/
structure Rollout where
  ctxs : KMap Ctx := []
  ends : List SampleEnd := []
  waits : List CtxWait := []
  parks : List (Nat × Nat) := []
  resumes : List ResumeRun := []
  coldHead : Nat := 0xFFFFFFFF
  coldTail : Nat := 0xFFFFFFFF
  valid : Nat := 0
  cold : Nat := 0
  clearing : Bool := false
  hold : Option (Nat × Nat × Bool) := none   -- the bank asked for, when the hold began, and whether it has forced
  deriving DecidableEq, Repr

/-! ### Backward arrays (chapter 4) -/

/-- Part of an operand in a mirror bank (R106): its slot in the operand list (16: formed by the array itself), its first
row and column, its values, and the scale words in their block direction (R107). -/
structure Panel where
  slot : Nat
  row : Nat
  col : Nat
  vals : List (List Num)
  words : List (List Nat)
  deriving DecidableEq, Repr

/-- A backward array: its mirror bank with the scale store, its gradient hold, and ACC0 to ACC3 (R102, R106, R107,
R113). -/
structure BArr where
  bank : List Panel := []
  hold : List (List Num) := []
  acc : List (List (List Num)) := []
  deriving DecidableEq, Repr

/-- The array groups, and what the arrays hold. -/
structure Bwd where
  active : KMap Nat := []          -- descriptor running in each group
  used : KMap (List Nat) := []     -- arrays of the descriptor that each group ran last
  arrs : KMap BArr := []
  deriving DecidableEq, Repr

/-! ### The training step (chapter 8) -/

/-- A microbatch of the head step (R245): FULL with its ring base, or BOUNDARY; closed or not. -/
structure Mb where
  full : Bool
  base : Nat
  closed : Bool
  deriving DecidableEq, Repr

/-- The pallet as the head step reserved it (R242, R245). -/
structure Pallet where
  n : Nat := 0
  b : Nat := 0
  i : Nat := 0
  r : Nat := 0
  force : Bool := false
  latched : Bool := false
  tail : Nat := 0
  mbs : KMap Mb := []
  deriving DecidableEq, Repr

/-- A norm slot (Table 8.4): FP32 patterns and a count. -/
structure Norm where
  gsq : Nat := 0
  gmax : Nat := 0
  wsq : Nat := 0
  dsq : Nat := 0
  dmax : Nat := 0
  wmax : Nat := 0
  elems : Nat := 0
  deriving DecidableEq, Repr

/-- An open step: its number, state (Table 8.1), what its open gave, the membership it latched and the commit set, its
norm slots, and the fields of its record (Table 8.6). The counters at its open (`at…`) give the record's differences. -/
structure StepSlot where
  step : Nat := 0
  st : Nat := 1
  base : Nat := 0
  tally : Nat := 0
  clip : Nat := 0
  n : Nat := 0
  force : Bool := false
  members : List Nat := []
  commitSet : List Nat := []
  norms : KMap Norm := []
  version : Nat := 0
  published : Bool := false
  torn : Bool := false
  dropped : Bool := false
  nonfinite : Bool := false
  kappa : Nat := 0x3F800000
  gsum : Nat := 0
  wide : Bool := false
  widened : Nat := 0
  full : Nat := 0
  firstB : Nat := 0xFFFF
  switched : Bool := false
  highWater : Nat := 0
  reclaimed : Nat := 0
  kept : Nat := 0
  tOpen : Nat := 0
  tFirstB : Nat := 0
  tLastClose : Nat := 0
  tCommit : Nat := 0
  tGrant : Nat := 0
  tPublish : Nat := 0
  tClose : Nat := 0
  hods : Nat := 0
  deadlines : Nat := 0
  late : Nat := 0
  escalated : Nat := 0
  farOff : Nat := 0
  replayed : Nat := 0
  saturated : Nat := 0
  applied : Nat := 0
  skipped : Nat := 0
  exports : Nat := 0
  forced : Nat := 0
  deriving DecidableEq, Repr

/-- A forward bank (Table 8.5): state code, version, whether it holds that version whole, export references, when it was
requested, and whether a step writes it. -/
structure Bank where
  state : Nat := 0
  version : Nat := 0
  holds : Bool := false
  exports : Nat := 0
  reqAt : Nat := 0
  byStep : Bool := false
  deriving DecidableEq, Repr

/-- A running export (type 0x74): bytes go in pieces of up to 4,096; pieces not yet sent, in flight, and the CRC of
the bytes sent so far. -/
structure ExportRun where
  bank : Nat
  src : Nat
  dst : Nat
  peer : Nat
  left : List (Nat × Nat)
  flight : Nat
  crc : Nat
  at_ : Nat
  deriving DecidableEq, Repr

/-- The step unit. `isOpen`: the head step is OPEN. `pal` and `ring` hold its pallet: the microbatches, and the ring
claims made so far (start, end), open or closed. -/
structure StepU where
  isOpen : Bool := false
  pal : Pallet := {}
  head : Option StepSlot := none
  tail : Option StepSlot := none
  everOpened : Bool := false        -- a step was opened since BOOT or REJOIN
  openedSinceBoot : Bool := false
  opens : List Nat := []            -- step opens that wait to take effect, oldest first
  claims : List (Nat × Nat) := []   -- ring claims of closed microbatches, whose bytes may be reclaimed
  banks : KMap Bank := [(0, {}), (1, {})]
  exports : KMap ExportRun := []
  last : List Byte := []            -- the record of the last step closed
  deriving DecidableEq, Repr

/-! ### Gradient exchange (chapter 9) -/

/-- An incoming ring partial of a block: members summed, scale word, whether it came in BF16, values. -/
structure RingIn where
  contribs : Nat
  word : Nat
  esc : Bool
  vals : List Num
  deriving DecidableEq, Repr

/-- The state of an accumulator slot (R279), whose sums and counts lie in P7: its hod and the slot's number; t_first;
who has ended. For a RING hod: the incoming partials that wait for this member's own block, the blocks done, those
that came escalated, the RING_END bitmap's members, and whether an escalation was logged. `closed`: the image is
formed and not yet written. (log 52: DEDUCED) -/
structure HodAcc where
  hod : Nat
  at_ : Nat := 0
  first : Nat := 0
  ended : List Nat := []
  excess : Bool := false
  ring : KMap RingIn := []
  done : List Nat := []
  escBlocks : Nat := 0
  ringEnd : Option (List Nat) := none
  escLogged : Bool := false
  closed : Bool := false
  deriving DecidableEq, Repr

/-- A message in a send buffer (R278): the mortar die, the member it goes to, the tag it was last sent under (none while
it waits to be sent), whether it waits to be sent again, and the descriptor that deposited it. -/
structure OutMsg where
  die : Nat
  tgt : Nat
  msg : XMsg
  tag : Option Nat := none
  again : Bool := false
  d : Option Nat := none
  deriving DecidableEq, Repr

/-- A class-0 exchange message (Table 9.5), and the request of R283; its bytes are not in the manual
(log 23: DESIGN CHOICE). -/
inductive XCmd where
  | vote (step member : Nat) (hodCrc memberCrc : Nat)
  | novote (step member held : Nat)
  | commit (step : Nat) (c listeners admitted : List Nat) (admitStep : Nat)
  | abandon (step : Nat) (silent : List Nat)
  | fp (step member summary torn : Nat)
  | close (step agreed : Nat) (excluded : List Nat) (split : Bool)
  | rejoinReq (member lastStep : Nat)
  | grant (stepR source rejoiner version : Nat)
  | done (member : Nat)
  | again (member hod : Nat)
  deriving DecidableEq, Repr

/-- Answers to a member that wait to leave in one XANS of a class (R347): until when, and each tag with its code. -/
structure AnsBatch where
  member : Nat
  cls : Nat
  due : Nat
  items : List (Nat × Nat)
  deriving DecidableEq, Repr

/-- A COMMIT. -/
structure Commit where
  step : Nat
  c : List Nat
  listeners : List Nat
  admitted : List Nat
  admitStep : Nat
  deriving DecidableEq, Repr

/-- A step that the leader has committed and not closed (R295): C, the listeners, the fingerprints received (summary,
torn hods), and the time of the first. -/
structure Closing where
  step : Nat
  c : List Nat
  listeners : List Nat
  fps : KMap (Nat × Nat) := []
  fpAt : Option Nat := none
  deriving DecidableEq, Repr

/-- The leader's vote window (R290), with C while its COMMIT waits for a rejoin (`ready`), and the steps whose close it
awaits, oldest first. -/
structure Leader where
  step : Nat := 0
  votes : List Nat := []
  novotes : List Nat := []
  windowAt : Option Nat := none
  decided : Bool := false
  ready : Option (List Nat) := none
  closing : List Closing := []
  deriving DecidableEq, Repr

/-- The exchange: accumulator slots; hods closed in the head step; blocks this member deposited in each hod; the hods
it sends no END for (R302); image bytes received by hod, as ranges, and failures; the send buffers; messages of class
0 sent (member, message), newest first, those that wait for a tag, and since when messages wait; voting; COMMITs
received and steps abandoned; the members an ABANDON of a step not yet opened names silent; membership for the next
open, members admitted from a step, the membership latched last (R275); listeners of the last COMMIT; the leader's
side; fingerprints; rejoin: requests held, the one granted (member, step s_r), the one done and not yet named; this
member's own request and GRANT (s_r, source, version), the leader that sent it, the ranges still to be read from the
source with the reads in flight, and whether the images are being read; a COMMIT that waits; the last step closed; the
last answer given (member, Table 11.6 code), and the answers that wait to be sent. -/
structure Xch where
  slots : List HodAcc := []
  closed : List Nat := []
  deposited : KMap Nat := []
  dropEnd : List Nat := []
  imgGot : KMap (List (Nat × Nat)) := []
  imgFails : KMap Nat := []
  out : List OutMsg := []
  sent : List (Nat × XCmd) := []
  waits0 : List (Nat × XCmd) := []
  tagAt : Option Nat := none
  voted : Bool := false
  seen : List Nat := []
  abandoned : List Nat := []
  silent : List (Nat × List Nat) := []
  next : List Nat := [0]
  admits : List (Nat × Nat) := []
  last : List Nat := []
  listened : List Nat := []
  lead : Leader := {}
  fpSent : Bool := false
  summary : Nat := 0
  agreed : Nat := 0
  reqs : List (Nat × Nat) := []
  granted : Option (Nat × Nat) := none
  back : Option (Nat × Nat) := none
  asked : Bool := false
  grant : Option (Nat × Nat × Nat) := none
  pulled : Nat := 0
  granter : Nat := 0
  pullLeft : List (Nat × Nat) := []
  pullFlight : Nat := 0
  pullImages : Bool := false
  heldCommit : Option Commit := none
  lastClosed : Nat := 0xFFFFFFFF
  answer : Option (Nat × Nat) := none
  answers : List AnsBatch := []
  deriving DecidableEq, Repr

/-! ### Power and pins (chapters 13, 16) -/

/-- The governor and the sensors: voltages in mV, powers in mW, temperatures in m°C, rates in M handshakes/s. -/
structure Power where
  volts : KMap Nat := [(0, 750), (1, 750), (2, 750), (3, 750), (4, 750), (5, 750)]
  targets : KMap Nat := [(0, 750), (1, 750), (2, 750), (3, 750), (4, 750), (5, 750)]
  idle : List Nat := []            -- domains dropped by R408
  idleSince : KMap Nat := []       -- when a domain's blocks last had a descriptor issued
  estimate : Nat := 0
  correction : Int := 0            -- mW added to the estimate since the last PMBus reading (R404)
  recent : List Nat := []          -- the estimates of the last ms, newest first
  cores : List Int := []           -- the core dies' last reports, by stack (R411)
  guard : Bool := false            -- the 5 % guard of R409
  thermal : Nat := 850             -- thermal voltage
  limited : Bool := false          -- held at 0.62 V by R413
  throttling : Bool := false
  wanted : List Nat := []          -- v_rate of each domain at the last governor cycle (R405)
  hotSince : Option Nat := none    -- a reading has been at or above 105 °C since
  realSince : Option Nat := none   -- the same of the readings without what injections add (R459)
  underFor : KMap Nat := []        -- by rail: consecutive 10 ns samples below the lower limit
  overFor : KMap Nat := []
  droopFor : KMap Nat := []
  forced : KMap Nat := []          -- by rail: samples still forced by an injection, twice, with 1 for over (R458)
  deriving DecidableEq, Repr

/-- The sideband pins and the module stage (R464, R467 to R470). (log 1: DESIGN CHOICE) -/
structure Pins where
  inputMv : Nat := 48000
  inputOk : Bool := true           -- the input has passed 39 V and not fallen below 38 V
  pwrEn : Bool := true
  modRstN : Bool := true
  perstN : Bool := false
  pwrGood : Bool := true
  thermTrip : Bool := false        -- THERM_TRIP_N asserted
  offTime : Bool := false          -- the stage's 100 ms off time runs
  goodAt : Nat := 0                -- when PWR_GOOD was released
  hold : Bool := false             -- reset held internally (R467)
  low : List Nat := []             -- rails out of range at their last sample (R464)
  jtag : Nat := 1                  -- the JTAG instruction in force: 0 IDCODE, 1 BYPASS, 2 boundary scan
  deriving DecidableEq, Repr

/-! ### Start-up and security (chapter 14) -/

/-- A write to both flash devices (R426), one after the other: the device that is written first, what it and the other
held, when the write starts, when the first copy stands and has been read back, when the second stands; and whether the
factory's set and boot control record stood before. -/
structure FlashWrite where
  off : Nat
  dev : Nat
  oldA : List Byte
  oldB : List Byte
  start : Nat
  first : Nat
  second : Nat
  cfg : Bool
  ctl : Bool
  deriving DecidableEq, Repr

/-- What the module is built with and keeps over power loss (log 5: DESIGN CHOICE): part (768 or 512), serial,
hardware revision, the digest of the vendor root key in the mask ROM, the 32 bytes the unclonable function yields
(empty: they fail the helper data's check), and the two flash devices (bytes by offset; unlisted bytes are erased,
0xFF). A bank, or the configuration set and boot control record, still `shipped` is as the factory wrote it and passes
its checks; the model does not list its bytes. Both devices hold every write at once; `writes` keeps what a reset or
power loss inside one brings back. -/
structure Module where
  part : Nat := 768
  serial : Nat := 0
  hwRev : Nat := 0
  rootDigest : List Byte := []
  pufSeed : List Byte := List.replicate 32 0
  flash0 : KMap Byte := []
  flash1 : KMap Byte := []
  shipped0 : Bool := true
  shipped1 : Bool := true
  shippedCfg : Bool := true   -- the factory's trims blob is in the set
  shippedCtl : Bool := true   -- the factory's boot control record stands
  writes : List FlashWrite := []   -- writes of two copies that may still run, oldest first
  deriving DecidableEq, Repr

/-- The security engine and the boot. -/
structure Sec where
  challenge : Option (List Byte) := none
  challengeAt : Nat := 0                -- when it was drawn (R439)
  level : Nat := 0
  locked : Bool := false
  nonce : Option (List Byte) := none    -- a quote is being signed over this nonce
  quote : List Byte := []
  identity : Bool := true               -- the device key was reconstructed
  bootFail : Nat := 0                   -- BOOT_STOP when verification failed (Table 14.8), else 0
  overrideBoot : Bool := false
  olderCopy : Bool := false
  bank : Nat := 0xFF
  digests : KMap (List Byte) := []      -- image digests by kind
  blobDigests : KMap (List Byte) := []  -- digests of the blobs in force by kind
  owner : List Byte := []               -- owner public key, empty when none
  configSeq : Nat := 0
  configKeys : List (List Byte) := []   -- keys in force by purpose
  debugKeys : List (List Byte) := []
  enrolKeys : List (List Byte) := []
  ownerConfigKeys : List (List Byte) := []
  ownerDebugKeys : List (List Byte) := []
  fwRecords : List (List Byte) := []    -- the firmware key records; a manifest names one by its digest
  updBuf : List Byte := []              -- the update region the tile store holds, being programmed
  updStage : Nat := 0                   -- Table 14.7: 0 none, 1 erased, 2 verified, 3 committed
  updBank : Nat := 0xFF                 -- the bank that was erased
  updRun : Option Nat := none           -- the command that runs
  updFinal : Nat := 0                   -- the status it ends with, unless the flash fails
  doe : List Byte := []                 -- the last SPDM answer
  spdmAlgs : Bool := false
  deriving DecidableEq, Repr

/-! ### Everything -/

/-- Everything but the device state and the waiting commands. `now` is the timebase in ns; `free` numbers the free
values used so far. (log 1: DESIGN CHOICE) (log 4: DESIGN CHOICE) -/
structure Core where
  now : Nat := 0
  free : Nat := 0
  step : Nat := 0xFFFFFFFF    -- the head step number; all ones before the first open
  incs : KMap Nat := []       -- increments of the counters a step record reports, by key (R264, R296)
  faultReq : Option (EventRec × Nat) := none   -- an event with outcome FAULT_STOP raised by the running command
  log : LogUnit := {}
  inj : KMap InjSlot := []
  dict : Dict := {}
  mem : MemSys := {}
  links : Links := {}
  fwd : Fwd := {}
  bwd : Bwd := {}
  attn : Attn := {}
  roll : Rollout := {}
  stp : StepU := {}
  xch : Xch := {}
  pow : Power := {}
  pins : Pins := {}
  module_ : Module := {}
  sec : Sec := {}
  deriving DecidableEq, Repr

/-- The state of the machine: the device state, everything else, and the commands that wait, first in first out. -/
structure State where
  dev : Dev
  core : Core
  pending : List Instr
  deriving DecidableEq, Repr

/-- Why the machine stops: the manual gives no command an end without a next state, so nothing is here. -/
inductive Fault where
  deriving DecidableEq, Repr

/-- Why a command is refused. (log 19: DESIGN CHOICE) -/
inductive Refusal where
  /-- The command has no meaning yet. Safe. -/
  | notModelled (mnemonic : String)
  /-- Raised by a JTAG instruction other than IDCODE, BYPASS and boundary scan while VENDOR unlock is open: the manual
  does not say what it does (R464). Safe. -/
  | vendorJtag
  deriving DecidableEq, Repr

/-- Right after MOD_RST_N is released with the rails up: BOOT, every object at its default, memory nothing listed.
(log 1: DESIGN CHOICE) -/
def State.reset : State := { dev := .boot, core := {}, pending := [] }

end Sys2Proof.Machine
end

