-- ==== Sys2Proof/Machine/EventTable.lean ====
section
/-! DEFINITION. The events of the chapters' event tables, with the lowest default class of each (R445, R472): 0 COUNT,
1 REJECT, 3 FAULT_STOP. -/

namespace Sys2Proof.Machine

/-- Events that only count by default (0x301A and 0x2040 have a higher default where they arise elsewhere, R472). -/
def eventsCount : List Nat :=
  [0x1001, 0x1002, 0x1003, 0x1010, 0x1011, 0x1020, 0x1021, 0x2004, 0x2005, 0x2020, 0x2022, 0x2023,
   0x2030, 0x2031, 0x2040, 0x3005, 0x3006, 0x3014, 0x3015, 0x3016, 0x3017, 0x3019, 0x301A, 0x4010,
   0x4020, 0x5006, 0x5007, 0x5010, 0x5806, 0x6010, 0x6011, 0x6012, 0x6013, 0x6014, 0x6015, 0x6016,
   0x6017, 0x6020, 0x6033, 0x6034, 0x6035, 0x6036, 0x6037, 0x6038, 0x6040, 0x7010, 0x7011, 0x7012,
   0x7014, 0x8020, 0x8021, 0x8022, 0x8023, 0x8024, 0x8025, 0x8030, 0x8032, 0x8036, 0x8040, 0x8042,
   0x8050, 0x8101, 0x8102, 0x8103, 0x8105, 0x8106, 0x8107, 0x8108, 0x8109, 0x9010, 0x9013, 0x9016,
   0x9020, 0x9030, 0x9031, 0xA001, 0xA003, 0xA006, 0xA007, 0xA012, 0xB011, 0xC001, 0xC002, 0xC003,
   0xC004, 0xC005, 0xC006, 0xC007, 0xC008, 0xC009, 0xC00A, 0xC010, 0xC011, 0xC012, 0xC020, 0xC021,
   0xC022, 0xC023, 0xC030]

/-- Events that reject their descriptor by default. -/
def eventsReject : List Nat :=
  [0x3001, 0x3002, 0x3003, 0x3004, 0x3010, 0x3011, 0x3012, 0x3013, 0x3018, 0x4001, 0x4002, 0x4003,
   0x4004, 0x4005, 0x4006, 0x4007, 0x4011, 0x4012, 0x4021, 0x5001, 0x5002, 0x5003, 0x5004, 0x5005,
   0x5011, 0x5012, 0x5801, 0x5802, 0x5803, 0x5805, 0x6001, 0x6002, 0x6003, 0x6004, 0x6021, 0x6030,
   0x6031, 0x6032, 0x7001, 0x7002, 0x7003, 0x7004, 0x7005, 0x7006, 0x7007, 0x7013, 0x7020, 0x8010,
   0x8011, 0x8012, 0x9001, 0x9002, 0x9003, 0x9011, 0xA004, 0xA005, 0xA010, 0xA011]

/-- Events that take the device to FAULT_STOP by default. -/
def eventsFaultStop : List Nat :=
  [0x2012, 0x2013, 0x2014, 0x2015, 0x2021, 0x2032, 0x8031, 0x8033, 0x8034, 0x8035, 0x8041, 0x9012,
   0x9014, 0x9015, 0x9021, 0xB001, 0xB002, 0xB003]

/-- The lowest default class of a listed event; none for a code no table lists. -/
def eventFloor (code : Nat) : Option Nat :=
  if code ∈ eventsCount then some 0 else if code ∈ eventsReject then some 1
  else if code ∈ eventsFaultStop then some 3 else none

end Sys2Proof.Machine
end

