-- ==== Sys2Proof/Machine/ObjTable.lean ====
section
/-! DEFINITION. The object dictionary's rows (R369, R397): every object of Tables 0.6, 1.9, 2.8, 3.9, 4.10, 5.7, 6.9,
7.12,
8.12, 9.11, 10.9, 11.13, 12.9, 13.7, 14.8 and 15.7, with its type code (Table 12.1), its access code (Table 12.2) and
its default. -/

namespace Sys2Proof.Machine

/-- One row of an object table: indices base to base + count - 1, subindices s0 to s1; `d0` is the default of the first
object of the row, `d` that of the others. A default the manual takes from flash or draws is 0 here
(log 1: DESIGN CHOICE). -/
structure ObjRow where
  base : Nat
  count : Nat
  s0 : Nat
  s1 : Nat
  ty : Nat
  acc : Nat
  d0 : Nat
  d : Nat
  deriving DecidableEq, Repr

/-- Rows of 0x1000 to 0x1FFF. -/
def objRows1 : List ObjRow := [
  ⟨0x1010, 1, 0, 0, 1, 1, 1, 1⟩, -- DEV_STATE
  ⟨0x1011, 1, 0, 0, 1, 3, 0, 0⟩, -- STATE_REQUEST
  ⟨0x1000, 1, 0, 0, 2, 1, 0x100, 0x100⟩, -- DICT_REVISION
  ⟨0x1001, 1, 0, 0, 8, 1, 0, 0⟩, -- PART_NUMBER
  ⟨0x1002, 1, 0, 0, 4, 1, 0, 0⟩, -- SERIAL
  ⟨0x1003, 1, 0, 0, 2, 1, 0, 0⟩, -- HW_REVISION
  ⟨0x1020, 1, 0, 0, 3, 2, 0, 0⟩, -- RING_ADDRESS
  ⟨0x1021, 1, 0, 0, 1, 1, 0xff, 0xff⟩, -- RING_POSITION
  ⟨0x1022, 1, 0, 0, 4, 2, 0, 0⟩, -- RING_GROUPS
  ⟨0x1023, 1, 0, 0, 2, 4, 0xffe, 0xffe⟩, -- PEER_DICT_READ
  ⟨0x1024, 1, 0, 0, 2, 4, 0, 0⟩, -- PEER_DICT_WRITE
  ⟨0x1030, 1, 1, 1, 7, 2, 0, 0⟩, -- TIME_REFERENCE
  ⟨0x1030, 1, 2, 2, 4, 1, 0, 0⟩, -- TIME_NOW
  ⟨0x1030, 1, 3, 3, 4, 3, 0, 0⟩, -- TIME_SET
  ⟨0x1030, 1, 4, 4, 7, 1, 0, 0⟩, -- TIME_SYNCED
  ⟨0x1030, 1, 5, 5, 5, 1, 0, 0⟩, -- TIME_OFFSET_NS
  ⟨0x1031, 1, 1, 1, 2, 1, 0xffff, 0xffff⟩, -- K0_DELAY_NS
  ⟨0x1031, 1, 2, 2, 2, 1, 0xffff, 0xffff⟩, -- K1_DELAY_NS
  ⟨0x1032, 1, 1, 1, 7, 1, 0, 0⟩, -- K0_LINK
  ⟨0x1032, 1, 2, 2, 7, 1, 0, 0⟩, -- K1_LINK
  ⟨0x1032, 1, 3, 3, 1, 1, 3, 3⟩, -- RING_LOOP
  ⟨0x1880, 1, 1, 1, 4, 5, 0, 0⟩, -- FRAMES_SERVICED
  ⟨0x1880, 1, 2, 2, 4, 5, 0, 0⟩, -- DATAGRAMS_SERVICED
  ⟨0x1880, 1, 3, 3, 4, 5, 0, 0⟩, -- FCS_BAD
  ⟨0x1880, 1, 4, 4, 4, 5, 0, 0⟩, -- FRAMES_PASSED
  ⟨0x1880, 1, 5, 5, 4, 5, 0, 0⟩, -- PATH_CHANGES
  ⟨0x1880, 1, 6, 6, 4, 5, 0, 0⟩, -- KEYSTONES_APPLIED
  ⟨0x1880, 1, 7, 7, 4, 5, 0, 0⟩, -- KEYSTONES_FAILED
  ⟨0x1880, 1, 8, 8, 4, 5, 0, 0⟩, -- STAGING_EXPIRED
  ⟨0x1880, 1, 9, 9, 4, 5, 0, 0⟩, -- ACK_UNPOSITIONED
  ⟨0x1880, 1, 10, 10, 4, 5, 0, 0⟩, -- STAGING_REFUSED
  ⟨0x1880, 1, 12, 12, 4, 5, 0, 0⟩, -- MAILBOX_OVERRUN
  ⟨0x1F00, 1, 0, 0, 1, 3, 0, 0⟩, -- KEYSTONE
  ⟨0x1F01, 1, 0, 0, 10, 1, 0, 0⟩, -- KEYSTONE_RESULT
  ⟨0x1F02, 1, 0, 0, 2, 1, 0, 0⟩, -- STAGED_COUNT
  ⟨0x1F03, 1, 0, 0, 2, 1, 0, 0⟩, -- STAGING_OWNER
  ⟨0x1F04, 1, 0, 0, 4, 2, 0x2540be400, 0x2540be400⟩] -- STAGING_HOLD_NS

/-- Rows of 0x2000 to 0x2FFF. -/
def objRows2 : List ObjRow := [
  ⟨0x2000, 1, 0, 0, 2, 1, 0x100, 0x100⟩, -- PWR_REVISION
  ⟨0x2001, 1, 0, 0, 3, 4, 0x834, 0x834⟩, -- POWER_CAP_W
  ⟨0x2010, 1, 0, 0, 6, 4, 0x3ff33333, 0x3ff33333⟩, -- RATE_TARGET
  ⟨0x2011, 1, 1, 1, 6, 4, 0x3f1eb852, 0x3f1eb852⟩, -- VCORE_MIN
  ⟨0x2011, 1, 2, 2, 6, 4, 0x3f59999a, 0x3f59999a⟩, -- VCORE_MAX
  ⟨0x2012, 1, 0, 0, 3, 4, 0x186a0, 0x186a0⟩, -- IDLE_DELAY_NS
  ⟨0x2020, 1, 1, 1, 6, 1, 0, 0⟩, -- INPUT_POWER_W
  ⟨0x2020, 1, 2, 2, 6, 1, 0, 0⟩, -- INPUT_VOLTAGE
  ⟨0x2020, 1, 3, 3, 6, 1, 0, 0⟩, -- INPUT_CURRENT
  ⟨0x2020, 1, 4, 4, 6, 1, 0, 0⟩, -- ONPACKAGE_POWER_W
  ⟨0x2021, 1, 1, 1, 6, 1, 0, 0⟩, -- STAGE_TEMP
  ⟨0x2021, 1, 2, 2, 2, 1, 0, 0⟩, -- STAGE_STATUS
  ⟨0x2100, 6, 1, 1, 6, 1, 0x3f400000, 0x3f400000⟩, -- DOM_VOLTAGE
  ⟨0x2100, 6, 2, 2, 6, 1, 0, 0⟩, -- DOM_RATE
  ⟨0x2100, 6, 3, 3, 6, 1, 0, 0⟩, -- DOM_POWER_W
  ⟨0x2100, 6, 4, 4, 1, 1, 0, 0⟩, -- DOM_LIMIT
  ⟨0x2200, 1, 1, 12, 6, 1, 0, 0⟩, -- DIE_TEMP_MAX
  ⟨0x2200, 1, 13, 13, 6, 1, 0, 0⟩, -- TJ_MAX
  ⟨0x2201, 1, 0, 0, 6, 4, 0x42be0000, 0x42be0000⟩, -- THROTTLE_TEMP
  ⟨0x2202, 1, 0, 0, 6, 1, 0x42d20000, 0x42d20000⟩, -- JUNCTION_LIMIT
  ⟨0x2300, 34, 1, 1, 7, 1, 0, 0⟩, -- CLK_LOCKED
  ⟨0x2300, 34, 2, 2, 2, 1, 0, 0⟩, -- CLK_FIFO_DEPTH
  ⟨0x2300, 34, 3, 3, 3, 5, 0, 0⟩, -- CLK_LOCK_LOSSES
  ⟨0x2880, 1, 1, 1, 4, 5, 0, 0⟩, -- GOV_CYCLES
  ⟨0x2880, 1, 2, 2, 4, 5, 0, 0⟩, -- CAP_BOUND_NS
  ⟨0x2880, 1, 3, 3, 4, 5, 0, 0⟩, -- THERMAL_BOUND_NS
  ⟨0x2880, 1, 4, 4, 4, 5, 0, 0⟩, -- RATE_SHORT_NS
  ⟨0x2880, 1, 5, 5, 4, 5, 0, 0⟩, -- CAP_EXCEEDED
  ⟨0x2880, 1, 6, 6, 4, 5, 0, 0⟩] -- DROOPS

/-- Rows of 0x3000 to 0x3FFF, part 1. -/
def objRows3a : List ObjRow := [
  ⟨0x3000, 1, 0, 0, 2, 1, 0x100, 0x100⟩, -- NUM_REVISION
  ⟨0x3008, 1, 1, 1, 4, 5, 0, 0⟩, -- NF_INPUTS
  ⟨0x3008, 1, 2, 2, 4, 5, 0, 0⟩, -- NF_SATURATED
  ⟨0x3008, 1, 3, 3, 4, 5, 0, 0⟩, -- NF_BLOCKS_WRITTEN
  ⟨0x3008, 1, 4, 4, 4, 5, 0, 0⟩, -- NF_BLOCKS_READ_ZERO
  ⟨0x3008, 1, 5, 5, 4, 5, 0, 0⟩, -- SCALE_RSVD_NONZERO
  ⟨0x3008, 1, 6, 6, 4, 5, 0, 0⟩, -- MASTER_SATURATED
  ⟨0x3200, 1, 0, 0, 6, 4, 0x39800000, 0x39800000⟩, -- PLANE_CLIP_TARGET
  ⟨0x3201, 1, 0, 0, 6, 4, 0x3c800000, 0x3c800000⟩, -- PLANE_CRUSH_TARGET
  ⟨0x3400, 16, 0, 255, 1, 4, 0x81, 0x81⟩, -- LAYER_PLANE_LIMITS
  ⟨0x3410, 16, 0, 255, 1, 1, 0x88, 0x88⟩, -- LAYER_PLANE_NOW
  ⟨0x3430, 1, 0, 0, 2, 2, 0, 0⟩, -- HIST_SELECT
  ⟨0x3431, 1, 1, 10, 3, 1, 0, 0⟩, -- HIST_BIN
  ⟨0x3431, 1, 11, 11, 3, 1, 0, 0⟩, -- HIST_ZEROS
  ⟨0x3480, 1, 1, 1, 4, 5, 0, 0⟩, -- PLANE_RAISES
  ⟨0x3480, 1, 2, 2, 4, 5, 0, 0⟩, -- PLANE_LOWERS
  ⟨0x3480, 1, 3, 3, 4, 5, 0, 0⟩, -- CLIP_OVER_TARGET
  ⟨0x3480, 1, 4, 4, 4, 5, 0, 0⟩, -- CRUSH_UNRESOLVED
  ⟨0x3480, 1, 5, 5, 4, 5, 0, 0⟩, -- LAYER_NO_STATE
  ⟨0x3100, 1, 0, 0, 3, 2, 0, 0⟩, -- TRACK_SELECT
  ⟨0x3101, 1, 1, 1, 1, 1, 0, 0⟩, -- TRK_ED
  ⟨0x3101, 1, 2, 2, 6, 1, 0, 0⟩, -- TRK_STEP_AMAX
  ⟨0x3101, 1, 3, 3, 6, 1, 0, 0⟩, -- TRK_HISTORY_MAX
  ⟨0x3101, 1, 4, 4, 2, 1, 0, 0⟩, -- TRK_REPLAYS
  ⟨0x3101, 1, 5, 5, 1, 1, 2, 2⟩, -- TRK_STATE
  ⟨0x3101, 1, 6, 6, 6, 1, 0, 0⟩, -- TRK_AMAX_REF
  ⟨0x3500, 16, 0, 255, 3, 4, 0, 0⟩, -- LAYER_PROFILES
  ⟨0x3520, 16, 0, 255, 4, 4, 0, 0⟩, -- LAYER_MASTER_ADDR
  ⟨0x3600, 16, 1, 1, 1, 4, 0x10, 0x10⟩, -- PROF_HISTORY
  ⟨0x3600, 16, 2, 2, 1, 4, 1, 1⟩, -- PROF_MARGIN
  ⟨0x3600, 16, 3, 3, 1, 4, 6, 6⟩, -- PROF_WINDOW
  ⟨0x3600, 16, 4, 4, 1, 4, 0, 0⟩, -- PROF_POLICY
  ⟨0x3600, 16, 5, 5, 2, 4, 0x10, 0x10⟩, -- PROF_REPLAY_LIMIT
  ⟨0x3600, 16, 6, 6, 6, 4, 0x3a800000, 0x3a800000⟩, -- PROF_SAT_FAR
  ⟨0x3600, 16, 7, 7, 1, 4, 1, 1⟩, -- PROF_SPLIT_THRESHOLD
  ⟨0x3600, 16, 8, 8, 6, 4, 0x3f800000, 0x3f800000⟩, -- PROF_AMAX_INIT
  ⟨0x3700, 1, 1, 1, 6, 4, 0x3e800000, 0x3e800000⟩, -- NET_BUDGET
  ⟨0x3700, 1, 2, 2, 2, 4, 0, 0⟩, -- NET_LAYERS
  ⟨0x3700, 1, 3, 3, 7, 1, 0, 0⟩, -- WIDE_STEP
  ⟨0x3700, 1, 4, 4, 2, 1, 0, 0⟩] -- LAYERS_WIDENED

/-- Rows of 0x3000 to 0x3FFF, part 2. -/
def objRows3b : List ObjRow := [
  ⟨0x3710, 1, 1, 1, 4, 4, 0, 0⟩, -- WATCH_BASE
  ⟨0x3710, 1, 2, 2, 1, 4, 4, 4⟩, -- WATCH_SLOTS
  ⟨0x3710, 1, 3, 3, 3, 1, 0xffffffff, 0xffffffff⟩, -- WATCH_STEP_DONE
  ⟨0x3A10, 1, 0, 0, 4, 4, 0, 0⟩, -- CONV_DEVICE_SEED
  ⟨0x3880, 1, 1, 1, 4, 5, 0, 0⟩, -- CONV_SATURATED
  ⟨0x3880, 1, 2, 2, 4, 5, 0, 0⟩, -- CONV_ZEROED
  ⟨0x3880, 1, 3, 3, 4, 5, 0, 0⟩, -- CONV_CRUSHED
  ⟨0x3880, 1, 4, 4, 4, 5, 0, 0⟩, -- CONV_VANISHED
  ⟨0x3880, 1, 5, 5, 4, 5, 0, 0⟩, -- CONV_PINNED
  ⟨0x3880, 1, 6, 6, 4, 5, 0, 0⟩, -- CONV_SPLIT
  ⟨0x3880, 1, 7, 7, 4, 5, 0, 0⟩, -- SPANS_FAR_OFF
  ⟨0x3880, 1, 8, 8, 4, 5, 0, 0⟩, -- SPANS_REPLAYED
  ⟨0x3880, 1, 9, 9, 4, 5, 0, 0⟩, -- REPLAY_LIMIT_HITS
  ⟨0x3880, 1, 10, 10, 4, 5, 0, 0⟩, -- LAYERS_WIDENED_TOTAL
  ⟨0x3880, 1, 11, 11, 4, 5, 0, 0⟩, -- WIDE_STEPS
  ⟨0x3880, 1, 12, 12, 4, 5, 0, 0⟩, -- SCALE_SKEW
  ⟨0x3880, 1, 13, 13, 4, 5, 0, 0⟩, -- HEADER_MISMATCH
  ⟨0x3880, 1, 14, 14, 4, 5, 0, 0⟩, -- SPAN_WAITS
  ⟨0x3880, 1, 15, 15, 4, 5, 0, 0⟩, -- CLAMP_HIGH
  ⟨0x3880, 1, 16, 16, 4, 5, 0, 0⟩, -- CLAMP_LOW
  ⟨0x3880, 1, 17, 17, 4, 5, 0, 0⟩, -- STASH_WIDENED_BLOCKS
  ⟨0x3880, 1, 18, 18, 4, 5, 0, 0⟩, -- WATCH_DROPPED
  ⟨0x3880, 1, 19, 19, 4, 5, 0, 0⟩, -- UNTRACKED_SPANS
  ⟨0x3880, 1, 20, 20, 4, 5, 0, 0⟩] -- TRACK_ECC_CORRECTED

/-- Rows of 0x3000 to 0x3FFF. -/
def objRows3 : List ObjRow := objRows3a ++ objRows3b

/-- Rows of 0x4000 to 0x4FFF. -/
def objRows4 : List ObjRow := [
  ⟨0x4000, 1, 0, 0, 2, 1, 0x100, 0x100⟩, -- FT_REVISION
  ⟨0x4002, 1, 1, 1, 4, 1, 0xffffffffffffffff, 0xffffffffffffffff⟩, -- FT_AVAIL_LO
  ⟨0x4002, 1, 2, 2, 4, 1, 0xffffffffffffffff, 0xffffffffffffffff⟩, -- FT_AVAIL_MID
  ⟨0x4002, 1, 3, 3, 4, 1, 0xffffffffffffffff, 0xffffffffffffffff⟩, -- FT_AVAIL_HI
  ⟨0x4003, 1, 0, 0, 1, 1, 4, 4⟩, -- FT_WEIGHT_SLOTS
  ⟨0x4004, 1, 0, 0, 1, 1, 0x10, 0x10⟩, -- FT_CHAIN_MAX
  ⟨0x4005, 1, 0, 0, 1, 1, 8, 8⟩, -- FT_SKEW_DEPTH
  ⟨0x4100, 16, 1, 1, 4, 4, 0xffffffffffffffff, 0⟩, -- GRP_MASK_LO
  ⟨0x4100, 16, 2, 2, 4, 4, 0xffffffffffffffff, 0⟩, -- GRP_MASK_MID
  ⟨0x4100, 16, 3, 3, 4, 4, 0xffffffffffffffff, 0⟩, -- GRP_MASK_HI
  ⟨0x4100, 16, 4, 4, 1, 4, 3, 0⟩, -- GRP_ROLE
  ⟨0x4100, 16, 5, 5, 3, 1, 0x80000000, 0x80000000⟩, -- GRP_ACTIVE_TAG
  ⟨0x4800, 1, 1, 1, 4, 5, 0, 0⟩, -- TOKENS_RELEASED
  ⟨0x4800, 1, 2, 2, 4, 5, 0, 0⟩, -- LG_BUSY
  ⟨0x4800, 1, 3, 3, 4, 5, 0, 0⟩, -- PLANES_SKIPPED
  ⟨0x4800, 1, 4, 4, 4, 5, 0, 0⟩, -- SKEW_STALLS
  ⟨0x4800, 1, 5, 5, 4, 5, 0, 0⟩, -- STARVE
  ⟨0x4800, 1, 6, 6, 4, 5, 0, 0⟩, -- BOND_EXTRA
  ⟨0x4800, 1, 7, 7, 4, 5, 0, 0⟩, -- RUN_OVERFLOW_SPLITS
  ⟨0x4800, 1, 8, 8, 4, 5, 0, 0⟩, -- WEIGHT_LOADS
  ⟨0x4800, 1, 9, 9, 4, 5, 0, 0⟩, -- WEIGHT_LOAD_LINES
  ⟨0x4800, 1, 10, 10, 4, 5, 0, 0⟩, -- WEIGHT_HITS
  ⟨0x4800, 1, 11, 11, 4, 5, 0, 0⟩, -- TABLE_LOW
  ⟨0x4800, 1, 12, 12, 4, 5, 0, 0⟩, -- TABLE_HIGH
  ⟨0x4800, 1, 13, 13, 4, 5, 0, 0⟩, -- RESCALE_SATURATED
  ⟨0x4800, 1, 14, 14, 4, 5, 0, 0⟩, -- ECC_CORRECTED
  ⟨0x4800, 1, 15, 15, 4, 5, 0, 0⟩, -- OUT_BACKPRESSURE
  ⟨0x4900, 1, 0, 191, 4, 5, 0, 0⟩, -- TILE_SKEW_STALLS
  ⟨0x4901, 1, 0, 191, 4, 5, 0, 0⟩, -- TILE_LG_BUSY
  ⟨0x4902, 1, 0, 191, 4, 5, 0, 0⟩, -- TILE_WEIGHT_LOADS
  ⟨0x4A10, 1, 0, 0, 4, 4, 0, 0⟩, -- JUG_DEVICE_SEED
  ⟨0x4A11, 1, 0, 0, 1, 4, 0, 0⟩, -- SEED_POLICY
  ⟨0x4A80, 1, 1, 1, 4, 5, 0, 0⟩, -- TAIL_PLANES_DRAWN
  ⟨0x4A80, 1, 2, 2, 4, 5, 0, 0⟩, -- TAIL_PLANES_SKIPPED
  ⟨0x4A80, 1, 3, 3, 4, 5, 0, 0⟩, -- SEED_REMIXED
  ⟨0x4A80, 1, 4, 4, 4, 5, 0, 0⟩, -- SEED_REJECTED
  ⟨0x4A80, 1, 5, 5, 4, 5, 0, 0⟩, -- SEED_DIR_EVICTIONS
  ⟨0x4A80, 1, 6, 6, 4, 5, 0, 0⟩] -- SEED_ENTRY_EVICTIONS

/-- Rows of 0x5000 to 0x5FFF. -/
def objRows5 : List ObjRow := [
  ⟨0x5800, 1, 0, 0, 2, 1, 0x100, 0x100⟩, -- PU_REVISION
  ⟨0x5801, 1, 0, 0, 1, 1, 0xff, 0xff⟩, -- PU_AVAIL
  ⟨0x5880, 1, 1, 1, 4, 5, 0, 0⟩, -- PU_DESCRIPTORS
  ⟨0x5880, 1, 2, 2, 4, 5, 0, 0⟩, -- PU_BUSY
  ⟨0x5880, 1, 3, 3, 4, 5, 0, 0⟩, -- PU_INDEX_RANGE
  ⟨0x5880, 1, 4, 4, 4, 5, 0, 0⟩, -- PU_ECC_CORRECTED
  ⟨0x5000, 1, 0, 0, 2, 1, 0x100, 0x100⟩, -- BA_REVISION
  ⟨0x5002, 1, 0, 0, 4, 1, 0xffffffffffffffff, 0xffffffffffffffff⟩, -- BA_AVAIL
  ⟨0x5003, 1, 0, 0, 3, 1, 0x200000, 0x200000⟩, -- BA_BANK_BYTES
  ⟨0x5004, 1, 0, 0, 1, 1, 0x10, 0x10⟩, -- BA_CHAIN_MAX
  ⟨0x5100, 4, 1, 1, 4, 4, 0xffffffffffffffff, 0⟩, -- BA_GRP_MASK
  ⟨0x5100, 4, 2, 2, 3, 1, 0x80000000, 0x80000000⟩, -- BA_GRP_ACTIVE_TAG
  ⟨0x5410, 1, 0, 0, 4, 4, 0, 0⟩, -- BA_DEVICE_SEED
  ⟨0x5080, 1, 1, 1, 4, 5, 0, 0⟩, -- BA_DESCRIPTORS
  ⟨0x5080, 1, 2, 2, 4, 5, 0, 0⟩, -- BA_BUSY
  ⟨0x5080, 1, 3, 3, 4, 5, 0, 0⟩, -- BA_IDLE_IN_GROUP
  ⟨0x5080, 1, 4, 4, 4, 5, 0, 0⟩, -- BA_RUN_FLUSHED
  ⟨0x5080, 1, 5, 5, 4, 5, 0, 0⟩, -- BA_ECC_CORRECTED
  ⟨0x5080, 1, 6, 6, 4, 5, 0, 0⟩, -- BA_HOLD_FLOOR
  ⟨0x5080, 1, 7, 7, 4, 5, 0, 0⟩, -- BA_DRAIN_FLOOR
  ⟨0x5080, 1, 8, 8, 4, 5, 0, 0⟩, -- BA_EXPANDED_BLOCKS
  ⟨0x5080, 1, 9, 9, 4, 5, 0, 0⟩, -- BA_DEPOSIT_BLOCKS
  ⟨0x5080, 1, 10, 10, 4, 5, 0, 0⟩, -- BA_DEPOSIT_ZERO
  ⟨0x5080, 1, 11, 11, 4, 5, 0, 0⟩, -- BA_STAGING_LINES
  ⟨0x5080, 1, 12, 12, 4, 5, 0, 0⟩, -- BA_CHAIN_WAITS
  ⟨0x5080, 1, 13, 13, 4, 5, 0, 0⟩, -- BA_ROW_DEFECTS
  ⟨0x5090, 1, 0, 63, 4, 5, 0, 0⟩] -- BA_ARRAY_BUSY

/-- Rows of 0x6000 to 0x6FFF, part 1. -/
def objRows6a : List ObjRow := [
  ⟨0x6000, 1, 0, 0, 2, 1, 0x100, 0x100⟩, -- AE_REVISION
  ⟨0x6001, 1, 0, 0, 2, 1, 0xffff, 0xffff⟩, -- AE_AVAIL
  ⟨0x6002, 1, 0, 0, 3, 1, 0xffffffff, 0xffffffff⟩, -- PW_AVAIL
  ⟨0x6003, 1, 0, 0, 1, 1, 8, 8⟩, -- AE_PAGE_SLOTS
  ⟨0x6004, 1, 0, 0, 1, 4, 4, 4⟩, -- LIST_RESTART_LIMIT
  ⟨0x6005, 1, 0, 0, 3, 4, 0xc350, 0xc350⟩, -- REMOTE_TIMEOUT_NS
  ⟨0x6006, 1, 0, 0, 3, 4, 0x30d40, 0x30d40⟩, -- PAGE_WAIT_NS
  ⟨0x6100, 4, 1, 1, 4, 4, 0, 0⟩, -- POOL_BASE
  ⟨0x6100, 4, 2, 2, 3, 4, 0, 0⟩, -- POOL_PAGE_BYTES
  ⟨0x6100, 4, 3, 3, 3, 4, 0, 0⟩, -- POOL_PAGES
  ⟨0x6100, 4, 4, 4, 4, 4, 0, 0⟩, -- POOL_SLOT_BASE
  ⟨0x6100, 4, 5, 5, 2, 4, 0, 0⟩, -- POOL_SLOT_BYTES
  ⟨0x6100, 4, 6, 6, 4, 4, 0, 0⟩, -- POOL_STATE_BASE
  ⟨0x6100, 4, 7, 7, 1, 4, 0, 0⟩, -- POOL_KV_HEADS
  ⟨0x6100, 4, 8, 8, 1, 4, 0x82, 0x82⟩, -- POOL_MAX_FORMAT
  ⟨0x6100, 4, 9, 9, 3, 1, 0, 0⟩, -- POOL_FREE
  ⟨0x6100, 4, 10, 10, 3, 1, 0, 0⟩, -- POOL_QUARANTINED
  ⟨0x6100, 4, 11, 11, 3, 3, 0, 0⟩, -- POOL_FREE_PAGE
  ⟨0x6110, 1, 0, 0, 3, 1, 0, 0⟩, -- QUARANTINE_USED
  ⟨0x6120, 1, 0, 0, 4, 1, 0xffffffffffffffff, 0xffffffffffffffff⟩, -- OLDEST_WALK_NS
  ⟨0x6880, 1, 1, 1, 4, 5, 0, 0⟩, -- AE_ITEMS
  ⟨0x6880, 1, 2, 2, 4, 5, 0, 0⟩, -- AE_BUSY
  ⟨0x6880, 1, 3, 3, 4, 5, 0, 0⟩, -- PAGES_LOCAL
  ⟨0x6880, 1, 4, 4, 4, 5, 0, 0⟩, -- PAGES_REMOTE
  ⟨0x6880, 1, 5, 5, 4, 5, 0, 0⟩, -- PAGES_SKIPPED
  ⟨0x6880, 1, 6, 6, 4, 5, 0, 0⟩, -- PAGES_WIDENED
  ⟨0x6880, 1, 7, 7, 4, 5, 0, 0⟩, -- QUERY_WIDENED
  ⟨0x6880, 1, 8, 8, 4, 5, 0, 0⟩, -- LIST_RESTARTS
  ⟨0x6880, 1, 9, 9, 4, 5, 0, 0⟩, -- PAGES_ALLOCATED
  ⟨0x6880, 1, 10, 10, 4, 5, 0, 0⟩, -- PAGES_FREED
  ⟨0x6880, 1, 11, 11, 4, 5, 0, 0⟩, -- PAGE_WAITS
  ⟨0x6880, 1, 12, 12, 4, 5, 0, 0⟩, -- ENGINE_STARVE
  ⟨0x6880, 1, 13, 13, 4, 5, 0, 0⟩, -- WALKER_BACKPRESSURE
  ⟨0x6880, 1, 14, 14, 4, 5, 0, 0⟩, -- PROB_FLUSHED
  ⟨0x6880, 1, 15, 15, 4, 5, 0, 0⟩, -- EMPTY_ROWS
  ⟨0x6880, 1, 16, 16, 4, 5, 0, 0⟩, -- ITEM_FAILS
  ⟨0x6880, 1, 17, 17, 4, 5, 0, 0⟩, -- FREE_INVALID
  ⟨0x6880, 1, 18, 18, 4, 5, 0, 0⟩, -- AE_ECC_CORRECTED
  ⟨0x6880, 1, 19, 19, 4, 5, 0, 0⟩, -- QUARANTINE_FULL
  ⟨0x6200, 1, 0, 0, 2, 1, 0x100, 0x100⟩] -- CTX_REVISION

/-- Rows of 0x6000 to 0x6FFF, part 2. -/
def objRows6b : List ObjRow := [
  ⟨0x6201, 1, 0, 0, 2, 2, 0, 0⟩, -- CTX_SELECT
  ⟨0x6202, 1, 0, 0, 9, 1, 0, 0⟩, -- CTX_RECORD
  ⟨0x6203, 1, 1, 7, 2, 1, 0x4000, 0⟩, -- CTX_IN_STATE
  ⟨0x6220, 1, 1, 1, 3, 1, 0, 0⟩, -- BANK0_READERS
  ⟨0x6220, 1, 2, 2, 3, 1, 0, 0⟩, -- BANK1_READERS
  ⟨0x6230, 1, 0, 0, 4, 4, 0x1bf08eb000, 0x1bf08eb000⟩, -- HOLD_LIMIT_NS
  ⟨0x6231, 1, 0, 0, 4, 1, 0, 0⟩, -- HOLD_ELAPSED_NS
  ⟨0x6300, 1, 1, 1, 7, 4, 0, 0⟩, -- PFX_ENABLE
  ⟨0x6300, 1, 2, 2, 4, 4, 0, 0⟩, -- PFX_ENTRIES_BASE
  ⟨0x6300, 1, 3, 3, 4, 4, 0, 0⟩, -- PFX_ROWS_BASE
  ⟨0x6300, 1, 4, 4, 2, 4, 0, 0⟩, -- PFX_LAYERS
  ⟨0x6300, 1, 5, 5, 4, 4, 0, 0⟩, -- PFX_SALT
  ⟨0x6301, 1, 0, 0, 3, 1, 0, 0⟩, -- PFX_VALID
  ⟨0x6302, 1, 0, 0, 3, 1, 0, 0⟩, -- PFX_COLD
  ⟨0x6400, 1, 0, 0, 1, 1, 0xff, 0xff⟩, -- TS_AVAIL
  ⟨0x6410, 1, 0, 0, 4, 4, 0, 0⟩, -- TS_DEVICE_SEED
  ⟨0x6890, 1, 1, 1, 4, 5, 0, 0⟩, -- CTX_OPENED
  ⟨0x6890, 1, 2, 2, 4, 5, 0, 0⟩, -- CTX_CLOSED
  ⟨0x6890, 1, 3, 3, 4, 5, 0, 0⟩, -- CTX_STEPS
  ⟨0x6890, 1, 4, 4, 4, 5, 0, 0⟩, -- TOKENS_EMITTED
  ⟨0x6890, 1, 5, 5, 4, 5, 0, 0⟩, -- DRAFTS_PROPOSED
  ⟨0x6890, 1, 6, 6, 4, 5, 0, 0⟩, -- DRAFTS_ACCEPTED
  ⟨0x6890, 1, 7, 7, 4, 5, 0, 0⟩, -- ENTRIES_INELIGIBLE
  ⟨0x6890, 1, 8, 8, 4, 5, 0, 0⟩, -- PFX_BLOCKS_MATCHED
  ⟨0x6890, 1, 9, 9, 4, 5, 0, 0⟩, -- PFX_BLOCKS_INSERTED
  ⟨0x6890, 1, 10, 10, 4, 5, 0, 0⟩, -- PFX_INSERT_EXISTS
  ⟨0x6890, 1, 11, 11, 4, 5, 0, 0⟩, -- PFX_SET_FULL
  ⟨0x6890, 1, 12, 12, 4, 5, 0, 0⟩, -- PFX_EVICT_INSERT
  ⟨0x6890, 1, 13, 13, 4, 5, 0, 0⟩, -- PFX_EVICT_PRESSURE
  ⟨0x6890, 1, 14, 14, 4, 5, 0, 0⟩, -- FORCED_FOLLOWS
  ⟨0x6890, 1, 15, 15, 4, 5, 0, 0⟩, -- LEDGER_FULL_ENDS
  ⟨0x6890, 1, 16, 16, 4, 5, 0, 0⟩, -- TS_NONFINITE
  ⟨0x6890, 1, 17, 17, 4, 5, 0, 0⟩, -- TS_NUMERIC_ENDS
  ⟨0x6890, 1, 18, 18, 4, 5, 0, 0⟩, -- TS_DRAFT_IMPOSSIBLE
  ⟨0x6890, 1, 19, 19, 4, 5, 0, 0⟩, -- CTX_ECC_CORRECTED
  ⟨0x6890, 1, 20, 20, 4, 5, 0, 0⟩, -- PAGES_PARKED
  ⟨0x6890, 1, 21, 21, 4, 5, 0, 0⟩, -- BROKEN_CLOSES
  ⟨0x6890, 1, 22, 22, 4, 5, 0, 0⟩] -- DRAIN_STEP_ABORTS

/-- Rows of 0x6000 to 0x6FFF. -/
def objRows6 : List ObjRow := objRows6a ++ objRows6b

/-- Rows of 0x7000 to 0x7FFF, part 1. -/
def objRows7a : List ObjRow := [
  ⟨0x7000, 1, 0, 0, 2, 1, 0x100, 0x100⟩, -- STEP_REVISION
  ⟨0x7010, 1, 1, 1, 3, 1, 0xffffffff, 0xffffffff⟩, -- HEAD_STEP
  ⟨0x7010, 1, 2, 2, 3, 1, 0xffffffff, 0xffffffff⟩, -- TAIL_STEP
  ⟨0x7011, 1, 1, 1, 1, 1, 0, 0⟩, -- HEAD_STATE
  ⟨0x7011, 1, 2, 2, 1, 1, 0, 0⟩, -- TAIL_STATE
  ⟨0x7012, 1, 0, 0, 6, 1, 0x3f800000, 0x3f800000⟩, -- CLIP_FACTOR
  ⟨0x7100, 1, 1, 1, 3, 4, 0x60000000, 0x60000000⟩, -- PALLET_TS_BYTES
  ⟨0x7100, 1, 2, 2, 4, 4, 0, 0⟩, -- PALLET_P6_BASE
  ⟨0x7100, 1, 3, 3, 4, 4, 0, 0⟩, -- PALLET_P6_BYTES
  ⟨0x7101, 1, 0, 0, 4, 1, 0, 0⟩, -- RING_FREE
  ⟨0x7102, 1, 0, 0, 4, 1, 0, 0⟩, -- PALLET_HIGH_WATER
  ⟨0x7104, 1, 1, 1, 2, 2, 0, 0⟩, -- MB_SELECT
  ⟨0x7104, 1, 2, 2, 1, 1, 0, 0⟩, -- MB_MODE
  ⟨0x7104, 1, 3, 3, 4, 1, 0, 0⟩, -- MB_RING_BASE
  ⟨0x7200, 2, 1, 1, 1, 1, 0, 0⟩, -- BANK_STATE
  ⟨0x7200, 2, 2, 2, 3, 1, 0, 0⟩, -- BANK_VERSION
  ⟨0x7200, 2, 3, 3, 4, 4, 0, 0⟩, -- BANK_BASE
  ⟨0x7200, 2, 4, 4, 4, 4, 0, 0⟩, -- BANK_BYTES
  ⟨0x7200, 2, 5, 5, 1, 1, 0, 0⟩, -- BANK_EXPORTS
  ⟨0x7210, 1, 0, 0, 1, 1, 0xff, 0xff⟩, -- NEWEST_BANK
  ⟨0x7300, 1, 0, 0, 9, 1, 0, 0⟩, -- RECORD_HEAD
  ⟨0x7301, 1, 0, 0, 9, 1, 0, 0⟩, -- RECORD_TAIL
  ⟨0x7302, 1, 0, 0, 9, 1, 0, 0⟩, -- RECORD_LAST
  ⟨0x7310, 1, 1, 1, 4, 4, 0, 0⟩, -- RECORD_BASE
  ⟨0x7310, 1, 2, 2, 2, 4, 0x40, 0x40⟩, -- RECORD_SLOTS
  ⟨0x7320, 1, 1, 1, 4, 4, 0, 0⟩, -- NORM_BASE
  ⟨0x7320, 1, 2, 2, 1, 4, 4, 4⟩, -- NORM_SLOTS
  ⟨0x7400, 1, 0, 0, 1, 1, 0xf, 0xf⟩, -- UU_AVAIL
  ⟨0x7401, 1, 0, 0, 3, 4, 0x3b9aca00, 0x3b9aca00⟩, -- EXPORT_TIMEOUT_NS
  ⟨0x7880, 1, 1, 1, 4, 5, 0, 0⟩, -- STEPS_OPENED
  ⟨0x7880, 1, 2, 2, 4, 5, 0, 0⟩, -- STEPS_CLOSED
  ⟨0x7880, 1, 3, 3, 4, 5, 0, 0⟩, -- MB_FULL
  ⟨0x7880, 1, 4, 4, 4, 5, 0, 0⟩, -- MB_BOUNDARY
  ⟨0x7880, 1, 5, 5, 4, 5, 0, 0⟩, -- STASH_SUPPRESSED
  ⟨0x7880, 1, 6, 6, 4, 5, 0, 0⟩, -- RC_SKIPPED
  ⟨0x7880, 1, 7, 7, 4, 5, 0, 0⟩, -- RC_RUN
  ⟨0x7880, 1, 8, 8, 4, 5, 0, 0⟩, -- UPDATE_DESCRIPTORS
  ⟨0x7880, 1, 9, 9, 4, 5, 0, 0⟩, -- UPDATE_ELEMENTS
  ⟨0x7880, 1, 10, 10, 4, 5, 0, 0⟩, -- UPDATE_NONFINITE
  ⟨0x7880, 1, 11, 11, 4, 5, 0, 0⟩] -- HODS_ALREADY_APPLIED

/-- Rows of 0x7000 to 0x7FFF, part 2. -/
def objRows7b : List ObjRow := [
  ⟨0x7880, 1, 12, 12, 4, 5, 0, 0⟩, -- CURTAINS
  ⟨0x7880, 1, 13, 13, 4, 5, 0, 0⟩, -- BANK_WAIT_NS
  ⟨0x7880, 1, 14, 14, 4, 5, 0, 0⟩, -- EXPORTS
  ⟨0x7880, 1, 15, 15, 4, 5, 0, 0⟩, -- EXPORT_FAILS
  ⟨0x7880, 1, 16, 16, 4, 5, 0, 0⟩, -- UU_ECC_CORRECTED
  ⟨0x7880, 1, 17, 17, 4, 5, 0, 0⟩] -- VARIANCE_FLUSHED

/-- Rows of 0x7000 to 0x7FFF. -/
def objRows7 : List ObjRow := objRows7a ++ objRows7b

/-- Rows of 0x8000 to 0x8FFF, part 1. -/
def objRows8a : List ObjRow := [
  ⟨0x8000, 1, 0, 0, 2, 1, 0x100, 0x100⟩, -- EX_REVISION
  ⟨0x8001, 1, 0, 0, 1, 4, 0, 0⟩, -- MEMBER_NUMBER
  ⟨0x8002, 1, 1, 4, 4, 4, 1, 0⟩, -- GROUP_MEMBERS
  ⟨0x8003, 1, 1, 4, 4, 1, 1, 0⟩, -- MEMBERS_NOW
  ⟨0x8004, 1, 0, 0, 1, 1, 0, 0⟩, -- LEADER_NOW
  ⟨0x8010, 1, 1, 1, 4, 4, 0, 0⟩, -- HOD_TABLE_BASE
  ⟨0x8010, 1, 2, 2, 2, 4, 0, 0⟩, -- HOD_COUNT
  ⟨0x8010, 1, 3, 3, 4, 1, 0, 0⟩, -- HOD_TABLE_CRC
  ⟨0x8011, 1, 1, 1, 4, 4, 0, 0⟩, -- ACC_BASE
  ⟨0x8011, 1, 2, 2, 4, 4, 0, 0⟩, -- ACC_SLOT_BYTES
  ⟨0x8011, 1, 3, 3, 2, 4, 0, 0⟩, -- ACC_SLOTS
  ⟨0x8012, 1, 1, 1, 4, 4, 0, 0⟩, -- IMAGE_BASE
  ⟨0x8012, 1, 2, 2, 4, 4, 0, 0⟩, -- IMAGE_BYTES
  ⟨0x8012, 1, 3, 3, 4, 4, 0, 0⟩, -- JOURNAL_BASE
  ⟨0x8012, 1, 4, 4, 4, 4, 0, 0⟩, -- RING_SCALE_BASE
  ⟨0x8020, 1, 1, 1, 4, 4, 0x2540be400, 0x2540be400⟩, -- DEADLINE_OPEN_NS
  ⟨0x8020, 1, 2, 2, 4, 4, 0xbebc200, 0xbebc200⟩, -- DEADLINE_FIRST_NS
  ⟨0x8020, 1, 3, 3, 3, 4, 0x5f5e100, 0x5f5e100⟩, -- VOTE_WAIT_NS
  ⟨0x8020, 1, 4, 4, 3, 4, 0x1dcd6500, 0x1dcd6500⟩, -- COMMIT_WAIT_NS
  ⟨0x8020, 1, 5, 5, 3, 4, 0xbebc200, 0xbebc200⟩, -- FP_WAIT_NS
  ⟨0x8020, 1, 6, 6, 3, 4, 0x2710, 0x2710⟩, -- RETRY_NS
  ⟨0x8020, 1, 7, 7, 4, 4, 0x77359400, 0x77359400⟩, -- REJOIN_HOLD_NS
  ⟨0x8020, 1, 8, 8, 3, 4, 0xf4240, 0xf4240⟩, -- RING_HOP_TIMEOUT_NS
  ⟨0x8021, 1, 0, 0, 1, 4, 1, 1⟩, -- RING_MARGIN
  ⟨0x8030, 1, 0, 0, 4, 4, 0, 0⟩, -- EX_DEVICE_SEED
  ⟨0x8040, 1, 1, 1, 2, 2, 0, 0⟩, -- FP_SELECT
  ⟨0x8040, 1, 2, 2, 4, 1, 0, 0⟩, -- FP_VALUE
  ⟨0x8040, 1, 3, 3, 4, 1, 0, 0⟩, -- FP_SUMMARY
  ⟨0x8040, 1, 4, 4, 4, 1, 0, 0⟩, -- FP_AGREED
  ⟨0x8050, 1, 0, 0, 1, 3, 0, 0⟩, -- REJOIN_REQUEST
  ⟨0x8050, 1, 1, 1, 1, 1, 0xff, 0xff⟩, -- REJOIN_SOURCE
  ⟨0x8050, 1, 2, 2, 4, 1, 0, 0⟩, -- REJOIN_BYTES
  ⟨0x8060, 1, 1, 1, 2, 1, 0, 0⟩, -- SLOTS_IN_USE
  ⟨0x8880, 1, 1, 1, 4, 5, 0, 0⟩, -- DEPOSIT_BLOCKS_SENT
  ⟨0x8880, 1, 2, 2, 4, 5, 0, 0⟩, -- BLOCKS_ACCUMULATED
  ⟨0x8880, 1, 3, 3, 4, 5, 0, 0⟩, -- HODS_CLOSED
  ⟨0x8880, 1, 4, 4, 4, 5, 0, 0⟩, -- HODS_CLOSED_DEADLINE
  ⟨0x8880, 1, 5, 5, 4, 5, 0, 0⟩, -- LATE_OLD_STEP
  ⟨0x8880, 1, 6, 6, 4, 5, 0, 0⟩, -- LATE_AFTER_CLOSE
  ⟨0x8880, 1, 7, 7, 4, 5, 0, 0⟩] -- RESENDS

/-- Rows of 0x8000 to 0x8FFF, part 2. -/
def objRows8b : List ObjRow := [
  ⟨0x8880, 1, 8, 8, 4, 5, 0, 0⟩, -- SEND_BUFFER_WAITS
  ⟨0x8880, 1, 9, 9, 4, 5, 0, 0⟩, -- SLOT_BUSY
  ⟨0x8880, 1, 10, 10, 4, 5, 0, 0⟩, -- IMAGE_HOLDOFF
  ⟨0x8880, 1, 11, 11, 4, 5, 0, 0⟩, -- RING_ESCALATED_BLOCKS
  ⟨0x8880, 1, 12, 12, 4, 5, 0, 0⟩, -- RING_HOPS_SKIPPED
  ⟨0x8880, 1, 13, 13, 4, 5, 0, 0⟩, -- IMAGES_HELD
  ⟨0x8880, 1, 14, 14, 4, 5, 0, 0⟩, -- IMAGE_RESENDS
  ⟨0x8880, 1, 15, 15, 4, 5, 0, 0⟩, -- STEPS_COMMITTED
  ⟨0x8880, 1, 16, 16, 4, 5, 0, 0⟩, -- STEPS_ABANDONED
  ⟨0x8880, 1, 17, 17, 4, 5, 0, 0⟩, -- MEMBERS_DROPPED
  ⟨0x8880, 1, 18, 18, 4, 5, 0, 0⟩, -- MEMBERS_EXCLUDED
  ⟨0x8880, 1, 19, 19, 4, 5, 0, 0⟩, -- OVER_CONTRIBUTIONS
  ⟨0x8880, 1, 20, 20, 4, 5, 0, 0⟩, -- ZERO_COUNT_BLOCKS
  ⟨0x8880, 1, 21, 21, 4, 5, 0, 0⟩, -- EX_ECC_CORRECTED
  ⟨0x8100, 6, 1, 1, 7, 4, 1, 1⟩, -- PORT_ENABLE
  ⟨0x8100, 6, 2, 2, 1, 1, 1, 1⟩, -- PORT_STATE
  ⟨0x8100, 6, 3, 3, 1, 1, 0xff, 0xff⟩, -- PORT_PEER
  ⟨0x8100, 6, 4, 4, 1, 1, 0, 0⟩, -- PORT_LANES
  ⟨0x8100, 6, 5, 5, 2, 1, 0, 0⟩, -- PORT_DELAY_NS
  ⟨0x8100, 6, 6, 6, 3, 4, 0x10408, 0x10408⟩, -- PORT_WEIGHTS
  ⟨0x8200, 1, 0, 255, 1, 4, 0x3f, 0x3f⟩, -- ROUTE
  ⟨0x8201, 1, 0, 0, 1, 4, 4, 4⟩, -- HOP_LIMIT
  ⟨0x8202, 1, 0, 0, 3, 4, 0x186a0, 0x186a0⟩, -- COMPLETION_TIMEOUT_NS
  ⟨0x8203, 1, 1, 1, 2, 4, 0xfffe, 0xfffe⟩, -- PEER_READ_MASK
  ⟨0x8203, 1, 2, 2, 2, 4, 0x400, 0x400⟩, -- PEER_WRITE_MASK
  ⟨0x8900, 6, 1, 1, 4, 5, 0, 0⟩, -- FLITS_TX
  ⟨0x8900, 6, 2, 2, 4, 5, 0, 0⟩, -- FLITS_RX
  ⟨0x8900, 6, 3, 3, 4, 5, 0, 0⟩, -- FEC_CORRECTED
  ⟨0x8900, 6, 4, 4, 4, 5, 0, 0⟩, -- FEC_UNCORRECTABLE
  ⟨0x8900, 6, 5, 5, 4, 5, 0, 0⟩, -- CRC_ERRORS
  ⟨0x8900, 6, 6, 6, 4, 5, 0, 0⟩, -- REPLAYS
  ⟨0x8900, 6, 7, 7, 4, 5, 0, 0⟩, -- RECOVERS
  ⟨0x8900, 6, 8, 8, 4, 5, 0, 0⟩, -- REPLAY_FULL_NS
  ⟨0x8900, 6, 9, 9, 4, 5, 0, 0⟩, -- C0_METER_WAIT_NS
  ⟨0x8900, 6, 10, 10, 4, 5, 0, 0⟩, -- C0_REPLAYS
  ⟨0x8900, 6, 11, 11, 4, 5, 0, 0⟩, -- LINK_DOWNS
  ⟨0x8980, 1, 1, 1, 4, 5, 0, 0⟩, -- NO_ROUTE
  ⟨0x8980, 1, 2, 2, 4, 5, 0, 0⟩, -- HOP_DROPS
  ⟨0x8980, 1, 3, 3, 4, 5, 0, 0⟩, -- PEER_REFUSED
  ⟨0x8980, 1, 4, 4, 4, 5, 0, 0⟩] -- COMPLETION_TIMEOUTS

/-- Rows of 0x8000 to 0x8FFF. -/
def objRows8 : List ObjRow := objRows8a ++ objRows8b

/-- Rows of 0x9000 to 0x9FFF, part 1. -/
def objRows9a : List ObjRow := [
  ⟨0x9000, 1, 0, 0, 2, 1, 0x100, 0x100⟩, -- MEM_REVISION
  ⟨0x9001, 1, 0, 0, 4, 1, 0xb2d05e0000, 0xb2d05e0000⟩, -- MEM_BYTES
  ⟨0x9002, 1, 0, 0, 1, 1, 0xff, 0xff⟩, -- MEM_STACKS_UP
  ⟨0x9003, 1, 0, 0, 3, 1, 0x19e0000, 0x19e0000⟩, -- MEM_GUARANTEE_MBPS
  ⟨0x9004, 1, 0, 0, 6, 1, 0x3f800000, 0x3f800000⟩, -- RATE_SCALE
  ⟨0x9100, 16, 1, 1, 4, 4, 0, 0⟩, -- PART_BASE
  ⟨0x9100, 16, 2, 2, 4, 4, 0x100000000, 0⟩, -- PART_BYTES
  ⟨0x9100, 16, 3, 3, 3, 4, 0x7a120, 0⟩, -- PART_RATE_MBPS
  ⟨0x9100, 16, 4, 4, 3, 4, 0x1000000, 0x1000000⟩, -- PART_BURST
  ⟨0x9100, 16, 5, 5, 1, 4, 0, 3⟩, -- PART_CLASS
  ⟨0x9100, 16, 6, 6, 7, 4, 1, 1⟩, -- PART_SPARE
  ⟨0x9100, 16, 7, 7, 2, 4, 0x100, 0x100⟩, -- PART_WCB_QUOTA
  ⟨0x9180, 16, 1, 1, 4, 5, 0, 0⟩, -- PART_SLOTS_READ
  ⟨0x9180, 16, 2, 2, 4, 5, 0, 0⟩, -- PART_SLOTS_WRITTEN
  ⟨0x9180, 16, 3, 3, 4, 5, 0, 0⟩, -- PART_WAIT_NS
  ⟨0x9180, 16, 4, 4, 4, 5, 0, 0⟩, -- PART_SPARE_SLOTS
  ⟨0x9200, 1, 1, 1, 3, 4, 0x15180, 0x15180⟩, -- SCRUB_PERIOD_S
  ⟨0x9200, 1, 2, 2, 2, 4, 0x10, 0x10⟩, -- ROW_CE_THRESHOLD
  ⟨0x9201, 1, 0, 0, 3, 4, 0x2710, 0x2710⟩, -- TS_SCRUB_PERIOD_MS
  ⟨0x9300, 1, 1, 1, 3, 4, 0x7d0, 0x7d0⟩, -- WCB_AGE_NS
  ⟨0x9800, 1, 1, 1, 4, 6, 0, 0⟩, -- REPAIR_TARGET
  ⟨0x9800, 1, 2, 2, 1, 6, 0, 0⟩, -- REPAIR_KIND
  ⟨0x9800, 1, 3, 3, 1, 6, 0, 0⟩, -- REPAIR_EXECUTE
  ⟨0x9800, 1, 4, 4, 1, 1, 0, 0⟩, -- REPAIR_STATUS
  ⟨0x9801, 1, 1, 8, 3, 1, 0, 0⟩, -- SPARE_ROWS_LEFT
  ⟨0x9802, 1, 0, 0, 1, 2, 0, 0⟩, -- CANDIDATE_STACK
  ⟨0x9803, 1, 0, 0, 9, 1, 0, 0⟩, -- REPAIR_CANDIDATES
  ⟨0x9810, 1, 0, 0, 9, 6, 0, 0⟩, -- REPAIR_MAP
  ⟨0x9880, 1, 1, 1, 4, 5, 0, 0⟩, -- HBM_CORRECTED
  ⟨0x9880, 1, 2, 2, 4, 5, 0, 0⟩, -- HBM_INDIE_CORRECTED
  ⟨0x9880, 1, 3, 3, 4, 5, 0, 0⟩, -- HBM_POISONED
  ⟨0x9880, 1, 4, 4, 4, 5, 0, 0⟩, -- POISON_READS
  ⟨0x9880, 1, 5, 5, 4, 5, 0, 0⟩, -- D2D_REPLAYS
  ⟨0x9880, 1, 6, 6, 4, 5, 0, 0⟩, -- TS_CORRECTED
  ⟨0x9880, 1, 7, 7, 4, 5, 0, 0⟩, -- TS_POISONED
  ⟨0x9880, 1, 8, 8, 4, 5, 0, 0⟩, -- WCB_READ_MERGES
  ⟨0x9880, 1, 9, 9, 4, 5, 0, 0⟩, -- WCB_QUOTA_WAITS
  ⟨0x9880, 1, 10, 10, 4, 5, 0, 0⟩, -- WCB_SECTOR_READS
  ⟨0x9880, 1, 11, 11, 4, 5, 0, 0⟩, -- WCB_ECC_CORRECTED
  ⟨0x9880, 1, 12, 12, 4, 5, 0, 0⟩] -- ACCUM_ADDS

/-- Rows of 0x9000 to 0x9FFF, part 2. -/
def objRows9b : List ObjRow := [
  ⟨0x9880, 1, 13, 13, 4, 5, 0, 0⟩] -- SCRUB_PASSES

/-- Rows of 0x9000 to 0x9FFF. -/
def objRows9 : List ObjRow := objRows9a ++ objRows9b

/-- Rows of 0xA000 to 0xAFFF. -/
def objRowsA : List ObjRow := [
  ⟨0xA000, 1, 0, 0, 2, 1, 0x100, 0x100⟩, -- HOST_REVISION
  ⟨0xA001, 1, 0, 0, 2, 1, 0, 0⟩, -- PCIE_LINK
  ⟨0xA002, 1, 1, 1, 2, 1, 0xc4e7, 0xc4e7⟩, -- VENDOR_ID
  ⟨0xA002, 1, 2, 2, 2, 1, 0x900, 0x900⟩, -- DEVICE_ID
  ⟨0xA003, 1, 0, 0, 1, 1, 0, 0⟩, -- VFS_ENABLED
  ⟨0xA010, 16, 1, 1, 4, 4, 0, 0⟩, -- WIN_BASE
  ⟨0xA010, 16, 2, 2, 1, 4, 0xff, 0xff⟩, -- WIN_MEMBER
  ⟨0xA020, 16, 1, 1, 2, 4, 0, 0⟩, -- FN_TALLY_FIRST
  ⟨0xA020, 16, 2, 2, 2, 4, 0x1000, 0⟩, -- FN_TALLY_COUNT
  ⟨0xA100, 256, 1, 1, 4, 4, 0, 0⟩, -- Q_BASE
  ⟨0xA100, 256, 2, 2, 3, 4, 0, 0⟩, -- Q_SLOTS
  ⟨0xA100, 256, 3, 3, 1, 4, 0, 0⟩, -- Q_CONTROL
  ⟨0xA100, 256, 4, 4, 1, 4, 0, 0⟩, -- Q_FUNCTION
  ⟨0xA100, 256, 5, 5, 1, 4, 0, 0⟩, -- Q_VECTOR
  ⟨0xA100, 256, 6, 6, 3, 1, 0, 0⟩, -- Q_HEAD
  ⟨0xA100, 256, 7, 7, 3, 1, 0, 0⟩, -- Q_TAIL
  ⟨0xA100, 256, 8, 8, 1, 1, 0, 0⟩, -- Q_STATE
  ⟨0xA100, 256, 9, 9, 1, 3, 0, 0⟩, -- Q_COMMAND
  ⟨0xA100, 256, 10, 10, 4, 1, 0, 0⟩, -- Q_LAST_EVENT
  ⟨0xA100, 256, 11, 11, 4, 5, 0, 0⟩, -- Q_REFUSED_DOORBELLS
  ⟨0xA100, 256, 12, 12, 4, 5, 0, 0⟩, -- Q_COMPLETED
  ⟨0xA200, 16, 0, 255, 3, 2, 0, 0⟩, -- TALLY
  ⟨0xA400, 1, 1, 1, 3, 1, 0x20000, 0x20000⟩, -- TAGS_FREE
  ⟨0xA880, 1, 1, 1, 4, 5, 0, 0⟩, -- DOORBELLS
  ⟨0xA880, 1, 2, 2, 4, 5, 0, 0⟩, -- DOORBELLS_REFUSED
  ⟨0xA880, 1, 3, 3, 4, 5, 0, 0⟩, -- DESCRIPTORS_FETCHED
  ⟨0xA880, 1, 4, 4, 4, 5, 0, 0⟩, -- DESCRIPTORS_REMOVED
  ⟨0xA880, 1, 5, 5, 4, 5, 0, 0⟩, -- PENDING_FULL_NS
  ⟨0xA880, 1, 6, 6, 4, 5, 0, 0⟩, -- TAG_WAIT_NS
  ⟨0xA880, 1, 7, 7, 4, 5, 0, 0⟩, -- TALLY_ADDS
  ⟨0xA880, 1, 8, 8, 4, 5, 0, 0⟩, -- HOST_ACCESS_ERRORS
  ⟨0xA880, 1, 9, 9, 4, 5, 0, 0⟩, -- PCIE_CORRECTED
  ⟨0xA880, 1, 10, 10, 4, 5, 0, 0⟩, -- COPY_BYTES
  ⟨0xA880, 1, 11, 11, 4, 5, 0, 0⟩] -- COPY_OVERLAPPED

/-- Rows of 0xB000 to 0xBFFF. -/
def objRowsB : List ObjRow := [
  ⟨0xB000, 1, 0, 0, 2, 1, 0x100, 0x100⟩, -- ERR_REVISION
  ⟨0xB020, 1, 1, 1, 1, 4, 0, 0⟩, -- EVENT_VECTOR
  ⟨0xB020, 1, 2, 2, 1, 4, 2, 2⟩, -- EVENT_IRQ_CLASS
  ⟨0xB030, 1, 0, 0, 10, 1, 0, 0⟩, -- FAULT_CAUSE
  ⟨0xB031, 1, 0, 0, 1, 3, 0, 0⟩, -- FAULT_CLEAR
  ⟨0xB031, 1, 1, 1, 7, 1, 0, 0⟩, -- FAULT_CLEARED
  ⟨0xB100, 1, 0, 0, 9, 1, 0, 0⟩, -- EVENT_LOG
  ⟨0xB101, 1, 1, 1, 4, 1, 0, 0⟩, -- EVENTS_WRITTEN
  ⟨0xB101, 1, 3, 3, 4, 5, 0, 0⟩, -- EVENTS_DROPPED
  ⟨0xB102, 1, 1, 1, 4, 2, 0, 0⟩, -- MIRROR_SELECT
  ⟨0xB102, 1, 2, 2, 10, 1, 0, 0⟩, -- MIRROR_RECORD
  ⟨0xB103, 1, 1, 1, 2, 2, 0, 0⟩, -- CODE_SELECT
  ⟨0xB103, 1, 2, 2, 4, 1, 0, 0⟩, -- CODE_COUNT
  ⟨0xB104, 1, 0, 3, 4, 5, 0, 0⟩, -- CLASS_COUNT
  ⟨0xB105, 1, 0, 15, 4, 5, 0, 0⟩, -- RANGE_COUNT
  ⟨0xB200, 64, 1, 1, 2, 4, 0, 0⟩, -- ESC_CODE
  ⟨0xB200, 64, 2, 2, 1, 4, 0, 0⟩, -- ESC_CLASS
  ⟨0xB300, 1, 1, 1, 4, 4, 0xf4240, 0xf4240⟩, -- STALL_LIMIT_NS
  ⟨0xB301, 1, 1, 1, 2, 2, 0, 0⟩, -- WATCH_SELECT
  ⟨0xB301, 1, 2, 2, 2, 1, 0, 0⟩, -- WATCH_SOURCE
  ⟨0xB310, 1, 1, 1, 4, 4, 0x5f5e100, 0x5f5e100⟩, -- KICK_PERIOD_NS
  ⟨0xB400, 8, 1, 1, 2, 2, 0, 0⟩, -- INJ_DETECTOR
  ⟨0xB400, 8, 2, 2, 1, 2, 0, 0⟩, -- INJ_MODE
  ⟨0xB400, 8, 3, 3, 2, 2, 0xffff, 0xffff⟩, -- INJ_TARGET
  ⟨0xB400, 8, 4, 4, 4, 2, 0, 0⟩, -- INJ_PATTERN
  ⟨0xB400, 8, 5, 5, 4, 2, 0, 0⟩, -- INJ_ADDRESS
  ⟨0xB400, 8, 6, 6, 4, 2, 0xf4240, 0xf4240⟩, -- INJ_PERIOD_NS
  ⟨0xB400, 8, 7, 7, 1, 3, 0, 0⟩, -- INJ_ARM
  ⟨0xB400, 8, 8, 8, 3, 1, 0, 0⟩, -- INJ_COUNT
  ⟨0xB400, 8, 9, 9, 1, 1, 0, 0⟩, -- INJ_STATE
  ⟨0xB410, 1, 1, 1, 4, 5, 0, 0⟩] -- INJECTIONS

/-- Rows of 0xC000 to 0xCFFF. -/
def objRowsC : List ObjRow := [
  ⟨0xC000, 1, 0, 0, 2, 1, 0x100, 0x100⟩, -- SEC_REVISION
  ⟨0xC001, 1, 0, 0, 1, 1, 0xff, 0xff⟩, -- BOOT_BANK
  ⟨0xC002, 1, 0, 0, 3, 1, 0, 0⟩, -- BOOT_STOP
  ⟨0xC003, 1, 1, 11, 3, 1, 0, 0⟩, -- BOOT_STEP_MS
  ⟨0xC010, 1, 0, 0, 1, 1, 0, 0⟩, -- PREFERRED_BANK
  ⟨0xC021, 4, 1, 1, 3, 1, 0, 0⟩, -- IMG_VERSION
  ⟨0xC021, 4, 2, 2, 3, 1, 0, 0⟩, -- IMG_SVN
  ⟨0xC021, 4, 3, 3, 9, 1, 0, 0⟩, -- IMG_DIGEST
  ⟨0xC030, 1, 1, 4, 3, 1, 0, 0⟩, -- SVN_MINIMUM
  ⟨0xC040, 1, 0, 0, 9, 1, 0, 0⟩, -- DEVID_KEY
  ⟨0xC041, 1, 0, 0, 9, 1, 0, 0⟩, -- CERT_CHAIN
  ⟨0xC042, 1, 0, 0, 9, 1, 0, 0⟩, -- OWNER_KEY_DIGEST
  ⟨0xC043, 1, 0, 0, 1, 1, 3, 3⟩, -- VENDOR_DEBUG_CEILING
  ⟨0xC100, 1, 1, 1, 1, 3, 0, 0⟩, -- CHALLENGE_REQUEST
  ⟨0xC100, 1, 2, 2, 9, 1, 0, 0⟩, -- CHALLENGE
  ⟨0xC100, 1, 3, 3, 9, 3, 0, 0⟩, -- RESPONSE
  ⟨0xC100, 1, 4, 4, 1, 1, 0, 0⟩, -- UNLOCK_LEVEL
  ⟨0xC100, 1, 5, 5, 1, 1, 0, 0⟩, -- UNLOCK_FAILURES
  ⟨0xC200, 1, 1, 1, 9, 3, 0, 0⟩, -- QUOTE_NONCE
  ⟨0xC200, 1, 2, 2, 10, 1, 0, 0⟩, -- QUOTE
  ⟨0xC300, 1, 1, 1, 1, 2, 0xff, 0xff⟩, -- UPD_BANK
  ⟨0xC300, 1, 2, 2, 1, 3, 0, 0⟩, -- UPD_COMMAND
  ⟨0xC300, 1, 3, 3, 1, 1, 0, 0⟩, -- UPD_STATUS
  ⟨0xC300, 1, 4, 4, 3, 1, 0, 0⟩, -- UPD_BYTES
  ⟨0xC310, 1, 0, 0, 9, 3, 0, 0⟩, -- UPD_MANIFESTS
  ⟨0xC311, 4, 0, 0, 9, 3, 0, 0⟩, -- UPD_IMAGE
  ⟨0xC400, 1, 0, 0, 3, 1, 0, 0⟩, -- CONFIG_SEQUENCE
  ⟨0xC401, 1, 0, 0, 9, 3, 0, 0⟩, -- CONFIG_BLOB_WRITE
  ⟨0xC410, 1, 0, 0, 9, 3, 0, 0⟩, -- ENROL_WRITE
  ⟨0xC420, 1, 0, 0, 9, 6, 0, 0⟩, -- OVERRIDE_WRITE
  ⟨0xC880, 1, 1, 1, 4, 5, 0, 0⟩, -- QUOTES
  ⟨0xC880, 1, 2, 2, 4, 5, 0, 0⟩, -- SPDM_REQUESTS
  ⟨0xC880, 1, 3, 3, 4, 5, 0, 0⟩] -- FLASH_BYTES

/-- Rows of 0xD000 to 0xDFFF. -/
def objRowsD : List ObjRow := [
  ⟨0xDE00, 15, 1, 4, 4, 2, 0, 0⟩] -- ALIAS_MASK

/-- The rows of a range digit. -/
def objRows (x : Nat) : List ObjRow :=
  match x with
  | 0x1 => objRows1
  | 0x2 => objRows2
  | 0x3 => objRows3
  | 0x4 => objRows4
  | 0x5 => objRows5
  | 0x6 => objRows6
  | 0x7 => objRows7
  | 0x8 => objRows8
  | 0x9 => objRows9
  | 0xA => objRowsA
  | 0xB => objRowsB
  | 0xC => objRowsC
  | 0xD => objRowsD
  | _ => []

/-- Does a row hold an object? -/
def ObjRow.has (r : ObjRow) (index sub : Nat) : Bool :=
  r.base ≤ index && index < r.base + r.count && r.s0 ≤ sub && sub ≤ r.s1

/-- The row of an object; none where the index:subindex names no object (R369). -/
def objRow? (index sub : Nat) : Option ObjRow := (objRows (index / 4096)).find? (·.has index sub)

/-- The default of an object (R369). -/
def ObjRow.default (r : ObjRow) (index sub : Nat) : Nat := if index = r.base ∧ sub = r.s0 then r.d0 else r.d

/-- Bytes of a scalar of a type (Table 12.1); 0 for STR, BLOB and REC. -/
def tyBytes : Nat → Nat
  | 1 => 1
  | 2 => 2
  | 3 => 4
  | 4 => 8
  | 5 => 4
  | 6 => 4
  | 7 => 1
  | _ => 0

end Sys2Proof.Machine
end

