-- ==== Sys2Proof/Machine/Ops.lean ====
section
/-! DEFINITION. The named operations: dictionary objects and counters, memory and its address map (chapter 10), the
write-combining buffer, free values, tallies. -/

namespace Sys2Proof.Machine

/-! ### Objects -/

/-- The key of an object. -/
def okey (index sub : Nat) : Nat := index * 256 + sub

/-- The default of an object; 0 where there is no object. (log 1: DESIGN CHOICE) -/
def objDefault (index sub : Nat) : Nat :=
  match objRow? index sub with
  | some r => r.default index sub
  | none => 0

/-- The largest value of an object's type. -/
def objMax (index sub : Nat) : Nat :=
  match objRow? index sub with
  | some r => 256 ^ tyBytes r.ty - 1
  | none => 0

/-- The applied value of an object (R369). -/
def Core.obj (c : Core) (index sub : Nat) : Nat :=
  (KMap.get? c.dict.objs (okey index sub)).getD (objDefault index sub)

/-- Give an object a value. -/
def Core.setObj (c : Core) (index sub v : Nat) : Core :=
  { c with dict := { c.dict with objs := KMap.set c.dict.objs (okey index sub) v } }

/-- The selectors whose views follow a write within 2 µs (R373). -/
def isSelector (index sub : Nat) : Bool :=
  [okey 0x3100 0, okey 0x3430 0, okey 0x6201 0, okey 0x7104 1, okey 0x8040 1, okey 0x9802 0].contains (okey index sub)

/-- The selection a view shows now: the previous one until a write has reached it (R373). -/
def Core.selected (c : Core) (index sub : Nat) : Nat :=
  match KMap.get? c.dict.sel (okey index sub) with
  | some (old, due) => if c.now < due then old else c.obj index sub
  | none => c.obj index sub

/-- Counters whose increments a step record reports (Table 8.6, R296). (log 54: DEDUCED) -/
def inRecord (k : Nat) : Bool :=
  [okey 0x3880 7, okey 0x3880 8, okey 0x3008 6, okey 0x8880 5, okey 0x8880 6].contains k

/-- Count n on a counter; counters saturate (R398 and its like). -/
def Core.bump (c : Core) (index sub n : Nat) : Core :=
  { c with
    incs := if n != 0 && inRecord (okey index sub) then
        KMap.set c.incs (okey index sub) (KMap.getD c.incs (okey index sub) 0 + n)
      else c.incs
    dict := if n = 0 then c.dict
      else { c.dict with
        objs := KMap.set c.dict.objs (okey index sub) (min (c.obj index sub + n) (objMax index sub)) } }

/-- A BOOL object. -/
def Core.flag (c : Core) (index sub : Nat) : Bool := c.obj index sub != 0

/-- A STR, BLOB or REC object's stored bytes. -/
def Core.blob (c : Core) (index sub : Nat) : List Byte := KMap.getD c.dict.blobs (okey index sub) []

/-- Store a BLOB. -/
def Core.setBlob (c : Core) (index sub : Nat) (b : List Byte) : Core :=
  { c with dict := { c.dict with blobs := KMap.set c.dict.blobs (okey index sub) b } }

/-- A mask object of several U64 subindices from s0, as one number: bit i is bit (i mod 64) of subindex s0 + i/64. -/
def Core.mask (c : Core) (index s0 : Nat) : Nat → Nat
  | 0 => 0
  | n + 1 => c.mask index s0 n + c.obj index (s0 + n) * 2 ^ (64 * n)

/-! ### Free values -/

/-- The next free value below n (a value the manual leaves open or the device draws), and the state that has used it
(log 4: DESIGN CHOICE). (log 95: DESIGN CHOICE) -/
def Core.draw (c : Core) (n : Nat) : Nat × Core :=
  (Config.freeNat c.free % n, { c with free := c.free + 1 })

/-- n free bytes. (log 4: DESIGN CHOICE) -/
def Core.drawBytes (c : Core) (n : Nat) : List Byte × Core :=
  ((List.range n).map fun i => BitVec.ofNat 8 (Config.freeNat (c.free + i)), { c with free := c.free + n })

/-! ### Memory as data -/

/-- The byte at an address; unlisted bytes are zero (R334, log 8). (log 8: DESIGN CHOICE) -/
def Mem.get (m : Mem) (a : Nat) : Byte :=
  match m.find? (fun p => p.1 == a) with
  | some p => p.2
  | none => 0

/-- The cells of bytes laid from an address on, zeros left out. -/
def cellsOf : Nat → List Byte → Mem
  | _, [] => []
  | a, b :: bs => if b = 0 then cellsOf (a + 1) bs else (a, b) :: cellsOf (a + 1) bs

/-- Write bytes from an address on. -/
def Mem.write (m : Mem) (a : Nat) (bs : List Byte) : Mem :=
  m.filter (fun p => p.1 < a) ++ cellsOf a bs ++ m.filter (fun p => a + bs.length ≤ p.1)

/-- The cells of m from a on, n bytes long. -/
def Mem.window (m : Mem) (a n : Nat) : Mem := m.filter fun p => a ≤ p.1 && p.1 < a + n

/-- The n bytes from an address on. -/
def Mem.read (m : Mem) (a n : Nat) : List Byte :=
  let w := Mem.window m a n
  (List.range n).map fun i => Mem.get w (a + i)

/-- The little-endian number of n bytes from an address on. -/
def Mem.num (m : Mem) (a n : Nat) : Nat := ofLE (Mem.read m a n)

/-- Addresses strictly rise and no listed byte is zero. -/
def Mem.wf : Mem → Bool
  | [] => true
  | [p] => p.2 != 0
  | p :: q :: m => p.2 != 0 && p.1 < q.1 && Mem.wf (q :: m)

/-- Bytes that the manual calls undefined: free values. (log 122: DEDUCED) -/
def Core.smear (c : Core) (a n : Nat) : Core :=
  let (bs, c) := c.drawBytes n
  { c with mem := { c.mem with mem := Mem.write c.mem.mem a bs } }

/-! ### The address map (Tables 10.2, 10.4, 10.8) -/

/-- Bytes of HBM (Table 10.2). -/
def Core.hbmBytes (c : Core) : Nat := if c.module_.part = 512 then 512000000000 else 768000000000

/-- Core dies per stack (Table 10.1). -/
def Core.coreDies (c : Core) : Nat := if c.module_.part = 512 then 12 else 16

def tsBase : Nat := 0x010000000000
def tsBytes : Nat := 0x80000000
def tsUser : Nat := tsBase + 0x06B00000
def tsPallet : Nat := tsBase + 0x20000000

/-- Base and size of a partition (R317, R318). -/
def Core.partBase (c : Core) (p : Nat) : Nat := if p = 0 then 0 else c.obj (0x9100 + p) 1
def Core.partSize (c : Core) (p : Nat) : Nat := if p = 0 then 4294967296 else c.obj (0x9100 + p) 2

/-- The partition an HBM address lies in. -/
def Core.partOf (c : Core) (a : Nat) : Option Nat :=
  (List.range 16).find? fun p => c.partBase p ≤ a && a < c.partBase p + c.partSize p

/-- Does [a, a + n) lie wholly in partition p? -/
def Core.inPart (c : Core) (p a n : Nat) : Bool :=
  c.partSize p != 0 && c.partBase p ≤ a && a + n ≤ c.partBase p + c.partSize p

/-- Does [a, a + n) lie wholly in the tile-store user region? -/
def inUser (a n : Nat) : Bool := tsUser ≤ a && a + n ≤ tsPallet

/-- What a plain access at an address meets (R318): 0 served, else the event 0x9001 or 0x9002; and the first address
after it that may meet something else. -/
def Core.plainAt (c : Core) (a : Nat) : Nat × Nat :=
  if a < tsBase then
    match c.partOf a with
    | none => (0x9001, tsBase)
    | some p =>
      if p = 0 then (0x9002, 4294967296)
      else if c.hbmBytes ≤ a then (0x9001, tsBase)
      else (0, min (c.partBase p + c.partSize p) c.hbmBytes)
  else if tsUser ≤ a ∧ a < tsPallet then (0, tsPallet)
  else if a < tsBase + tsBytes then (0x9002, if a < tsUser then tsUser else tsBase + tsBytes)
  else (0x9001, a + 2 ^ 64)

/-- The first event a plain access to [a, a + n) meets, with its address; none when the access is served. -/
def Core.plainWalk (c : Core) : Nat → Nat → Nat → Option (Nat × Nat)
  | 0, _, _ => none
  | f + 1, a, e =>
    if e ≤ a then none
    else
      match c.plainAt a with
      | (0, next) => c.plainWalk f next e
      | (ev, _) => some (ev, a)

/-- Does a plain access to [a, a + n) meet R318? -/
def Core.plainBad (c : Core) (a n : Nat) : Option (Nat × Nat) := c.plainWalk 32 a (a + n)

/-- Pseudo-channel of an HBM address, 0 to 511: [2:0] stack, [3] pseudo-channel, [8:4] channel (R308). -/
def pcOf (a : Nat) : Nat :=
  let g := a / 256
  fld g 8 0 ^^^ fld g 17 9 ^^^ fld g 26 18

/-- Stack of an HBM address. -/
def stackOf (a : Nat) : Nat := pcOf a % 8

/-- The instance of class 0x09 that holds an address: stack * 32 + channel. -/
def hbmInst (a : Nat) : Nat := stackOf a * 32 + pcOf a / 16

/-- The address unit that poison covers: a 64 B sector of HBM, a 64-bit word of the tile store. -/
def unitOf (a : Nat) : Nat := if a < tsBase then a / 64 * 64 else a / 8 * 8
def unitSize (u : Nat) : Nat := if u < tsBase then 64 else 8

/-- Does a range hold poison (R325, R333)? -/
def Core.poisoned (c : Core) (a n : Nat) : Bool :=
  c.mem.poison.any fun u => u < a + n && a < u + unitSize u

/-- Insert in a rising list without repeats. -/
def insertNat (x : Nat) : List Nat → List Nat
  | [] => [x]
  | y :: ys => if x < y then x :: y :: ys else if x = y then y :: ys else y :: insertNat x ys

/-- Poison the unit that holds an address. -/
def Core.poisonUnit (c : Core) (a : Nat) : Core :=
  { c with mem := { c.mem with poison := insertNat (unitOf a) c.mem.poison } }

/-! ### The write-combining buffer (R311 to R316) -/

/-- Is a mask of 64 bits partly set? -/
def partly (m : Nat) : Bool := m % 2 ^ 64 != 0 && m % 2 ^ 64 != 2 ^ 64 - 1

/-- The slot requests of one granule's write-back: one slot, and one read slot when a sector is only partly written
(R309). -/
def granuleReqs (e : WcbEntry) (t m : Nat) : List HbmReq :=
  if m % 2 ^ 256 = 0 then []
  else
    let w : HbmReq := { pc := e.pc, part := e.part, kind := 1, at_ := t, wb := e.wb }
    if partly m || partly (m >>> 64) || partly (m >>> 128) || partly (m >>> 192) then
      [{ w with kind := 2 }, w]
    else [w]

/-- Write an entry back: its requests join the pseudo-channel's queue, and it serves reads until they have been served
(R313, R318). -/
def Core.writeBack (c : Core) (e : WcbEntry) : Core :=
  let e := { e with wb := c.mem.wbN + 1 }
  { c with mem := { c.mem with
      wcb := c.mem.wcb.filter (fun x => !(x.pc == e.pc && x.j == e.j)),
      wbs := c.mem.wbs ++ [e], wbN := c.mem.wbN + 1,
      reqs := c.mem.reqs ++ granuleReqs e c.now e.mask ++ granuleReqs e c.now (e.mask >>> 256) } }

/-- Does a write-back still wait for its slots? -/
def MemSys.writing (m : MemSys) (wb : Nat) : Bool := m.reqs.any fun r => r.wb == wb && r.kind != 0

/-- Does a write still wait for its entry (R316): for the write-back to be issued, or, at quota 0, for a quota?
(log 133: DESIGN CHOICE) -/
def Core.entryWaiting (c : Core) (w : EntryWait) : Bool :=
  match w.on with
  | some n => c.mem.writing n
  | none => c.obj (0x9100 + w.part) 7 == 0

/-- The waits and the write-backs that are over leave. -/
def Core.settleEntries (c : Core) : Core :=
  { c with mem := { c.mem with
      wbs := c.mem.wbs.filter (fun e => c.mem.writing e.wb)
      entryWaits := c.mem.entryWaits.filter c.entryWaiting } }

/-- Write every entry back (R313, R334). -/
def Core.writeBackAll (c : Core) : Core := c.mem.wcb.foldl Core.writeBack c

/-- A write that waits for the entry of pseudo-channel pc and number j. -/
def Core.waitsOn (c : Core) (pc j : Nat) : Option EntryWait :=
  c.mem.entryWaits.find? fun w => c.entryWaiting w && pcOf (w.granule * 256) == pc && w.granule / 1024 == j

/-- The least recently used entry of a partition in a stack, among those that do not wait themselves. -/
def Core.lruEntry (c : Core) (stack part : Nat) : Option WcbEntry :=
  (c.mem.wcb.filter fun e => e.stack == stack && e.part == part && (c.waitsOn e.pc e.j).isNone).foldl
    (fun b e => match b with
      | none => some e
      | some x => if e.used < x.used then some e else some x) none

/-- Write back a partition's least recently used entries, n of them; the last one's write-back. -/
def Core.evict (stack part : Nat) : Nat → Core → Option Nat → Core × Option Nat
  | 0, c, l => (c, l)
  | n + 1, c, l =>
    match c.lruEntry stack part with
    | some e => Core.evict stack part n (c.writeBack e) (some (c.mem.wbN + 1))
    | none => (c, l)

/-- Entries a partition holds in a stack, those in write-back among them (R311); an entry that still waits for room
holds none yet. -/
def Core.heldEntries (c : Core) (stack part : Nat) : Nat :=
  let mine (e : WcbEntry) : Bool := e.stack == stack && e.part == part
  (c.mem.wcb.filter mine).length + (c.mem.wbs.filter fun e => mine e && c.mem.writing e.wb).length -
    (c.mem.entryWaits.filter fun w => w.takes && w.part == part && stackOf (w.granule * 256) == stack &&
      w.on.isSome && c.entryWaiting w).length

/-- The oldest write-back of a partition in a stack that no write waits for yet, else the newest. -/
def Core.oldestWb (c : Core) (stack part : Nat) : Nat :=
  let mine := c.mem.wbs.filter fun e => e.stack == stack && e.part == part && c.mem.writing e.wb
  match mine.find? fun e => !(c.mem.entryWaits.any fun w => w.on == some e.wb) with
  | some e => e.wb
  | none => match mine.getLast? with
    | some e => e.wb
    | none => 0

/-- A partition that holds its quota makes room for one more entry, and the request waits for the last write-back to be
issued (R316, 0x9880:09). (log 133: DESIGN CHOICE) -/
def Core.makeRoom (c : Core) (stack part g : Nat) : Core :=
  let held := c.heldEntries stack part
  let quota := c.obj (0x9100 + part) 7
  if quota ≤ held then
    let (c, l) := Core.evict stack part (held + 1 - quota) c none
    let on := if quota = 0 then none else some (l.getD (c.oldestWb stack part))
    ({ c with mem := { c.mem with
        entryWaits := c.mem.entryWaits ++ [({ granule := g, part := part, on := on } : EntryWait)] } } :
      Core).bump 0x9880 9 1
  else c

/-- A write into an entry that still waits for room waits with it. (log 133: DESIGN CHOICE) -/
def Core.joinWait (c : Core) (pc j g : Nat) : Core :=
  match c.waitsOn pc j with
  | some w =>
    ({ c with mem := { c.mem with
        entryWaits := c.mem.entryWaits ++ [{ w with granule := g, takes := false, who := .unit }] } } : Core).bump 0x9880 9 1
  | none => c

/-- Enter a write or accumulate of bytes [lo, hi) of the granule at address g * 256 into its entry. With a quota of 0 it
never gets one (log 133: DESIGN CHOICE). -/
def Core.enterGranule (c : Core) (sums : Bool) (g lo hi : Nat) : Core :=
  let a := g * 256
  let pc := pcOf a
  let off := g / 512
  let j := off / 2
  let m := ((2 ^ (hi - lo) - 1) <<< lo) <<< (256 * (off % 2))
  let part := (c.partOf a).getD 0
  let put (c : Core) (e : WcbEntry) : Core :=
    if e.mask = 2 ^ 512 - 1 then c.writeBack e
    else { c with mem := { c.mem with wcb := c.mem.wcb.filter (fun x => !(x.pc == pc && x.j == j)) ++ [e] } }
  match c.mem.wcb.find? (fun e => e.pc == pc && e.j == j) with
  | some e => put (c.joinWait pc j g) { e with mask := e.mask ||| m, sums := e.sums || sums, used := c.now }
  | none =>
    let c := c.makeRoom (pc % 8) part g
    if c.obj (0x9100 + part) 7 = 0 then c
    else put c { stack := pc % 8, pc := pc, j := j, part := part, mask := m, sums := sums, used := c.now }

/-- Enter a write of [a, a + n) into the buffer, granule by granule. -/
def Core.enterRange (c : Core) (sums : Bool) (a n : Nat) : Core :=
  if n = 0 ∨ tsBase ≤ a then c
  else
    let g0 := a / 256
    let g1 := (a + n - 1) / 256
    (List.range (g1 + 1 - g0)).foldl
      (fun c i =>
        let g := g0 + i
        c.enterGranule sums g (if i = 0 then a % 256 else 0) (if g = g1 then (a + n - 1) % 256 + 1 else 256)) c

/-- Is the store path at [a, a + n) held up: an earlier write of its partition in its stack waits for an entry (R316)?
(log 133: DESIGN CHOICE) -/
def Core.storeWaits (c : Core) (a n : Nat) : Bool :=
  !c.mem.entryWaits.isEmpty && decide (a < tsBase) &&
    (List.range ((a + n - 1) / 256 + 1 - a / 256)).any fun i =>
      let b := (a / 256 + i) * 256
      c.mem.entryWaits.any fun w => c.entryWaiting w && c.partOf b == some w.part && stackOf (w.granule * 256) == stackOf b

/-- Has every write made for someone entered the buffer (R312, R347, R361)? (log 133: DESIGN CHOICE) -/
def Core.acknowledged (c : Core) (who : Writer) : Bool :=
  !(c.mem.entryWaits.any fun w => w.who == who && c.entryWaiting w)

/-- The writes between two states were made for someone, who waits for their acknowledgement. -/
def Core.owe (c' : Core) (c : Core) (who : Writer) : Core :=
  let n := c.mem.entryWaits.length
  if c'.mem.entryWaits.length = n then c'
  else
    { c' with mem := { c'.mem with
        entryWaits := c'.mem.entryWaits.take n ++ (c'.mem.entryWaits.drop n).map fun w =>
          if w.who = .unit then { w with who := who } else w } }

/-- Whole units of [a, a + n) lose their poison (R325, R333). -/
def Core.clearPoison (c : Core) (a n : Nat) : Core :=
  { c with mem := { c.mem with poison := c.mem.poison.filter fun u => !(a ≤ u && u + unitSize u ≤ a + n) } }

/-- The state area of a pool (R187): its base and its bytes; empty where the pool is disabled. -/
def Core.poolArea (c : Core) (n : Nat) : Nat × Nat :=
  if c.obj (0x6100 + n) 1 = 0 then (0, 0)
  else (c.obj (0x6100 + n) 6, 4 * c.obj (0x6100 + n) 3 + ceilDiv (2 * c.obj (0x6100 + n) 3) 8)

/-- Does a range meet the state area of pool k? -/
def Core.meetsArea (c : Core) (k a n : Nat) : Bool :=
  (c.poolArea k).1 < a + n && a < (c.poolArea k).1 + (c.poolArea k).2

/-- A write into an enabled pool's state area breaks its allocation (R187). (log 6: DESIGN CHOICE) -/
def Core.breakPools (c : Core) (a n : Nat) : Core :=
  if (List.range 4).any fun k => c.meetsArea k a n then
    { c with attn := { c.attn with pools := c.attn.pools.map fun (p : Nat × Pool) =>
        (p.1, { p.2 with broken := p.2.broken || c.meetsArea p.1 a n }) } }
  else c

/-- Write bytes to device memory: the bytes are readable from now on (R312); whole units lose poison, flipped bits and
stored errors; the buffer takes them. -/
def Core.store (c : Core) (a : Nat) (bs : List Byte) : Core :=
  let n := bs.length
  let c := { c with mem := { c.mem with
      mem := Mem.write c.mem.mem a bs,
      injSyms := c.mem.injSyms.filter (fun p => !(a ≤ p.1 && p.1 + 64 ≤ a + n)),
      tsFlips := c.mem.tsFlips.filter (fun p => !(a ≤ p.1 && p.1 + 8 ≤ a + n)) } }
  ((c.breakPools a n).clearPoison a n).enterRange false a n

/-- Write bytes to a function's host memory. -/
def Core.hostStore (c : Core) (fn a : Nat) (bs : List Byte) : Core :=
  { c with mem := { c.mem with host := KMap.set c.mem.host fn (Mem.write (KMap.getD c.mem.host fn []) a bs) } }

/-- Bytes of a function's host memory. -/
def Core.hostRead (c : Core) (fn a n : Nat) : List Byte := Mem.read (KMap.getD c.mem.host fn []) a n

/-- Bytes of device memory. In a pool's state area what a reader finds is undefined (R187): free values
(log 6: DESIGN CHOICE). -/
def Core.bytes (c : Core) (a n : Nat) : List Byte :=
  if (List.range 4).any fun k => c.meetsArea k a n then
    ((Mem.read c.mem.mem a n).zipIdx).map fun (p : Byte × Nat) =>
      if (List.range 4).any fun k => c.meetsArea k (a + p.2) 1 then Config.poolByte c.now (a + p.2) else p.1
  else Mem.read c.mem.mem a n

/-- A little-endian number in device memory. -/
def Core.num (c : Core) (a n : Nat) : Nat := ofLE (c.bytes a n)

/-! ### Descriptor header (Table 11.10) -/

def Desc.inc (x : Desc) : Nat := numAt x.bytes 0 4
def Desc.waitVal (x : Desc) : Nat := numAt x.bytes 4 4
def Desc.word8 (x : Desc) : Nat := numAt x.bytes 8 8
def Desc.sigTally (x : Desc) : Nat := fld x.word8 11 0
def Desc.waitTally (x : Desc) : Nat := fld x.word8 23 12
def Desc.tag (x : Desc) : Nat := fld x.word8 47 24
def Desc.flags (x : Desc) : Nat := fld x.word8 55 48
def Desc.ty (x : Desc) : Nat := fld x.word8 63 56
def Desc.nfp (x : Desc) : Bool := bitAt x.flags 0
def Desc.rc (x : Desc) : Bool := bitAt x.flags 1
def Desc.nw (x : Desc) : Bool := bitAt x.flags 2
def Desc.ns (x : Desc) : Bool := bitAt x.flags 3
def Desc.fence (x : Desc) : Bool := bitAt x.flags 4
def Desc.irq (x : Desc) : Bool := bitAt x.flags 5
/-- A descriptor field of n bytes at offset o. -/
def Desc.f (x : Desc) (o n : Nat) : Nat := numAt x.bytes o n

/-! ### Tallies -/

/-- A tally (R360). -/
def Core.tally (c : Core) (t : Nat) : Nat := KMap.getD c.links.tallies t 0

/-- Does a tally stand at or past a wait value (R360)? -/
def Links.reached (l : Links) (t wait : Nat) : Bool :=
  (KMap.getD l.tallies t 0 + 2 ^ 32 - wait % 2 ^ 32) % 2 ^ 32 < 2 ^ 31

/-- `Links.reached` of the state. -/
def Core.reached (c : Core) (t wait : Nat) : Bool := c.links.reached t wait

/-- Has a waiting descriptor's wait been satisfied for the first time (R360)? -/
def Links.newlyReady (l : Links) (x : Desc) : Bool :=
  !x.issued && x.readyAt.isNone && (x.nw || l.reached x.waitTally x.waitVal)

/-- Number the descriptors whose waits have come to be satisfied, in the order of that (R72, R96, R128): those of one
change share their number. (log 124: DEDUCED) -/
def Links.markReady (l : Links) : Links :=
  if l.descs.any fun p => l.newlyReady p.2 then
    { l with readyN := l.readyN + 1
             descs := l.descs.map fun p => (p.1, if l.newlyReady p.2 then { p.2 with readyAt := some l.readyN } else p.2) }
  else l

/-- Number the descriptors whose waits the last change satisfied. -/
def Core.markReady (c : Core) : Core := { c with links := c.links.markReady }

/-- Set a tally; the waits it satisfies take their place in the order. -/
def Core.setTally (c : Core) (t v : Nat) : Core :=
  ({ c with links := { c.links with tallies := KMap.set c.links.tallies t (v % 2 ^ 32) } }).markReady

/-- Add to a tally modulo 2^32; increments are counted (R360, 0xA880:07). -/
def Core.addTally (c : Core) (t v : Nat) : Core := (c.setTally t (c.tally t + v)).bump 0xA880 7 1

/-- The first tally of a function's range, and their count (R355). -/
def Core.tallyFirst (c : Core) (fn : Nat) : Nat := c.obj (0xA020 + fn) 1
def Core.tallyCount (c : Core) (fn : Nat) : Nat := c.obj (0xA020 + fn) 2

/-- Is a tally in a function's range? -/
def Core.ownsTally (c : Core) (fn t : Nat) : Bool :=
  c.tallyFirst fn ≤ t && t < c.tallyFirst fn + c.tallyCount fn

end Sys2Proof.Machine
end

