-- ==== Sys2Proof/Machine/Flags.lean ====
section
/-! DEFINITION. Events, flags and interrupts: the event record (chapter 15), containment, descriptor rejection and
completion, queue states (R363), MSI-X. -/

namespace Sys2Proof.Machine

/-- A fetched descriptor. -/
def Core.desc? (c : Core) (d : Nat) : Option Desc := KMap.get? c.links.descs d

/-- Replace a descriptor. -/
def Core.setDesc (c : Core) (d : Nat) (x : Desc) : Core :=
  { c with links := { c.links with descs := KMap.set c.links.descs d x } }

/-- Change a descriptor that is there. -/
def Core.modDesc (c : Core) (d : Nat) (f : Desc → Desc) : Core :=
  match c.desc? d with
  | some x => c.setDesc d (f x)
  | none => c

/-- Is the descriptor still there (not completed, rejected or removed)? -/
def Core.live (c : Core) (d : Nat) : Bool := (c.desc? d).isSome

/-- A queue. -/
def Core.queue (c : Core) (q : Nat) : Queue := KMap.getD c.links.queues q {}

/-- Replace a queue. -/
def Core.setQueue (c : Core) (q : Nat) (x : Queue) : Core :=
  { c with links := { c.links with queues := KMap.set c.links.queues q x } }

/-- The function that owns a queue (R355). -/
def Core.queueFn (c : Core) (q : Nat) : Nat := c.obj (0xA100 + q) 4

/-! ### Event records -/

/-- What a detector hands to the event unit; `own` is the occurrence's own default class (R472). -/
structure Ev where
  code : Nat
  own : Nat := 0
  source : Nat := 0
  fmt : Nat := 0
  detail : Nat := 0
  d : Option Nat := none
  inj : Bool := false
  deriving DecidableEq, Repr

/-- A source field (Table 15.3). -/
def srcOf (cls inst : Nat) : Nat := cls * 1024 + inst % 1024

/-- The bytes of a record (Table 15.1). -/
def EventRec.bytes (e : EventRec) : List Byte :=
  toLE 8 e.time ++ toLE 2 e.code ++ toLE 2 e.source ++ toLE 4 e.step ++ toLE 12 e.detail ++
    toLE 4 (e.tag % 2 ^ 24 +
      2 ^ 24 * (e.fmt * 16 + (if e.inj then 8 else 0) + (if e.esc then 4 else 0) + e.cls % 4))

/-- The mortar die a record enters the event unit from (R447): the die beneath the block that detected it. -/
def srcDie (source : Nat) : Nat :=
  let i := source % 1024
  let below (n : Nat) : Nat := if i < n then 0 else 1
  match source / 1024 with
  | 0x01 => below 96
  | 0x02 => below 32
  | 0x03 => below 8
  | 0x04 => below 4
  | 0x05 => below 8
  | 0x06 => below 4
  | 0x07 => below 16
  | 0x08 => below 2
  | 0x09 => below 128
  | 0x0A => below 1
  | 0x0B => below 3
  | 0x0F => below 1
  | 0x12 =>
    if [6, 7, 8, 9, 13, 14, 15, 21, 23, 25, 33].any (fun k => i == 0x200 + k) ||
      (32 ≤ i && i < 64) || (80 ≤ i && i < 96) || (112 ≤ i && i < 128) || (192 ≤ i && i < 256) then 1 else 0
  | 0x11 => if i = 2 ∨ i = 3 ∨ i = 5 ∨ i = 7 ∨ i = 9 ∨ 14 ≤ i then 1 else 0
  | 0x17 => below 4
  | _ => 0

/-- The class the escalation entries give a code (R452). -/
def Core.escClass (c : Core) (code : Nat) : Nat :=
  match c.dict.objs.find? (fun p => 0xB20001 ≤ p.1 && p.1 ≤ 0xB23F01 && p.1 % 256 == 1 && p.2 == code) with
  | some p => c.obj (p.1 / 256) 2
  | none => 0

/-- Count an event by code, class and range digit (R449). -/
def Core.countEvent (c : Core) (e : EventRec) : Core :=
  let c := { c with log := { c.log with codes := KMap.set c.log.codes e.code (min (KMap.getD c.log.codes e.code 0 + 1) (2 ^ 64 - 1)) } }
  (c.bump 0xB104 e.cls 1).bump 0xB105 (e.code / 4096) 1

/-- A record enters the FIFO of a die, or is dropped and counted when the FIFO is full (R447). -/
def Core.enqueueAt (c : Core) (die : Nat) (e : EventRec) : Core :=
  let q := KMap.getD c.log.fifo die []
  if q.length < 512 then { c with log := { c.log with fifo := KMap.set c.log.fifo die (q ++ [e]) } }
  else
    let c := { c with log := { c.log with dropped := KMap.set c.log.dropped die (KMap.getD c.log.dropped die 0 + 1) } }
    (c.countEvent e).bump 0xB101 3 1

/-- The class applied to an occurrence: the higher of its own default and its escalation entry (R472). -/
def Core.evClass (c : Core) (v : Ev) : Nat := max v.own (c.escClass v.code)

/-- The record of an occurrence. -/
def Core.evRecord (c : Core) (v : Ev) : EventRec :=
  { time := c.now, code := v.code, source := v.source, step := c.step, fmt := v.fmt, inj := v.inj,
    esc := v.own < c.evClass v, cls := c.evClass v, detail := v.detail,
    tag := match v.d.bind c.desc? with
      | some x => x.tag
      | none => 0 }

/-- Log an occurrence through a die's FIFO, and ask for FAULT_STOP where that is its class (R451); the first such event
of a command is the cause. -/
def Core.noteAt (c : Core) (die : Nat) (v : Ev) : Core :=
  let r := c.evRecord v
  let c' := c.enqueueAt die r
  if r.cls = 3 ∧ c'.faultReq.isNone then { c' with faultReq := some (r, v.own) } else c'

/-- Log an occurrence through the FIFO of the die beneath its source (R447). -/
def Core.note (c : Core) (v : Ev) : Core := c.noteAt (srcDie v.source) v

/-! ### Interrupts -/

/-- Is a vector of a function enabled: has the host not left it masked (R450)? (log 18: DESIGN CHOICE) -/
def Core.vectorOn (c : Core) (fn v : Nat) : Bool :=
  match c.links.link with
  | some h => !h.masked.contains (fn, v)
  | none => true

/-- Raise MSI-X vector v of a function (R355, R450). -/
def Core.msix (c : Core) (fn v : Nat) : Core :=
  if c.vectorOn fn v then { c with log := { c.log with msix := (fn, v) :: c.log.msix } } else c

/-- IRQ: the queue's vector (R361). -/
def Core.descIrq (c : Core) (x : Desc) : Core :=
  if x.irq then c.msix (c.queueFn x.queue) (c.obj (0xA100 + x.queue) 5) else c

/-! ### Queue states (Table 11.11) -/

/-- A queue's wait on a full pending set ends; 0xA880:05 counts it (R358). -/
def Core.endFullWait (c : Core) (q : Nat) : Core :=
  let x := c.queue q
  match x.waitAt with
  | some t => (c.setQueue q { x with waitAt := none }).bump 0xA880 5 (c.now - t)
  | none => c

/-- A queue enters STOPPED or ABORTING: the event is logged and kept with the head count (R475). -/
def Core.enterQueueState (c : Core) (q st code : Nat) : Core :=
  let c := c.endFullWait q
  let x := c.queue q
  (c.setQueue q { x with state := st, fetched := [], lastEvent := code * 2 ^ 48 + x.head }).note
    { code := code, source := srcOf 0x0E q }

/-- A queue is stopped (R363). -/
def Core.stopQueue (c : Core) (q : Nat) : Core :=
  if (c.queue q).state = 1 then c.enterQueueState q 2 0xA006 else c

/-! ### Descriptors leave -/

/-- What an engine holds of the items of some walkers goes. -/
def AEng.without (g : AEng) (gone : Nat → Bool) : AEng :=
  { g with
    q := g.q.filter (fun p => !gone p.1), slots := g.slots.filter (fun s => !gone s.walker)
    run := g.run.filter (fun w => !gone w), rows := if g.run.any gone then [] else g.rows }

/-- What the units hold of a descriptor goes: its run, its spans, its copy, its items, its waits. -/
def Core.forgetUnits (c : Core) (d : Nat) : Core :=
  { c with
    links := { c.links with copies := KMap.erase c.links.copies d }
    bwd := { c.bwd with active := c.bwd.active.filter (fun p => p.2 != d) }
    attn := { c.attn with
      runs := c.attn.runs.filter (fun r => r.d != d), items := c.attn.items.filter (fun i => i.d != d)
      engs := c.attn.engs.map fun (p : Nat × AEng) =>
        (p.1, p.2.without fun w => c.attn.items.any fun i => i.d == d && i.engine == p.1 && i.walker == w) }
    roll := { c.roll with
      waits := c.roll.waits.filter (fun w => w.d != d), parks := c.roll.parks.filter (fun p => p.1 != d)
      ends := c.roll.ends.filter (fun e => e.d != d) }
    stp := { c.stp with opens := c.stp.opens.filter (· != d) }
    fwd := { c.fwd with
      runs := c.fwd.runs.filter (fun r => r.d != d),
      active := c.fwd.active.filter (fun p => p.2 != d),
      spans := c.fwd.spans.filter (fun s => s.d != d),
      tiles := c.fwd.tiles.map fun p =>
        (p.1, if p.2.busy = some d then { p.2 with busy := none, lgs := [], chain := [], outq := [] } else p.2) } }

/-- Output that a rejected descriptor has written stays in memory and is undefined (R80, R161, R205): free bytes.
(log 122: DEDUCED) -/
def Core.undefine (c : Core) (d : Nat) : Core :=
  match c.desc? d with
  | none => c
  | some x => x.wrote.foldl (fun c (r : Nat × Nat) => c.smear r.1 r.2) c

/-- A descriptor leaves without its signal. -/
def Core.dropDesc (c : Core) (d : Nat) : Core :=
  match c.desc? d with
  | none => c
  | some x =>
    let c := c.forgetUnits d
    ({ c with links := { c.links with descs := KMap.erase c.links.descs d } }).descIrq x

/-- The queue a descriptor was fetched from stops (STOP_QUEUE). -/
def Core.stopDescQueue (c : Core) (d : Nat) : Core :=
  match c.desc? d with
  | some x => c.stopQueue x.queue
  | none => c

/-- Raise an event (R451): log it; at class REJECT its descriptor is rejected; at STOP_QUEUE the default's effect
happens first, then its queue stops. (log 120: DEDUCED) (log 121: DEDUCED) -/
def Core.raise (c : Core) (v : Ev) : Core :=
  let cls := c.evClass v
  let c := c.note v
  match v.d with
  | none => c
  | some d =>
    let c := if cls = 2 then c.stopDescQueue d else c
    if v.own = 1 ∨ cls = 1 then (c.undefine d).dropDesc d else c

/-- Raise an event once for each descriptor. -/
def Core.raiseOnce (c : Core) (d : Nat) (v : Ev) : Core :=
  match c.desc? d with
  | none => c
  | some x =>
    if v.code ∈ x.marks then c
    else (c.setDesc d { x with marks := v.code :: x.marks }).raise { v with d := some d }

/-- Raise an event once in each step. -/
def Core.raiseOnceStep (c : Core) (v : Ev) (key : Nat := 0) : Core :=
  let k := v.code + 65536 * key
  if k ∈ c.log.onceStep then c
  else ({ c with log := { c.log with onceStep := k :: c.log.onceStep } }).raise v

/-- Raise an event once in each RUN entry (R403, R405, R412). -/
def Core.raiseOnceRun (c : Core) (v : Ev) (key : Nat := 0) : Core :=
  let k := v.code + 65536 * key
  if k ∈ c.log.onceRun then c
  else ({ c with log := { c.log with onceRun := k :: c.log.onceRun } }).raise v

/-- Detail format 1 (Table 15.4). -/
def detail1 (x : Desc) (off val : Nat) : Nat :=
  val % 2 ^ 32 + 2 ^ 32 * (off % 65536) + 2 ^ 48 * x.ty + 2 ^ 56 * (x.head % 2 ^ 32) + 2 ^ 88 * x.queue

/-- Reject a descriptor: log its event in format 1, leave its signal tally alone (R474). -/
def Core.reject (c : Core) (d code source off val : Nat) (inj : Bool := false) : Core :=
  match c.desc? d with
  | none => c
  | some x =>
    c.raise { code := code, own := 1, source := source, fmt := 1, detail := detail1 x off val, d := some d, inj := inj }

/-- Detail format 2 (memory). -/
def detail2 (addr sym : Nat) : Nat := addr % 2 ^ 64 * 2 ^ 32 + sym % 65536 * 65536
/-- Detail format 3 (stamps and headers). -/
def detail3 (expected found tag slot blk : Nat) : Nat :=
  expected % 2 ^ 24 * 2 ^ 72 + found % 2 ^ 24 * 2 ^ 48 + tag % 256 * 2 ^ 40 + slot % 256 * 2 ^ 32 + blk % 2 ^ 32
/-- Detail format 4 (links). -/
def detail4 (port seq cls peer : Nat) : Nat :=
  port % 256 * 2 ^ 88 + seq % 4096 * 2 ^ 76 + cls % 4 * 2 ^ 74 + peer % 256 * 2 ^ 66
/-- Detail format 5 (rails, sensors, clocks): F32 patterns. -/
def detail5 (reading limit status : Nat) : Nat :=
  reading % 2 ^ 32 * 2 ^ 48 + limit % 2 ^ 32 * 2 ^ 16 + status % 65536
/-- Detail format 6 (tensors and layers). -/
def detail6 (layer role kind count : Nat) : Nat :=
  layer % 4096 * 2 ^ 84 + role % 16 * 2 ^ 80 + kind % 16 * 2 ^ 76 + count % 2 ^ 32 * 2 ^ 44
/-- Detail format 7 (exchange). -/
def detail7 (hod member kind : Nat) : Nat := hod % 2 ^ 32 * 2 ^ 64 + member % 256 * 2 ^ 56 + kind % 256 * 2 ^ 48
/-- Detail format 8 (watchdogs). -/
def detail8 (w ns : Nat) : Nat := w % 65536 * 2 ^ 80 + ns % 2 ^ 64 * 2 ^ 16
/-- Detail format 9 (dictionary). -/
def detail9 (index sub result : Nat) : Nat := index % 65536 * 2 ^ 80 + sub % 256 * 2 ^ 72 + result % 256 * 2 ^ 64

/-- The signal: the increment, unless NS is set (R361). -/
def Core.signal (c : Core) (x : Desc) : Core := if x.ns then c else c.addTally x.sigTally x.inc

/-- The signal of a descriptor whose rule gives it in the action itself (R239, R246, R260, R261); its completion gives
no second one. -/
def Core.signalNow (c : Core) (d : Nat) : Core :=
  match c.desc? d with
  | some x => if x.signalled then c else (c.setDesc d { x with signalled := true }).signal x
  | none => c

/-- The descriptor's work is done; it completes when its writes are acknowledged (R361). -/
def Core.workDone (c : Core) (d : Nat) : Core := c.modDesc d fun x => { x with done := true }

/-! ### Poison in the system's own memory (R325, R333) -/

/-- Regions of the tile store that only units hold (Table 10.8), as offsets: ringmaster with dictionary and event log,
exchange, queues and tallies, page allocator. -/
def sysRingmaster : Nat × Nat := (0, 0x05000000)
def sysExchange : Nat × Nat := (0x05A00000, 0x06200000)
def sysQueues : Nat × Nat := (0x06200000, 0x06A00000)
def sysAllocator : Nat × Nat := (0x06A00000, 0x06B00000)

/-- The poisoned place that a unit's reading of its region meets; the ringmaster reads P0 too. (log 144: DEDUCED) -/
def Core.sysPoison (c : Core) (r : Nat × Nat) : Option Nat :=
  c.mem.poison.find? fun u => (tsBase + r.1 ≤ u && u < tsBase + r.2) || (r.1 == 0 && u < 4294967296)

/-- A unit reads its own region: poison there takes the device to FAULT_STOP (0x9012, log 144: DEDUCED). -/
def Core.sysRead (c : Core) (r : Nat × Nat) : Core :=
  match c.sysPoison r with
  | none => c
  | some u =>
    c.raise { code := 0x9012, own := 3, fmt := 2, detail := detail2 u 0
              source := if u < tsBase then srcOf 0x09 (hbmInst u) else srcOf 0x0A (u / 4096 % 2) }

/-! ### Operations a detector checks (R458) -/

/-- Does an armed slot reach an operation of a detector at an instance and address, now (R458)? -/
def InjSlot.fires (s : InjSlot) (now det inst addr : Nat) : Bool :=
  s.state == 1 && s.detector == det && (s.target == 0xFFFF || s.target == inst) &&
  (s.address == 0 || s.address == addr / 64 * 64) &&
  (!s.periodic || s.due || s.armedAt + s.nextK * s.period ≤ now)

/-- The slot after it has injected. -/
def InjSlot.fired (s : InjSlot) (now : Nat) : InjSlot :=
  { s with count := min (s.count + 1) (2 ^ 32 - 1), due := false
           state := if s.periodic then 1 else 2
           nextK := max (s.nextK + 1) ((now - s.armedAt) / (max s.period 1) + 1) }

/-- An operation that a detector checks, eligible for the patterns `ok` (where the pattern names the storage): the
pattern of the lowest slot that fires, every slot that fires counted (R458). (log 37: DEDUCED)
(log 96: DESIGN CHOICE) -/
def Core.injectIf (c : Core) (det inst addr : Nat) (ok : Nat → Bool) : Option Nat × Core :=
  let hit (s : InjSlot) : Bool := ok s.pattern && s.fires c.now det inst addr
  match c.inj.find? (fun p => hit p.2) with
  | none => (none, c)
  | some p =>
    let n := (c.inj.filter fun p => hit p.2).length
    let c' := { c with inj := c.inj.map fun (q : Nat × InjSlot) => (q.1, if hit q.2 then q.2.fired c.now else q.2) }
    (some p.2.pattern, c'.bump 0xB410 1 n)

/-- An operation that a detector checks. -/
def Core.inject (c : Core) (det inst addr : Nat) : Option Nat × Core := c.injectIf det inst addr fun _ => true

/-- The address an operation over several ranges shows a detector (R457, R473): that of the lowest slot that would fire
inside them, else 0. -/
def Core.armedAddr (c : Core) (det inst : Nat) (rs : List (Nat × Nat)) : Nat :=
  match c.inj.find? (fun p => p.2.address != 0 && p.2.fires c.now det inst p.2.address &&
      rs.any fun r => r.1 < p.2.address + 64 && p.2.address < r.1 + r.2) with
  | some p => p.2.address
  | none => 0

/-- Is a slot armed on a detector? -/
def Core.armed (c : Core) (det : Nat) : Bool := c.inj.any fun p => p.2.state == 1 && p.2.detector == det

/-- Operations on several places that a detector checks, one by one (R458); `hit` is what an injection does at its place
with its pattern. -/
def Core.injectEach (c : Core) (det : Nat) (places : List Nat) (inst : Nat → Nat) (hit : Core → Nat → Nat → Core) : Core :=
  if c.armed det then
    places.foldl
      (fun c u => match c.inject det (inst u) u with
        | (some p, c) => hit c u p
        | (none, c) => c) c
  else c

/-- A TLP arrives from the PF: an injection of detector 0x14 fails its LCRC, which the link corrects and AER counts
(0xA880:09). -/
def Core.tlp (c : Core) (fn : Nat) : Core :=
  if fn = 0 then
    match c.inject 0x14 0 0 with
    | (some _, c) => c.bump 0xA880 9 1
    | (none, c) => c
  else c

/-! ### Lifting -/

/-- What a command answers. -/
abbrev Res := Host.Outcome State Fault Refusal

end Sys2Proof.Machine
end

