-- ==== Sys2Proof/Machine/Operands.lean ====
section
/-! DEFINITION. Operand forms: pallet-relative addresses (R243, R244), checked access to memory, scale-tensor headers
and lines and their join with data (R24 to R27, R158 to R161), block and element operands read as values. -/

namespace Sys2Proof.Machine

/-! ### Logical addresses

A resolved pallet offset x travels as 2^64 + x, because a tensor may straddle the two parts of the pallet (R241). -/

def palBit : Nat := 2 ^ 64

/-- The pallet's capacity C (R241). -/
def Core.palTs (c : Core) : Nat := c.obj 0x7100 1
def Core.palCap (c : Core) : Nat := c.obj 0x7100 1 + c.obj 0x7100 3

/-- The pieces of device memory that [a, a + n) of a logical address covers. -/
def Core.pieces (c : Core) (a n : Nat) : List (Nat × Nat) :=
  if a < palBit then [(a, n)]
  else
    let x := a - palBit
    let t := c.palTs
    if x + n ≤ t then [(tsPallet + x, n)]
    else if t ≤ x then [(c.obj 0x7100 2 + (x - t), n)]
    else [(tsPallet + x, t - x), (c.obj 0x7100 2, n - (t - x))]

/-- Bytes at a logical address. -/
def Core.lread (c : Core) (a n : Nat) : List Byte := (c.pieces a n).flatMap fun p => c.bytes p.1 p.2

/-- A number at a logical address. -/
def Core.lnum (c : Core) (a n : Nat) : Nat := ofLE (c.lread a n)

/-- Write bytes at a logical address. -/
def Core.lwrite (c : Core) (a : Nat) (bs : List Byte) : Core :=
  ((c.pieces a bs.length).foldl
    (fun (s : Core × List Byte) p => (s.1.store p.1 (s.2.take p.2), s.2.drop p.2)) (c, bs)).1

/-- Does a logical range hold poison? -/
def Core.lpoisoned (c : Core) (a n : Nat) : Bool := (c.pieces a n).any fun p => c.poisoned p.1 p.2

/-- The event an access to a logical range meets, with its address (R318, R243). -/
def Core.lbad (c : Core) (a n : Nat) : Option (Nat × Nat) :=
  if a < palBit then (if 2 ^ 63 ≤ a then some (0x9001, a) else c.plainBad a n)
  else if a - palBit + n ≤ c.palCap then none
  else some (0x9001, a)

/-- A pallet-relative address resolved (R243, R244): none where the descriptor is rejected with 0x7004. -/
def Core.resolvePallet (c : Core) (a : Nat) : Option Nat :=
  let boundary := bitAt a 62
  let m := fld a 61 48
  let off := fld a 47 0
  let p := c.stp.pal
  if !c.stp.isOpen then none
  else
    match KMap.get? p.mbs m with
    | none => none
    | some mb =>
      if mb.closed then none
      else if boundary then (if p.b ≤ off then none else some (palBit + m * p.b + off))
      else if p.i ≤ off then none
      else if mb.full then some (palBit + mb.base + off)
      else some (palBit + p.n * p.b + (if p.r = 0 then 0 else off % p.r))

/-! ### Reads as the stacks serve them (R309, R312, R324, R325, R333) -/

/-- The slots a read of [a, a + n) takes: one request per granule. -/
def readReqs (c : Core) (a n : Nat) : List HbmReq :=
  if n = 0 ∨ tsBase ≤ a then []
  else
    (List.range ((a + n - 1) / 256 + 1 - a / 256)).map fun i =>
      let g := a / 256 + i
      { pc := pcOf (g * 256), part := (c.partOf (g * 256)).getD 0, kind := 0, at_ := c.now }

/-- The pseudo-channel offset halves that a read of a granule merges (0x9880:08): those of the buffer's entries, the
ones being written back among them (R313). -/
def Core.merges (c : Core) (a n : Nat) : Nat :=
  if n = 0 ∨ tsBase ≤ a then 0
  else
    ((List.range ((a + n - 1) / 256 + 1 - a / 256)).filter fun i =>
      let g := a / 256 + i
      (c.mem.wcb ++ c.mem.wbs).any fun e => e.pc == pcOf (g * 256) && e.j == g / 512 / 2 &&
        (e.mask >>> (256 * (g / 512 % 2))) % 2 ^ 256 != 0).length

/-- The repair target (Table 10.6) of the row that holds an HBM address. The manual gives no bank map: the row is named
by its pseudo-channel offset in KiB, split over SID, bank and row in ascending bits (log 14: DESIGN CHOICE). -/
def Core.rowOf (c : Core) (a : Nat) : Nat :=
  let pc := pcOf a
  let off := a / 256 / 512 / 4
  (pc % 8) * 2 ^ 61 + (pc / 16) * 2 ^ 56 + (pc / 8 % 2) * 2 ^ 55 + (off % c.coreDies) * 2 ^ 51 +
    (off / c.coreDies % 32) * 2 ^ 46 + (off / c.coreDies / 32 % 2 ^ 22) * 2 ^ 24

/-- A corrected read adds to its row's count; reaching 0x9200:02 names a candidate (R324). At most 256 rows a stack.
(log 93: DEDUCED) -/
def Core.rowCorrected (c : Core) (a : Nat) : Core :=
  let t := c.rowOf a
  let s := stackOf a
  let rows := KMap.getD c.mem.rows s []
  let n := match rows.find? (fun r => r.target == t) with
    | some r => r.count + 1
    | none => 1
  let rows' := if rows.any (fun r => r.target == t) then
      rows.map fun r => if r.target == t then { r with count := n } else r
    else if rows.length < 256 then rows ++ [{ target := t, count := n }] else rows
  let c := { c with mem := { c.mem with rows := KMap.set c.mem.rows s rows' } }
  if n = c.obj 0x9200 2 then
    c.raise { code := 0x9013, source := srcOf 0x09 (hbmInst a), fmt := 2, detail := detail2 a 0 }
  else c

/-- The controller's code detects an uncorrectable sector: poison, count, event; the sector is written back (R325). -/
def Core.sectorLost (c : Core) (u syms : Nat) (inj : Bool) : Core :=
  (((c.poisonUnit u).enterRange false u 64).bump 0x9880 3 1).raise
    { code := 0x9010, source := srcOf 0x09 (hbmInst u), fmt := 2, detail := detail2 u (2 ^ syms - 1), inj := inj }

/-- A sector is corrected, or miscorrected, and written back through the buffer (R324). -/
def Core.sectorCorrected (c : Core) (u : Nat) : Core := ((c.enterRange false u 64).bump 0x9880 1 1).rowCorrected u

/-- A sector with corrupted symbols is read (R324): one symbol is corrected, two are detected, three have one of three
outcomes, drawn as a free value (log 4: DESIGN CHOICE). -/
def Core.readSymbols (c : Core) (u syms : Nat) (inj : Bool) : Core :=
  if syms ≤ 1 then c.sectorCorrected u
  else if syms = 2 then c.sectorLost u syms inj
  else
    let (o, c) := c.draw 3
    if o = 0 then c.sectorLost u syms inj
    else
      let (bs, c) := c.drawBytes 64
      let c := { c with mem := { c.mem with mem := Mem.write c.mem.mem u bs } }
      if o = 1 then c.sectorCorrected u else c

/-- A sector stored with corrupted symbols is read. -/
def Core.readSector (c : Core) (u syms : Nat) : Core :=
  ({ c with mem := { c.mem with injSyms := KMap.erase c.mem.injSyms u } }).readSymbols u syms true

/-- Is the number's bit count at most one? -/
def singleBit (m : Nat) : Bool := m != 0 && m == 2 ^ Nat.log2 m

/-- A corrected bit of the tile store counts in the context records' or the tracker records' own counter too (R234,
R170). -/
def Core.wordCorrected (c : Core) (u : Nat) : Core :=
  let off := u - tsBase
  let c := c.bump 0x9880 6 1
  if 0x05000000 ≤ off ∧ off < 0x05400000 then c.bump 0x6890 0x13 1
  else if 0x05400000 ≤ off ∧ off < 0x05A00000 then c.bump 0x3880 0x14 1 else c

/-- A tile-store word with flipped bits is read (R333). -/
def Core.readFlips (c : Core) (u flips : Nat) (inj : Bool) : Core :=
  if singleBit flips then c.wordCorrected u
  else ((c.poisonUnit u).bump 0x9880 7 1).raise
    { code := 0x9020, source := srcOf 0x0A (u / 4096 % 2), fmt := 2, detail := detail2 u (flips % 65536), inj := inj }

/-- A tile-store word stored with flipped bits is read. -/
def Core.readWord (c : Core) (u flips : Nat) : Core :=
  ({ c with mem := { c.mem with tsFlips := KMap.erase c.mem.tsFlips u } }).readFlips u flips true

/-- The sectors of HBM, or the words of the tile store, that [a, a + n) meets. -/
def placesOf (a n : Nat) : List Nat :=
  if n = 0 then []
  else
    let w := if a < tsBase then 64 else 8
    (List.range ((a + n - 1) / w + 1 - a / w)).map fun i => (a / w + i) * w

/-- A transfer over a stack's link fails its CRC p times in a row: each is replayed, and the sixteenth takes the link
down (R327). -/
def Core.transferFails (c : Core) (u p : Nat) : Core :=
  let c := c.bump 0x9880 5 (p % 32)
  if p % 32 < 16 then c
  else (c.setObj 0x9002 0 (c.obj 0x9002 0 &&& (255 - 2 ^ stackOf u))).raise
    { code := 0x9014, own := 3, source := srcOf 0x09 (hbmInst u), fmt := 2, detail := detail2 u 0, inj := true }

/-- The transfers of [a, a + n) over the links of their stacks, which detector 0x02 checks (R327, R458). -/
def Core.transfers (c : Core) (a n : Nat) : Core :=
  if a < tsBase then c.injectEach 0x02 (placesOf a n) stackOf Core.transferFails else c

/-- What a read of [a, a + n) does to the memory system: its slots are asked for, entry bytes merge, stored errors
show. -/
def Core.touch (c : Core) (a n : Nat) : Core :=
  let c := (c.transfers a n).bump 0x9880 8 (c.merges a n)
  let c := { c with mem := { c.mem with reqs := c.mem.reqs ++ readReqs c a n } }
  let hit := fun (p : Nat × Nat) => p.1 < a + n && a < p.1 + unitSize p.1
  let c := (c.mem.injSyms.filter hit).foldl (fun c p => c.readSector p.1 p.2) c
  (c.mem.tsFlips.filter hit).foldl (fun c p => c.readWord p.1 p.2) c

/-- `touch` at a logical address. -/
def Core.ltouch (c : Core) (a n : Nat) : Core := (c.pieces a n).foldl (fun c p => c.touch p.1 p.2) c

/-- A descriptor's read: the first event that rejects it (R318, R325), with the address; the state after the touch. -/
def Core.lfetch (c : Core) (a n : Nat) : Core × Option (Nat × Nat) :=
  if n = 0 then (c, none)
  else
    match c.lbad a n with
    | some e => (c, some e)
    | none =>
      let c := c.ltouch a n
      (c, if c.lpoisoned a n then some (0x9011, a) else none)

/-- Reject a descriptor for an access (R318, R325); a poison read is counted (0x9880:04). -/
def Core.rejectAccess (c : Core) (d source off : Nat) (e : Nat × Nat) : Core :=
  (if e.1 = 0x9011 then c.bump 0x9880 4 1 else c).reject d e.1 source off (e.2 % 2 ^ 32)

/-- Fetch a list of ranges in order, stopping at the first that rejects: (descriptor field offset, address, bytes). -/
def Core.fetchAll (c : Core) : List (Nat × Nat × Nat) → Core × Option (Nat × Nat × Nat)
  | [] => (c, none)
  | (off, a, n) :: rest =>
    match c.lfetch a n with
    | (c, some e) => (c, some (off, e))
    | (c, none) => c.fetchAll rest

/-! ### Scale tensors -/

/-- The scale-tensor header's magic (Table 1.5). -/
def scaleMagic : Nat := magic 0x48 0x4C 0x43 0x53

/-- Bytes of a scale tensor's lines for n blocks, header included. -/
def scaleBytes (blocks : Nat) : Nat := 64 + 64 * ceilDiv blocks 30

/-- Does a header fail R26? -/
def headerBad (h : List Byte) : Bool :=
  numAt h 0 4 != scaleMagic || numAt h 5 1 != 1 ||
  !((bytesAt h 32 28).all (· == 0)) || numAt h 7 1 / 2 != 0 || numAt h 27 1 != 0 ||
  numAt h 60 4 != crc32c (bytesAt h 0 60) ||
  numAt h 8 8 != numAt h 20 4 * numAt h 16 4 || numAt h 8 8 / 2 ^ 40 != 0

/-- A header as a writing stage writes it (R162). -/
def headerBytes (fmt tag rows bpr step : Nat) (zp : Bool := false) : List Byte :=
  let h := toLE 4 scaleMagic ++ toLE 1 fmt ++ toLE 1 1 ++ toLE 1 tag ++ toLE 1 (if zp then 1 else 0) ++
    toLE 8 (rows * bpr) ++ toLE 4 bpr ++ toLE 4 rows ++ toLE 4 0 ++ toLE 4 step ++ List.replicate 28 0
  h ++ toLE 4 (crc32c h)

/-- Is the operand in a block format? -/
def Opnd.isBlk (o : Opnd) : Bool := (blkOfCode o.fmt).isSome

/-- Blocks per row. -/
def Opnd.bpr (o : Opnd) : Nat := ceilDiv o.cols 32

/-- Bits of one element of a format code. -/
def fmtBits (f : Nat) : Nat :=
  match blkOfCode f with
  | some b => b.elem.width
  | none => match elemOfCode f with
    | some e => e.width
    | none => 8

/-- Data bytes of an operand. -/
def Opnd.bytes (o : Opnd) : Nat :=
  match blkOfCode o.fmt with
  | some b => o.rows * o.bpr * b.bytes
  | none => ceilDiv (o.rows * o.cols * fmtBits o.fmt) 8

/-- The issue checks of a block operand's scale header (R26, R158; R159 where `stash`): an event code, or none. -/
def Core.headerCheck (c : Core) (o : Opnd) (h : List Byte) (stash : Bool) : Option Nat :=
  if headerBad h then some 0x3003
  else if numAt h 4 1 ≠ o.fmt ∨ numAt h 20 4 ≠ o.rows ∨ numAt h 16 4 ≠ o.bpr then some 0x3010
  else if stash ∧ numAt h 6 1 = 2 ∧ numAt h 28 4 ≠ c.step then some 0x3011
  else none

/-- A scale word found at its place in its line (R160): the word, or the sequence expected and found and the tag
found. -/
def Core.scaleWord (c : Core) (scale s0 tag b : Nat) : Except (Nat × Nat × Nat) Nat :=
  let line := scale + 64 + 64 * (b / 30)
  let stamp := c.lnum line 4
  let want := (s0 + 30 * (b / 30)) % 2 ^ 24
  if stamp = want + tag * 2 ^ 24 then .ok (c.lnum (line + 4 + 2 * (b % 30)) 2)
  else .error (want, stamp % 2 ^ 24, stamp / 2 ^ 24)

/-- A zero point of block b, whose lines follow the scale lines of `blocks` blocks (R27). -/
def Core.zeroPoint (c : Core) (scale s0 tag blocks b : Nat) : Except (Nat × Nat × Nat) Int :=
  let line := scale + 64 + 64 * ceilDiv blocks 30 + 64 * (b / 60)
  let stamp := c.lnum line 4
  let want := (s0 + 60 * (b / 60)) % 2 ^ 24
  if stamp = want + tag * 2 ^ 24 then .ok (toInt 8 (c.lnum (line + 4 + b % 60) 1))
  else .error (want, stamp % 2 ^ 24, stamp / 2 ^ 24)

/-- n elements of w bits from packed bytes (R16). -/
def unpack (w n : Nat) (bs : List Byte) : List Nat :=
  let x := ofLE bs
  (List.range n).map fun i => fld x (w * i + w - 1) (w * i)

/-- Codes of w bits packed into bytes (R16). -/
def pack (w : Nat) (cs : List Nat) : List Byte :=
  toLE (ceilDiv (w * cs.length) 8) (cs.foldr (fun c acc => c % 2 ^ w + 2 ^ w * acc) 0)

/-- What reading operand values met: non-finite input elements, non-finite blocks read as zero, nonzero reserved
scale bits, and the first join failure (expected, found, tag, block). -/
structure Seen where
  nonfin : Nat := 0
  nfZero : Nat := 0
  rsvd : Nat := 0
  skew : Option (Nat × Nat × Nat × Nat) := none
  deriving DecidableEq, Repr

/-- Two readings joined. -/
def Seen.add (x y : Seen) : Seen :=
  { nonfin := x.nonfin + y.nonfin, nfZero := x.nfZero + y.nfZero, rsvd := x.rsvd + y.rsvd,
    skew := match x.skew with
      | some e => some e
      | none => y.skew }

/-- The scale of a block element before the element's own value: 2^(E - 127), less split offset, with fraction
(Table 1.2). -/
def blkScale (f : BlkFmt) (word i : Nat) (x : Num) : Num :=
  let e : Int := (word % 256 : Nat) - 127
  match f with
  | .b4s => x.scale (e - (fld word (9 + 2 * (i / 8)) (8 + 2 * (i / 8)) : Nat))
  | .q4 | .q8 | .q2 => (x.mul (.ofNat (256 + word / 256))).scale (e - 8)
  | _ => x.scale e

/-- The values of a block's first n elements (R17, R19, R27, R34, R35). (log 125: DEDUCED) -/
def decodeBlk (f : BlkFmt) (word : Nat) (data : List Byte) (nfp : Bool) (zp : Int) (table : Option (List Num))
    (n : Nat) : List Num :=
  if word % 256 = 0 then List.replicate n (.zero false)
  else if word % 256 = 255 then List.replicate n (if nfp then .nan else .zero false)
  else
    ((unpack f.elem.width n data).zipIdx).map fun (q, i) =>
      match table with
      | some t => (t.getD q (.zero false)).scale ((word % 256 : Nat) - 127)
      | none =>
        match f.elem with
        | .int w => blkScale f word i (.ofScaled (toInt w q - zp) 0)
        | .flt ff => blkScale f word i (ff.decode q)

/-- A block of an operand: values of the elements that are not padding, with the scale word, whether it is a non-finite
block read as zeros (R34), and what was met. -/
structure BlkRead where
  word : Nat
  vals : List Num
  seen : Seen
  nfz : Bool := false
  deriving DecidableEq, Repr

/-- What a scale word of a block format shows (R20, R21, R33, R34): n elements that are not padding, `bad` of them
non-finite. -/
def seenWord (f : BlkFmt) (word n bad : Nat) (nfp : Bool) : Seen :=
  let nfb := word % 256 == 255
  { nonfin := if nfb then n else bad, nfZero := if nfb && !nfp then 1 else 0
    rsvd := match f with
      | .b4 | .b8m | .b8e => if word / 256 ≠ 0 then 1 else 0
      | _ => 0 }

/-- Read block b of a block operand whose header is h; n of its elements are not padding. A non-finite block read with
NFP clear is a zero block in every stage, the converters included (log 125: DEDUCED). -/
def Core.readBlk (c : Core) (o : Opnd) (h : List Byte) (nfp : Bool) (b n : Nat) : BlkRead :=
  match blkOfCode o.fmt with
  | none => { word := 0, vals := [], seen := {} }
  | some f =>
    let s0 := numAt h 24 4
    let tag := numAt h 6 1
    match c.scaleWord o.scale s0 tag b with
    | .error (w, g, t) => { word := 0, vals := List.replicate n (.zero false), seen := { skew := some (w, g, t, b) } }
    | .ok word =>
      let zp : Except (Nat × Nat × Nat) Int :=
        if bitAt (numAt h 7 1) 0 ∧ o.table.isNone then c.zeroPoint o.scale s0 tag (o.rows * o.bpr) b else .ok 0
      match zp with
      | .error (w, g, t) => { word := 0, vals := List.replicate n (.zero false), seen := { skew := some (w, g, t, b) } }
      | .ok z =>
        let z := match f.elem with
          | .int _ => z
          | .flt _ => 0
        let data := c.lread (o.addr + b * f.bytes) f.bytes
        let vals := decodeBlk f word data nfp z o.table n
        { word := word, vals := vals, nfz := word % 256 == 255 && !nfp
          seen := seenWord f word n (vals.filter Num.nonFinite).length nfp }

/-- Element i (row-major) of an operand in an element format; a 4-bit code goes through the operand's expansion table
where it has one (R27). -/
def Core.readElem (c : Core) (o : Opnd) (i : Nat) : Num :=
  match elemOfCode o.fmt with
  | none => .zero false
  | some e =>
    let w := e.width
    if w < 8 then
      let q := fld (c.lnum (o.addr + i * w / 8) 1) (i * w % 8 + w - 1) (i * w % 8)
      match o.table with
      | some t => t.getD q (.zero false)
      | none => e.decode q
    else e.decode (c.lnum (o.addr + i * (w / 8)) (w / 8))

/-- Row r of an operand as values, with what was met. Non-finite elements of an element format stay as they are. -/
def Core.readRow (c : Core) (o : Opnd) (h : List Byte) (nfp : Bool) (r : Nat) : List Num × Seen :=
  if o.isBlk then
    (List.range o.bpr).foldl
      (fun (acc : List Num × Seen) j =>
        let x := c.readBlk o h nfp (r * o.bpr + j) (min 32 (o.cols - 32 * j))
        (acc.1 ++ x.vals, acc.2.add x.seen)) ([], {})
  else
    match elemOfCode o.fmt with
    | none => (List.replicate o.cols (.zero false), {})
    | some e =>
      let w := e.width
      let vals := if w < 8 then (List.range o.cols).map fun k => c.readElem o (r * o.cols + k)
        else (unpack w o.cols (c.lread (o.addr + r * o.cols * (w / 8)) (o.cols * (w / 8)))).map e.decode
      (vals, { nonfin := (vals.filter Num.nonFinite).length })

/-- All rows. (log 139: DEDUCED) -/
def Core.readRows (c : Core) (o : Opnd) (h : List Byte) (nfp : Bool) : List (List Num) × Seen :=
  (List.range (o.top.getD o.rows)).foldl
    (fun (acc : List (List Num) × Seen) r =>
      let x := c.readRow o h nfp r
      (acc.1 ++ [x.1], acc.2.add x.2)) ([], {})

/-- What the readings of a descriptor count (R21, R33, R34): counters, and 0x3005 once. -/
def Core.countSeen (c : Core) (d source : Nat) (s : Seen) (inj : Bool := false) : Core :=
  let c := ((c.bump 0x3008 1 s.nonfin).bump 0x3008 4 s.nfZero).bump 0x3008 5 s.rsvd
  if s.nonfin = 0 then c else c.raiseOnce d { code := 0x3005, source := source, inj := inj }

/-- A join failure (R161): count, reject with the stamp in the detail. -/
def Core.rejectSkew (c : Core) (d source slot : Nat) (e : Nat × Nat × Nat × Nat) (inj : Bool := false) : Core :=
  (c.bump 0x3880 0xC 1).raise
    { code := 0x3012, own := 1, source := source, fmt := 3,
      detail := detail3 e.1 e.2.1 e.2.2.1 slot e.2.2.2, d := some d, inj := inj }

end Sys2Proof.Machine
end

