-- ==== Sys2Proof/Machine/Issue.lean ====
section
/-! DEFINITION. Issuing a descriptor (R359, R474): the wait, FENCE, the header checks, format and rounding codes; and
the idle rule of the governed domains (R408). -/

namespace Sys2Proof.Machine

/-- The governed domain of a block class and instance (Table 13.2). -/
def domainOf (cls inst : Nat) : Option Nat :=
  match cls with
  | 0x01 => some (if inst < 96 then 0 else 2)
  | 0x02 => some (if inst < 32 then 1 else 3)
  | 0x03 => some (if inst < 8 then 1 else 3)
  | 0x04 => some (if inst < 4 then 1 else 3)
  | 0x05 => some (if inst < 8 then 4 else 5)
  | 0x06 => some (if inst < 4 then 4 else 5)
  | 0x07 => some (if inst < 16 then 4 else 5)
  | 0x08 => some (if inst < 2 then 4 else 5)
  | 0x0E => some 4
  | 0x17 => some (if inst < 4 then 4 else 5)
  | _ => none

/-- A descriptor is issued to blocks of these domains (R408). -/
def Core.noteIssue (c : Core) (doms : List Nat) : Core :=
  { c with pow := { c.pow with
      idle := c.pow.idle.filter (fun x => !(doms.contains x)),
      idleSince := doms.foldl (fun m x => KMap.set m x c.now) c.pow.idleSince } }

/-- Does an earlier descriptor of the queue remain (FENCE, R361)? -/
def Core.earlierLeft (c : Core) (d : Nat) (x : Desc) : Bool :=
  c.links.descs.any fun p => p.1 < d && p.2.queue == x.queue

/-- Does the descriptor's wait hold (R360)? -/
def Core.waitHolds (c : Core) (x : Desc) : Bool := x.nw || c.reached x.waitTally x.waitVal

/-- Do the device states allow descriptors to issue (Tables 2.7, 11.11, 11.12)? -/
def runsWork (dev : Dev) : Bool := dev == .run || dev == .drain

/-- May the stage take this descriptor from its pending set? -/
def Core.canIssue (c : Core) (dev : Dev) (d : Nat) (x : Desc) (tys : List Nat) : Bool :=
  runsWork dev && !x.issued && tys.contains x.ty && c.waitHolds x && !(x.fence && c.earlierLeft d x)

/-- Does a waiting descriptor go before another: its wait was satisfied first, it still holds, and FENCE does not hold
it back (R72, R96, R128; log 124: DEDUCED)? -/
def Core.goesBefore (c : Core) (d : Nat) (y x : Desc) : Bool :=
  !y.issued && c.waitHolds y && !(y.fence && c.earlierLeft d y) &&
    match y.readyAt, x.readyAt with
    | some a, some b => decide (a < b)
    | _, _ => false

/-- Is it a descriptor's turn among those that run in the order in which their waits were satisfied?
(log 124: DEDUCED) -/
def Core.inTurn (c : Core) (x : Desc) (same : Desc → Bool) : Bool :=
  !(c.links.descs.any fun p => same p.2 && c.goesBefore p.1 p.2 x)

/-- The header checks of R359. -/
def Core.headerOk (c : Core) (x : Desc) : Bool :=
  let fn := c.queueFn x.queue
  fld x.flags 7 6 == 0 && c.ownsTally fn x.waitTally && c.ownsTally fn x.sigTally

/-- Issue a descriptor of one of these types: when it cannot issue nothing changes (log 3: DESIGN CHOICE); a bad
header rejects it with 0xA005, which names the queue (R474 step 2, R476); otherwise `body` makes the stage's own
checks and runs it, and what it writes is the descriptor's to see acknowledged (R361). -/
def Core.issue (c : Core) (dev : Dev) (d : Nat) (tys : List Nat) (doms : Desc → List Nat)
    (body : Desc → Core → Core) : Core :=
  match c.desc? d with
  | none => c
  | some x =>
    if c.canIssue dev d x tys then
      if c.headerOk x then
        let c := (c.setDesc d { x with issued := true }).noteIssue (doms x)
        (body x c).owe c (.desc d)
      else c.reject d 0xA005 (srcOf 0x0E x.queue) (if fld x.flags 7 6 ≠ 0 then 14 else 8) (x.flags)
    else c

/-- The first failure of a list of checks, each with its event, field offset and value. -/
def firstBad : List (Bool × Nat × Nat × Nat) → Option (Nat × Nat × Nat)
  | [] => none
  | (ok, code, off, val) :: rest => if ok then firstBad rest else some (code, off, val)

/-- Checks of format codes (R17): offset and code. -/
def fmtChecks (fs : List (Nat × Nat)) : List (Bool × Nat × Nat × Nat) :=
  fs.map fun f => (knownFormat f.2, 0x3001, f.1, f.2)

/-- Checks of rounding codes (R29): offset, code. -/
def rndChecks (fs : List (Nat × Nat)) : List (Bool × Nat × Nat × Nat) :=
  fs.map fun f => (f.2 != 3, 0x3002, f.1, f.2)

/-- Make the checks in order; at the first that fails reject the descriptor, else go on. -/
def Core.checked (c : Core) (d source : Nat) (cs : List (Bool × Nat × Nat × Nat)) (k : Core → Core) : Core :=
  match firstBad cs with
  | some (code, off, val) => c.reject d code source off val
  | none => k c

/-- Resolve the address fields of a descriptor (R243, R244): each is (offset, address); a zero address, or one without
bit 63, stays. -/
def Core.resolveAll (c : Core) (pallet : Bool) : List (Nat × Nat) → Except (Nat × Nat) (List Nat)
  | [] => .ok []
  | (off, a) :: rest =>
    match c.resolveAll pallet rest with
    | .error e =>
      if pallet ∧ 2 ^ 63 ≤ a ∧ (c.resolvePallet a).isNone then .error (off, a) else .error e
    | .ok as =>
      if pallet ∧ 2 ^ 63 ≤ a then
        match c.resolvePallet a with
        | some b => .ok (b :: as)
        | none => .error (off, a)
      else .ok (a :: as)

/-- Resolve or reject with 0x7004. -/
def Core.resolved (c : Core) (d source : Nat) (pallet : Bool) (fs : List (Nat × Nat)) (k : List Nat → Core → Core) :
    Core :=
  match c.resolveAll pallet fs with
  | .error (off, a) => c.reject d 0x7004 source off (a % 2 ^ 32)
  | .ok as => k as c

/-- A header as it is read; a converter's read may be injected (detector 0x10: CRC or block count). (log 37: DEDUCED) -/
def Core.readHeader (c : Core) (conv : Option Nat) (a : Nat) : List Byte × Bool × Core :=
  let h := c.lread a 64
  match conv with
  | none => (h, false, c)
  | some v =>
    match c.inject 0x10 v a with
    | (none, c) => (h, false, c)
    | (some p, c) =>
      let i := if bitAt p 0 then 8 else 60
      (h.set i (h.getD i 0 ^^^ 1), true, c)

/-- Check the scale headers of block operands in order (R26, R158, R159): (field offset, operand, stash check, extra
event check on the header). Rejects at the first failure; otherwise the headers in order. `conv` is the converter that
reads them, if one does. A rejection carries detail format 1 with the header's first word as the failing value, 0x3003
too (log 132: DESIGN CHOICE). -/
def Core.headersOk (c : Core) (d source : Nat) (conv : Option Nat) :
    List (Nat × Opnd × Bool × (List Byte → Option Nat)) → List (List Byte) → (List (List Byte) → Core → Core) → Core
  | [], hs, k => k hs.reverse c
  | (off, o, stash, extra) :: rest, hs, k =>
    if o.isBlk then
      match c.lfetch o.scale 64 with
      | (c, some e) => c.rejectAccess d source off e
      | (c, none) =>
        let (h, inj, c) := c.readHeader conv o.scale
        match c.headerCheck o h stash with
        | some code =>
          (if code = 0x3010 then c.bump 0x3880 0xD 1 else c).reject d code source off (numAt h 0 4) inj
        | none =>
          match extra h with
          | some code => c.reject d code source off (numAt h 7 1)
          | none => c.headersOk d source conv rest (h :: hs) k
    else c.headersOk d source conv rest ([] :: hs) k

/-- RC of a kind-2 descriptor (R246): a FULL microbatch's descriptor does no work, a BOUNDARY one runs, one never
opened in the head step is rejected. (log 38: DEDUCED) -/
def Core.rcGate (c : Core) (d source : Nat) (x : Desc) (kind2 : Bool) (k : Core → Core) : Core :=
  if !(x.rc && kind2) then k c
  else
    match (if c.stp.isOpen then KMap.get? c.stp.pal.mbs (x.tag % 2 ^ 14) else none) with
    | none => c.reject d 0x7004 source 11 x.tag
    | some mb => if mb.full then ((c.bump 0x7880 6 1).workDone d).signalNow d else k (c.bump 0x7880 7 1)

/-- The rounding of a mode for one element: SR draws u from the bank word at the element's counter (R30, R166). -/
def rndOf (mode key ctr : Nat) : Rnd :=
  match mode with
  | 0 => .rne
  | 1 => .sr (genWord key ctr % 65536)
  | _ => .trz

end Sys2Proof.Machine
end

