-- ==== Sys2Proof/Machine/Pools.lean ====
section
/-! DEFINITION. Page pools (R187 to R190): the free ring, allocation, freeing into quarantine, release. -/

namespace Sys2Proof.Machine

/-- A pool's rings and page states. -/
def Core.pool (c : Core) (n : Nat) : Pool := KMap.getD c.attn.pools n {}

/-- Replace a pool. -/
def Core.setPool (c : Core) (n : Nat) (p : Pool) : Core :=
  { c with attn := { c.attn with pools := KMap.set c.attn.pools n p } }

/-- Is a pool enabled? -/
def Core.poolOn (c : Core) (n : Nat) : Bool := n < 4 && c.obj (0x6100 + n) 1 != 0

/-- Pages, page bytes and slot bytes of a pool. -/
def Core.poolPages (c : Core) (n : Nat) : Nat := c.obj (0x6100 + n) 3
def Core.pageBytes (c : Core) (n : Nat) : Nat := c.obj (0x6100 + n) 2
def Core.slotBytes (c : Core) (n : Nat) : Nat := c.obj (0x6100 + n) 5

/-- Where a page's data and its scale slot lie. -/
def Core.pageAddr (c : Core) (n page : Nat) : Nat := c.obj (0x6100 + n) 1 + page * c.pageBytes n
def Core.slotAddr (c : Core) (n page : Nat) : Nat := c.obj (0x6100 + n) 4 + page * c.slotBytes n

/-- Pages on the free ring (0x6100+n:09). -/
def Core.freePages (c : Core) (n : Nat) : Nat :=
  if c.poolOn n then c.poolPages n - (c.pool n).fresh + (c.pool n).back.length else 0

/-- Pages of a pool in quarantine (0x6100+n:0A). -/
def Core.quarantined (c : Core) (n : Nat) : Nat := (c.attn.quarantine.filter fun q => q.pool == n).length

/-- Take the head of the free ring (R188). A pool whose state area was overwritten has broken allocation: whether a page
comes, and which, are free values (log 6: DESIGN CHOICE). (log 7: DEDUCED) -/
def Core.takePage (c : Core) (n : Nat) : Option Nat × Core :=
  let c := c.sysRead sysAllocator
  let p := c.pool n
  if !c.poolOn n then (none, c)
  else if p.broken then
    let (v, c) := c.draw 2
    let (page, c) := c.draw (max 1 (c.poolPages n))
    if v = 0 then (none, c) else (some page, c.setPool n { p with alloc := insertNat page p.alloc })
  else if p.fresh < c.poolPages n then
    (some p.fresh, c.setPool n { p with fresh := p.fresh + 1, alloc := insertNat p.fresh p.alloc })
  else
    match p.back with
    | [] => (none, c)
    | x :: xs => (some x, c.setPool n { p with back := xs, alloc := insertNat x p.alloc })

/-- An allocated page enters quarantine (R189); a page that is not allocated is left alone. -/
def Core.freePage (c : Core) (n page : Nat) : Core :=
  let c := c.sysRead sysAllocator
  let p := c.pool n
  if c.poolOn n && p.alloc.contains page then
    let c := c.setPool n { p with alloc := p.alloc.filter (· != page) }
    let q : QPage := { pool := n, page := page, at_ := c.now }
    ({ c with attn := { c.attn with quarantine := c.attn.quarantine ++ [q] } }).bump 0x6880 0xA 1
  else
    (c.bump 0x6880 0x11 1).raise { code := 0x6017, source := srcOf 0x16 0 }

/-- The start of the oldest live walk (0x6120:00). (log 43: DEDUCED) -/
def Core.oldestWalk (c : Core) : Option Nat :=
  c.attn.items.foldl
    (fun b i => match b, i.walkAt with
      | none, w => w
      | some x, some y => some (min x y)
      | some x, none => some x) none

/-- A page goes back to the tail of its free ring. -/
def Core.returnPage (c : Core) (q : QPage) : Core :=
  c.setPool q.pool { c.pool q.pool with back := (c.pool q.pool).back ++ [q.page] }

/-- Pages in quarantine whose older walks have all retired return to their rings (R189). (log 7: DEDUCED) -/
def Core.releasePages (c : Core) : Core :=
  let held (q : QPage) : Bool := match c.oldestWalk with
    | some w => w < q.at_
    | none => false
  let go := c.attn.quarantine.filter fun q => !held q
  go.foldl Core.returnPage { c with attn := { c.attn with quarantine := c.attn.quarantine.filter held } }

end Sys2Proof.Machine
end

