-- ==== Sys2Proof/Machine/Contain.lean ====
section
/-! DEFINITION. Entering FAULT_STOP (R9, R451, R453, and each block's state table), and the end of every command. -/

namespace Sys2Proof.Machine

/-- Disarm every injection slot (R457). -/
def Core.disarmAll (c : Core) : Core :=
  { c with inj := c.inj.map fun p => (p.1, { p.2 with state := 0, due := false }) }

/-- Descriptors that were running end without their signals (R79, R133, R169, R204). -/
def Core.dropIssued (c : Core) : Core :=
  { c with links := { c.links with descs := c.links.descs.filter fun p => !p.2.issued, copies := [] } }

/-- The converters discard held spans, the tiles stop and lose their slots (R79, R169). -/
def Core.stopUnits (c : Core) : Core :=
  { c with fwd := { c.fwd with tiles := [], runs := [], active := [], spans := [] } }

/-- The engines and walkers stop: walks retire, so quarantined pages return to the free rings (R204). -/
def Core.stopAttention (c : Core) : Core :=
  ({ c with attn := { c.attn with runs := [], items := [], engs := [] }, bwd := {} }).releasePages

/-- Ops that wait end with their descriptors; an interrupted PARK or RESUME leaves the list as it was, and the pages a
RESUME took stay with it until REJOIN (R233). -/
def Core.stopContexts (c : Core) : Core := { c with roll := { c.roll with waits := [], parks := [], ends := [] } }

/-- An export ends: its reference goes, its result is written, another status than 0x01 is counted (R263). -/
def Core.endExport (c : Core) (d status : Nat) : Core :=
  match KMap.get? c.stp.exports d with
  | none => c
  | some r =>
    let b := KMap.getD c.stp.banks r.bank {}
    let c := { c with stp := { c.stp with
      exports := KMap.erase c.stp.exports d, banks := KMap.set c.stp.banks r.bank { b with exports := b.exports - 1 } } }
    let c := match c.desc? d with
      | some x => c.store (x.f 48 8) (toLE 8 r.crc ++ toLE 1 status ++ toLE 7 0)
      | none => c
    if status = 1 then
      let more (s : StepSlot) : StepSlot := { s with exports := s.exports + 1 }
      ({ c with stp := { c.stp with head := c.stp.head.map more, tail := c.stp.tail.map more } }).bump 0x7880 0xE 1
    else (c.bump 0x7880 0xF 1).raise { code := 0x7014, source := srcOf 0x13 0, d := some d }

/-- Ledger entries past the ledger count of a STEPPING context are undefined (R233): those its step may have begun, at
most one for each of its 8 rows, are free bytes. (log 123: DEDUCED) -/
def Core.loseLedgers (c : Core) : Core :=
  c.roll.ctxs.foldl
    (fun c (p : Nat × Ctx) =>
      if p.2.state = 2 then c.smear (p.2.ledBase + 16 * p.2.ledCount) (16 * min 8 (p.2.ledCap - p.2.ledCount)) else c) c

/-- An export that FAULT_STOP ends completes all the same: with its signal, counted in its queue (R263). -/
def Core.faultExport (c : Core) (d : Nat) : Core :=
  match c.desc? d with
  | some x => (((c.endExport d 4).signalNow d).bump (0xA100 + x.queue) 0xC 1).dropDesc d
  | none => c.endExport d 4

/-- Exports in flight end with status 0x04 and complete; waiting opens go (R263, R267). -/
def Core.stopSteps (c : Core) : Core :=
  let c := c.stp.exports.foldl (fun c p => c.faultExport p.1) c
  { c with stp := { c.stp with opens := [] } }

/-- The exchange releases its slots and originates nothing more (R301); a rejoin under way has ended (R299). -/
def Core.stopExchange (c : Core) : Core :=
  { c with xch := { c.xch with
      slots := [], out := [], waits0 := [], asked := false, grant := none, pullLeft := [], pullFlight := 0
      pullImages := false } }

/-- VC0 to VC3 go to 0.62 V; VC4 and VC5 are governed, idle or not (Table 13.6). -/
def Core.faultVolts (c : Core) : Core :=
  { c with pow := { c.pow with
      targets := [0, 1, 2, 3].foldl (fun m d => KMap.set m d 620) c.pow.targets
      idle := c.pow.idle.filter (· < 4) } }

/-- What entering FAULT_STOP does (R453 and the chapters' state tables). -/
def Core.enterFault (c : Core) (e : EventRec) (own : Nat) : Core :=
  let c := { c with log := { c.log with cause := some e, causeOwn := own, cleared := false } }
  { c.disarmAll.stopSteps.dropIssued.stopUnits.stopAttention.loseLedgers.stopContexts.stopExchange.writeBackAll.faultVolts with
    faultReq := none }

/-- The end of a command: an event with outcome FAULT_STOP takes the device there, whatever else the command would have
changed the state to (R9). Events raised while in FAULT_STOP, or while off, change nothing more (R453).
(log 120: DEDUCED) -/
def finish (dev : Dev) (c : Core) (pending : List Instr) : State :=
  match c.faultReq with
  | none => { dev := dev, core := c, pending := pending }
  | some (e, own) =>
    let c := { c with faultReq := none }
    if dev = .off ∨ dev = .faultStop then { dev := dev, core := c, pending := pending }
    else { dev := .faultStop, core := c.enterFault e own, pending := pending }

/-- Is nothing of the device at work: OFF (R12), or held in reset by MOD_RST_N (R464)? -/
def State.held (s : State) : Bool := s.dev == .off || !s.core.pins.modRstN

/-- A command of the module's pins, its stage or its reset, which acts in OFF and in reset too. -/
def liftPins (f : Dev → Core → Dev × Core) (s : State) : Res :=
  .next (finish (f s.dev s.core).1 (f s.dev s.core).2 s.pending)

/-- A command that may change the device state. -/
def liftDev (f : Dev → Core → Dev × Core) (s : State) : Res := if s.held then .next s else liftPins f s

/-- A command that leaves the device state alone, but for FAULT_STOP. -/
def lift (f : Dev → Core → Core) (s : State) : Res :=
  if s.held then .next s else .next (finish s.dev (f s.dev s.core) s.pending)

end Sys2Proof.Machine
end

