-- ==== Sys2Proof/Machine/Crypto.lean ====
section
/-! DEFINITION. The cryptography the manual names (R422, R426): SHA-512 (FIPS 180-4), HMAC-SHA-512 (RFC 2104) and
Ed25519 (RFC 8032), every signature over the SHA-512 digest of the signed bytes. -/

namespace Sys2Proof.Machine

/-! ### SHA-512 -/

def sha512KA : List W64 :=
  [0x428A2F98D728AE22#64, 0x7137449123EF65CD#64, 0xB5C0FBCFEC4D3B2F#64, 0xE9B5DBA58189DBBC#64,
   0x3956C25BF348B538#64, 0x59F111F1B605D019#64, 0x923F82A4AF194F9B#64, 0xAB1C5ED5DA6D8118#64,
   0xD807AA98A3030242#64, 0x12835B0145706FBE#64, 0x243185BE4EE4B28C#64, 0x550C7DC3D5FFB4E2#64,
   0x72BE5D74F27B896F#64, 0x80DEB1FE3B1696B1#64, 0x9BDC06A725C71235#64, 0xC19BF174CF692694#64,
   0xE49B69C19EF14AD2#64, 0xEFBE4786384F25E3#64, 0x0FC19DC68B8CD5B5#64, 0x240CA1CC77AC9C65#64,
   0x2DE92C6F592B0275#64, 0x4A7484AA6EA6E483#64, 0x5CB0A9DCBD41FBD4#64, 0x76F988DA831153B5#64,
   0x983E5152EE66DFAB#64, 0xA831C66D2DB43210#64, 0xB00327C898FB213F#64, 0xBF597FC7BEEF0EE4#64,
   0xC6E00BF33DA88FC2#64, 0xD5A79147930AA725#64, 0x06CA6351E003826F#64, 0x142929670A0E6E70#64,
   0x27B70A8546D22FFC#64, 0x2E1B21385C26C926#64, 0x4D2C6DFC5AC42AED#64, 0x53380D139D95B3DF#64,
   0x650A73548BAF63DE#64, 0x766A0ABB3C77B2A8#64, 0x81C2C92E47EDAEE6#64, 0x92722C851482353B#64]

def sha512KB : List W64 :=
  [0xA2BFE8A14CF10364#64, 0xA81A664BBC423001#64, 0xC24B8B70D0F89791#64, 0xC76C51A30654BE30#64,
   0xD192E819D6EF5218#64, 0xD69906245565A910#64, 0xF40E35855771202A#64, 0x106AA07032BBD1B8#64,
   0x19A4C116B8D2D0C8#64, 0x1E376C085141AB53#64, 0x2748774CDF8EEB99#64, 0x34B0BCB5E19B48A8#64,
   0x391C0CB3C5C95A63#64, 0x4ED8AA4AE3418ACB#64, 0x5B9CCA4F7763E373#64, 0x682E6FF3D6B2B8A3#64,
   0x748F82EE5DEFB2FC#64, 0x78A5636F43172F60#64, 0x84C87814A1F0AB72#64, 0x8CC702081A6439EC#64,
   0x90BEFFFA23631E28#64, 0xA4506CEBDE82BDE9#64, 0xBEF9A3F7B2C67915#64, 0xC67178F2E372532B#64,
   0xCA273ECEEA26619C#64, 0xD186B8C721C0C207#64, 0xEADA7DD6CDE0EB1E#64, 0xF57D4F7FEE6ED178#64,
   0x06F067AA72176FBA#64, 0x0A637DC5A2C898A6#64, 0x113F9804BEF90DAE#64, 0x1B710B35131C471B#64,
   0x28DB77F523047D84#64, 0x32CAAB7B40C72493#64, 0x3C9EBE0A15C9BEBC#64, 0x431D67C49C100D4C#64,
   0x4CC5D4BECB3E42B6#64, 0x597F299CFC657E2A#64, 0x5FCB6FAB3AD6FAEC#64, 0x6C44198C4A475817#64]

/-- The round constants. -/
def sha512K : List W64 := sha512KA ++ sha512KB

/-- The initial state. -/
def sha512H : List W64 :=
  [0x6A09E667F3BCC908#64, 0xBB67AE8584CAA73B#64, 0x3C6EF372FE94F82B#64, 0xA54FF53A5F1D36F1#64,
   0x510E527FADE682D1#64, 0x9B05688C2B3E6C1F#64, 0x1F83D9ABFB41BD6B#64, 0x5BE0CD19137E2179#64]

def rotr (x : W64) (n : Nat) : W64 := (x >>> n) ||| (x <<< (64 - n))

/-- The big-endian number of bytes. -/
def ofBE (bs : List Byte) : Nat := bs.foldl (fun a b => 256 * a + b.toNat) 0
/-- The n big-endian bytes of a number. -/
def toBE (n x : Nat) : List Byte := (toLE n x).reverse

/-- Padding of a message of n bytes. -/
def sha512Pad (n : Nat) : List Byte :=
  0x80 :: List.replicate ((128 - (n + 17) % 128) % 128) 0 ++ toBE 16 (8 * n)

/-- The next schedule word from the last sixteen (newest first). -/
def sha512W (w : List W64) : W64 :=
  let a := w.getD 14 0
  let b := w.getD 1 0
  (rotr b 19 ^^^ rotr b 61 ^^^ (b >>> 6)) + w.getD 6 0 + (rotr a 1 ^^^ rotr a 8 ^^^ (a >>> 7)) + w.getD 15 0

/-- n more schedule words, newest first. -/
def sha512Sched : Nat → List W64 → List W64
  | 0, w => w
  | n + 1, w => sha512Sched n (sha512W w :: w)

/-- One round. -/
def sha512Round (s : List W64) (kw : W64) : List W64 :=
  match s with
  | [a, b, c, d, e, f, g, h] =>
    let t1 := h + (rotr e 14 ^^^ rotr e 18 ^^^ rotr e 41) + ((e &&& f) ^^^ (~~~e &&& g)) + kw
    let t2 := (rotr a 28 ^^^ rotr a 34 ^^^ rotr a 39) + ((a &&& b) ^^^ (a &&& c) ^^^ (b &&& c))
    [t1 + t2, a, b, c, d + t1, e, f, g]
  | _ => s

/-- One block. -/
def sha512Block (h : List W64) (blk : List Byte) : List W64 :=
  let w0 := ((List.range 16).map fun i => BitVec.ofNat 64 (ofBE ((blk.drop (8 * i)).take 8))).reverse
  let w := (sha512Sched 64 w0).reverse
  let s := (List.zipWith (· + ·) sha512K w).foldl sha512Round h
  List.zipWith (· + ·) h s

/-- n blocks of a padded message. -/
def sha512Blocks : Nat → List W64 → List Byte → List W64
  | 0, h, _ => h
  | n + 1, h, m => sha512Blocks n (sha512Block h (m.take 128)) (m.drop 128)

/-- SHA-512. -/
def sha512 (m : List Byte) : List Byte :=
  let p := m ++ sha512Pad m.length
  (sha512Blocks (p.length / 128) sha512H p).flatMap fun w => toBE 8 w.toNat

/-- HMAC-SHA-512. -/
def hmac512 (key m : List Byte) : List Byte :=
  let k := if 128 < key.length then sha512 key else key
  let k := k ++ List.replicate (128 - k.length) 0
  sha512 ((k.map (· ^^^ 0x5C)) ++ sha512 ((k.map (· ^^^ 0x36)) ++ m))

/-! ### Ed25519 -/

def edP : Nat := 2 ^ 255 - 19
def edL : Nat := 2 ^ 252 + 27742317777372353535851937790883648493
def edD : Nat := 37095705934669439343138083508754565189542113879843219016388785533085940283555

/-- x^e mod p, for e of at most n bits. -/
def edPow : Nat → Nat → Nat → Nat
  | 0, _, _ => 1
  | n + 1, x, e =>
    let r := edPow n (x * x % edP) (e / 2)
    if e % 2 = 1 then x * r % edP else r

def edInv (x : Nat) : Nat := edPow 255 x (edP - 2)

/-- A point in extended coordinates. -/
structure EdPt where
  x : Nat
  y : Nat
  z : Nat
  t : Nat
  deriving DecidableEq, Repr

def edZero : EdPt := ⟨0, 1, 1, 0⟩

/-- Point addition (complete). -/
def EdPt.add (p q : EdPt) : EdPt :=
  let sub (a b : Nat) : Nat := (a + edP - b % edP) % edP
  let a := sub p.y p.x * sub q.y q.x % edP
  let b := (p.y + p.x) * (q.y + q.x) % edP
  let c := 2 * p.t * q.t % edP * edD % edP
  let d := 2 * p.z * q.z % edP
  let e := sub b a
  let f := sub d c
  let g := (d + c) % edP
  let h := (b + a) % edP
  ⟨e * f % edP, g * h % edP, f * g % edP, e * h % edP⟩

/-- k times a point, k of at most n bits. -/
def EdPt.mul : Nat → Nat → EdPt → EdPt
  | 0, _, _ => edZero
  | n + 1, k, p =>
    let r := EdPt.mul n (k / 2) (p.add p)
    if k % 2 = 1 then p.add r else r

def EdPt.eq (p q : EdPt) : Bool :=
  p.x * q.z % edP == q.x * p.z % edP && p.y * q.z % edP == q.y * p.z % edP

/-- The base point. -/
def edB : EdPt :=
  let x := 15112221349535400772501151409588531511454012693041857206046113283949847762202
  let y := 46316835694926478169428394003475163141307993866256225615783033603165251855960
  ⟨x, y, 1, x * y % edP⟩

/-- The encoding of a point. -/
def EdPt.encode (p : EdPt) : List Byte :=
  let zi := edInv p.z
  let x := p.x * zi % edP
  let y := p.y * zi % edP
  toLE 32 (y + x % 2 * 2 ^ 255)

/-- The point an encoding names. -/
def edDecode (bs : List Byte) : Option EdPt :=
  let n := numAt bs 0 32
  let y := n % 2 ^ 255
  let sign := n / 2 ^ 255
  if edP ≤ y then none
  else
    let u := (y * y + edP - 1) % edP
    let v := (edD * (y * y % edP) + 1) % edP
    let x := u * edPow 3 v 3 % edP * edPow 255 (u * edPow 3 v 7 % edP) ((edP - 5) / 8) % edP
    let vx2 := v * (x * x % edP) % edP
    let x := if vx2 = u then some x
      else if (vx2 + u) % edP = 0 then some (x * edPow 255 2 ((edP - 1) / 4) % edP)
      else none
    match x with
    | none => none
    | some x =>
      if x = 0 ∧ sign = 1 then none
      else
        let x := if x % 2 ≠ sign then edP - x else x
        some ⟨x, y, 1, x * y % edP⟩

/-- Does a signature over message m verify under a public key (RFC 8032, 5.1.7)? -/
def edVerify (pk m sig : List Byte) : Bool :=
  match edDecode (pk.take 32), edDecode (sig.take 32) with
  | some a, some r =>
    let s := numAt sig 32 32
    let k := ofLE (sha512 (sig.take 32 ++ pk.take 32 ++ m)) % edL
    s < edL && ((edB.mul 253 s).mul 4 8).eq ((r.add (a.mul 253 k)).mul 4 8)
  | _, _ => false

/-- The secret scalar of a 32-byte seed. -/
def edScalar (seed : List Byte) : Nat :=
  let h := numAt (sha512 seed) 0 32
  h % 2 ^ 254 / 8 * 8 + 2 ^ 254

/-- The public key of a seed. -/
def edPublic (seed : List Byte) : List Byte := (edB.mul 255 (edScalar seed)).encode

/-- The signature of message m under a seed (RFC 8032, 5.1.6). -/
def edSign (seed m : List Byte) : List Byte :=
  let a := edScalar seed
  let prefix_ := (sha512 seed).drop 32
  let r := ofLE (sha512 (prefix_ ++ m)) % edL
  let rb := (edB.mul 253 r).encode
  let k := ofLE (sha512 (rb ++ edPublic seed ++ m)) % edL
  rb ++ toLE 32 ((r + k * a) % edL)

/-- A signature the U9 checks is over the SHA-512 digest of the signed bytes (R422). -/
def sigOk (pk signed sig : List Byte) : Bool := pk.length == 32 && edVerify pk (sha512 signed) sig

end Sys2Proof.Machine
end

