-- ==== Sys2Proof/Machine/Boot.lean ====
section
/-! DEFINITION. Keys, flash and what boot verifies (R423 to R436). -/

namespace Sys2Proof.Machine

/-! ### Flash (R425) -/

abbrev Flash := KMap Byte

/-- n bytes of a flash device; unlisted bytes are erased. -/
def Flash.read (f : Flash) (off n : Nat) : List Byte :=
  let w := f.filter fun p => off ≤ p.1 && p.1 < off + n
  (List.range n).map fun i => (KMap.get? w (off + i)).getD 0xFF

/-- Listed bytes of a run, erased ones left out. -/
def flashCells : Nat → List Byte → Flash
  | _, [] => []
  | a, b :: bs => if b = 0xFF then flashCells (a + 1) bs else (a, b) :: flashCells (a + 1) bs

/-- Replace a run of bytes. (log 90: DEDUCED) -/
def Flash.write (f : Flash) (off : Nat) (bs : List Byte) : Flash :=
  f.filter (fun p => p.1 < off) ++ flashCells off bs ++ f.filter (fun p => off + bs.length ≤ p.1)

/-- Erase [off, off + n). -/
def Flash.erase (f : Flash) (off n : Nat) : Flash := f.filter fun p => p.1 < off || off + n ≤ p.1

def Module.flash (m : Module) (bank : Nat) : Flash := if bank = 0 then m.flash0 else m.flash1
def Module.setFlash (m : Module) (bank : Nat) (f : Flash) : Module :=
  if bank = 0 then { m with flash0 := f } else { m with flash1 := f }
/-- (log 92: DEDUCED) -/
def Module.shipped (m : Module) (bank : Nat) : Bool := if bank = 0 then m.shipped0 else m.shipped1
/-- Write a run of bytes to a flash device. -/
def Module.put (m : Module) (dev off : Nat) (b : List Byte) : Module :=
  m.setFlash dev (Flash.write (m.flash dev) off b)
def Module.unship (m : Module) (bank : Nat) : Module :=
  if bank = 0 then { m with shipped0 := false } else { m with shipped1 := false }

/-- Is any byte of [off, off + n) listed? -/
def Flash.listed (f : Flash) (off n : Nat) : Bool := f.any fun p => off ≤ p.1 && p.1 < off + n

/-- Offsets of records with a 4-byte magic in [lo, lo + n), 64 B aligned. The manual does not place the records inside
the identity area (log 15: DESIGN CHOICE). -/
def Flash.records (f : Flash) (lo n m : Nat) : List Nat :=
  (f.filter fun p => lo ≤ p.1 && p.1 < lo + n && p.1 % 64 == 0 &&
    ofLE (Flash.read f p.1 4) == m).map (·.1)

def identityOff : Nat := 0x1450000
def identityLen : Nat := 0x100000
def bootCtlOff : Nat := 0x1550000
def overrideOff : Nat := 0x1560000
def configOff : Nat := 0x1050000
def configLen : Nat := 0x400000

/-! ### Keys (R423, R424) -/

def keyMagic : Nat := magic 0x43 0x48 0x56 0x4B
def enrolMagic : Nat := magic 0x43 0x48 0x56 0x45
def overrideMagic : Nat := magic 0x43 0x48 0x56 0x4F
def manifestMagic : Nat := magic 0x43 0x48 0x56 0x4D
def setMagic : Nat := magic 0x43 0x48 0x56 0x53
def blobMagic : Nat := magic 0x43 0x48 0x56 0x42

def keyPub (r : List Byte) : List Byte := bytesAt r 32 32

/-- Does a key record's hardware range hold the revision? -/
def keyHw (rev : Nat) (r : List Byte) : Bool := numAt r 8 2 ≤ rev && rev ≤ numAt r 10 2

/-- Is a key record well formed and signed by its issuer? -/
def keySigned (issuer : List Byte) (r : List Byte) : Bool :=
  numAt r 6 2 == 0 && (bytesAt r 12 20).all (· == 0) && sigOk issuer (bytesAt r 0 64) (bytesAt r 64 64)

/-- The keys in force: several may serve one purpose (R423). A firmware key keeps its record, by whose digest a manifest
names it. -/
structure Keys where
  root : List Byte := []
  fws : List (List Byte) := []
  config : List (List Byte) := []
  debug : List (List Byte) := []
  enrol : List (List Byte) := []
  owner : List Byte := []
  ownerConfig : List (List Byte) := []
  ownerDebug : List (List Byte) := []
  ceiling : Nat := 3
  ignored : Nat := 0
  deriving DecidableEq, Repr

/-- Has one of some keys signed the bytes? -/
def sigAny (pks : List (List Byte)) (signed sig : List Byte) : Bool := pks.any fun pk => sigOk pk signed sig

/-- Is an enrolment record valid on this module (R424)? -/
def enrolOk (k : Keys) (serial : Nat) (r : List Byte) : Bool :=
  numAt r 0 4 == enrolMagic && numAt r 4 1 == 1 && numAt r 5 1 ≤ 3 && numAt r 6 2 == 0 && numAt r 8 8 == serial &&
    (bytesAt r 52 140).all (· == 0) && sigAny k.enrol (bytesAt r 0 192) (bytesAt r 192 64)

/-- Take one vendor key record: a record that fails its check or whose range excludes the revision is ignored; the
root's record passes by the ROM's digest and its own signature (log 150: DEDUCED). -/
def Keys.takeVendor (m : Module) (k : Keys) (r : List Byte) : Keys :=
  if numAt r 5 1 ≠ 0 then k
  else if sha512 (keyPub r) = m.rootDigest then
    (if keySigned (keyPub r) r && keyHw m.hwRev r then k else { k with ignored := k.ignored + 1 })
  else if keySigned k.root r && keyHw m.hwRev r then
    match numAt r 4 1 with
    | 1 => { k with fws := k.fws ++ [r] }
    | 2 => { k with config := k.config ++ [keyPub r] }
    | 3 => { k with debug := k.debug ++ [keyPub r] }
    | 4 => { k with enrol := k.enrol ++ [keyPub r] }
    | _ => { k with ignored := k.ignored + 1 }
  else { k with ignored := k.ignored + 1 }

/-- Take one owner key record. -/
def Keys.takeOwner (m : Module) (k : Keys) (r : List Byte) : Keys :=
  if numAt r 5 1 = 0 then k
  else if numAt r 5 1 = 1 && keySigned k.owner r && keyHw m.hwRev r then
    match numAt r 4 1 with
    | 2 => { k with ownerConfig := k.ownerConfig ++ [keyPub r] }
    | 3 => { k with ownerDebug := k.ownerDebug ++ [keyPub r] }
    | _ => { k with ignored := k.ignored + 1 }
  else { k with ignored := k.ignored + 1 }

/-- The enrolment records of the module, each with its offset: those of both devices, which are identical but while a
write runs (R425, R426). -/
def enrolRecords (m : Module) : List (Nat × List Byte) :=
  [m.flash0, m.flash1].flatMap fun f =>
    (Flash.records f identityOff identityLen enrolMagic).map fun o => (o, Flash.read f o 256)

/-- The enrolment record in force, with its offset: the valid one with the highest sequence (R424). -/
def enrolInForce (m : Module) (k : Keys) : Option (Nat × List Byte) :=
  ((enrolRecords m).filter fun r => enrolOk k m.serial r.2).foldl
    (fun (b : Option (Nat × List Byte)) r => match b with
      | some x => if numAt x.2 16 4 < numAt r.2 16 4 then some r else some x
      | none => some r) none

/-- The enrolment record in force decides the owner. -/
def Keys.takeEnrol (m : Module) (k : Keys) : Keys :=
  match enrolInForce m k with
  | none => k
  | some (_, r) =>
    if (bytesAt r 20 32).all (· == 0) then { k with owner := [], ceiling := 3 }
    else { k with owner := bytesAt r 20 32, ceiling := numAt r 5 1 }

/-- The keys the identity area of a device yields (R423, R424). (log 150: DEDUCED) -/
def readKeys (m : Module) (f : Flash) : Keys :=
  let recs := (Flash.records f identityOff identityLen keyMagic).map fun o => Flash.read f o 128
  let root := match recs.find? (fun r => numAt r 5 1 == 0 && sha512 (keyPub r) == m.rootDigest &&
      keySigned (keyPub r) r && keyHw m.hwRev r) with
    | some r => keyPub r
    | none => []
  let k := recs.foldl (Keys.takeVendor m) { root := root }
  let k := k.takeEnrol m
  recs.foldl (Keys.takeOwner m) k

/-! ### Boot control record (R426)

Its bytes are not in the manual (log 15: DESIGN CHOICE): 0-3 sequence, 4 preferred bank, 8-23 minimums, 24-87 HMAC
over 0-23. -/

/-- The HMAC key derived from the seed; the manual gives no derivation (log 15: DESIGN CHOICE). -/
def hmacKey (m : Module) : List Byte := sha512 (m.pufSeed ++ [1])

/-- The device identity seed (log 15: DESIGN CHOICE). -/
def identitySeed (m : Module) : List Byte := (sha512 (m.pufSeed ++ [2])).take 32

/-- (log 15: DESIGN CHOICE) -/
def bootCtlOk (m : Module) (r : List Byte) : Bool := bytesAt r 24 64 == hmac512 (hmacKey m) (bytesAt r 0 24)

/-- A boot control record's bytes. (log 15: DESIGN CHOICE) -/
def bootCtlBytes (m : Module) (seq bank : Nat) (mins : List Nat) : List Byte :=
  let h := toLE 4 seq ++ toLE 1 bank ++ toLE 3 0 ++ toLE 4 (mins.getD 0 0) ++ toLE 4 (mins.getD 1 0) ++
    toLE 4 (mins.getD 2 0) ++ toLE 4 (mins.getD 3 0)
  h ++ hmac512 (hmacKey m) h

/-- The valid copy with the higher sequence, and whether it is the older one: the other is invalid and names a higher
sequence. (log 153: DEDUCED) -/
def pickCopy (ok : List Byte → Bool) (seq : List Byte → Nat) (a b : List Byte) : Option (List Byte) × Bool :=
  match ok a, ok b with
  | true, true => (some (if seq a < seq b then b else a), false)
  | true, false => (some a, decide (seq a < seq b))
  | false, true => (some b, decide (seq b < seq a))
  | false, false => (none, false)

/-- The boot control record in force, and whether it comes from the older copy: the factory's stands beside the torn
copy of a write that was cut short. (log 5: DESIGN CHOICE) -/
def readBootCtl (m : Module) : Option (List Byte) × Bool :=
  if m.shippedCtl then
    (some (bootCtlBytes m 0 0 []), Flash.listed m.flash0 bootCtlOff 88 || Flash.listed m.flash1 bootCtlOff 88)
  else pickCopy (bootCtlOk m) (fun r => numAt r 0 4) (Flash.read m.flash0 bootCtlOff 88)
    (Flash.read m.flash1 bootCtlOff 88)

/-! ### Manifests (R427, R428) -/

/-- Flash region of an image kind (Table 14.2). -/
def imageOff : Nat → Nat
  | 1 => 0x0050000
  | 2 => 0x0850000
  | 3 => 0x0C50000
  | _ => 0x0E50000
def imageLen : Nat → Nat
  | 1 => 0x800000
  | 2 => 0x400000
  | _ => 0x200000

def manifestOf (f : Flash) (kind : Nat) : List Byte := Flash.read f (0x10000 + (kind - 1) * 0x10000) 4096

def entryOk (e : List Byte) : Bool :=
  numAt e 0 1 ≤ 4 && numAt e 1 3 == 0 && numAt e 12 4 == 0

/-- The tested-with entries. -/
def manifestEntries (m : List Byte) : List (List Byte) :=
  (List.range (numAt m 152 2)).map fun i => bytesAt m (256 + 16 * i) 16

/-- The first 16 bytes of a bank's directory (Table 14.2): magic, bank number, zeros; what its other bytes hold the
manual does not use. (log 15: DESIGN CHOICE) -/
def directoryBytes (bank : Nat) : List Byte := toLE 4 (magic 0x43 0x48 0x56 0x44) ++ toLE 1 bank ++ toLE 11 0

/-- Magic, fields, signature of a manifest, by the firmware key record whose digest it gives, and the digest of its
image. -/
def manifestOk (k : Keys) (f : Flash) (kind : Nat) : Bool :=
  let m := manifestOf f kind
  let signer := k.fws.find? fun r => bytesAt m 88 64 == sha512 r
  numAt m 0 4 == manifestMagic && numAt m 4 1 == 1 && numAt m 5 1 == kind && numAt m 6 2 == 0 && numAt m 20 4 == 0 &&
  numAt m 16 4 ≤ imageLen kind && 1 ≤ numAt m 152 2 && numAt m 152 2 ≤ 64 &&
  (bytesAt m 154 102).all (· == 0) && (bytesAt m 1280 2752).all (· == 0) && (manifestEntries m).all entryOk &&
  (match signer with
    | some r => sigOk (keyPub r) (bytesAt m 0 4032) (bytesAt m 4032 64)
    | none => false) &&
  bytesAt m 24 64 == sha512 (Flash.read f (imageOff kind) (numAt m 16 4))

/-- The first failing check of an image: 3 signature or digest, 5 security version; 0 none. (log 5: DESIGN CHOICE) -/
def imageCheck (k : Keys) (mins : List Nat) (f : Flash) (kind : Nat) : Nat :=
  if !manifestOk k f kind then 3
  else if numAt (manifestOf f kind) 12 4 < mins.getD (kind - 1) 0 then 5 else 0

/-- Is a bank valid (R427)? A bank as shipped passes its checks with security versions of 0. (log 5: DESIGN CHOICE)
(log 15: DESIGN CHOICE) -/
def bankOk (m : Module) (k : Keys) (mins : List Nat) (bank : Nat) : Bool :=
  if m.shipped bank then mins.all (· == 0)
  else Flash.read (m.flash bank) 0 16 == directoryBytes bank &&
    [1, 2, 3, 4].all fun kind => imageCheck k mins (m.flash bank) kind == 0

/-- Does a manifest list a kind with a range that holds a version? -/
def listsKind (m : List Byte) (kind ver : Nat) : Bool :=
  (manifestEntries m).any fun e => numAt e 0 1 == kind && numAt e 4 4 ≤ ver && ver ≤ numAt e 8 4

/-- Are two images' manifests a covered pair (R428)? (log 91: DEDUCED) -/
def pairCovered (x y : List Byte) : Bool :=
  listsKind x (numAt y 5 1) (numAt y 8 4) || listsKind y (numAt x 5 1) (numAt x 8 4)

/-- Does a valid override record name the pair (R429)? Hardware is 64 zero bytes with the revision behind them, as the
second of the pair (log 16: DEDUCED). -/
def overrideNames (m : Module) (k : Keys) (r a b : List Byte) (rev : Option Nat) : Bool :=
  numAt r 0 4 == overrideMagic && numAt r 8 8 == m.serial &&
  sigAny (k.debug ++ k.ownerDebug) (bytesAt r 0 192) (bytesAt r 192 64) &&
  (match rev with
    | some v => bytesAt r 16 64 == a && (bytesAt r 80 64).all (· == 0) && numAt r 144 2 == v
    | none => (bytesAt r 16 64 == a && bytesAt r 80 64 == b) || (bytesAt r 16 64 == b && bytesAt r 80 64 == a))

/-- Is the pair named by an override record in the flash? -/
def overridden (m : Module) (k : Keys) (a b : List Byte) (rev : Option Nat) : Bool :=
  [m.flash0, m.flash1].any fun f =>
    (Flash.records f overrideOff 0x10000 overrideMagic).any fun o => overrideNames m k (Flash.read f o 256) a b rev

/-- Check one image against the hardware and the images started (R428): the other kind of the first uncovered pair (0
hardware), and whether an override was used. -/
def startCheck (m : Module) (k : Keys) (x : List Byte) (started : List (List Byte)) : Option Nat × Bool :=
  let hwOk := listsKind x 0 m.hwRev
  let hwOvr := overridden m k (bytesAt x 24 64) [] (some m.hwRev)
  if !hwOk && !hwOvr then (some 0, false)
  else
    let bad := started.find? fun y =>
      !pairCovered x y && !overridden m k (bytesAt x 24 64) (bytesAt y 24 64) none
    let ovr := (!hwOk && hwOvr) || started.any fun y => !pairCovered x y
    (bad.map fun y => numAt y 5 1, ovr && bad.isNone)

/-- Start images in order; the stop (kind, other) if one is uncovered, and whether an override was used. -/
def startAll (m : Module) (k : Keys) (f : Flash) : List Nat → List (List Byte) → Bool → Option (Nat × Nat) × Bool
  | [], _, o => (none, o)
  | kind :: rest, started, o =>
    let x := manifestOf f kind
    match startCheck m k x started with
    | (some other, _) => (some (kind, other), o)
    | (none, o') => startAll m k f rest (x :: started) (o || o')

/-! ### Configuration (R434, R435) -/

/-- Does a blob pass its checks on this module? -/
def blobOk (m : Module) (k : Keys) (b : List Byte) : Bool :=
  let kind := numAt b 5 1
  let signer := numAt b 6 1
  numAt b 0 4 == blobMagic && numAt b 4 1 == 1 && 1 ≤ kind && kind ≤ 3 && signer ≤ 1 && numAt b 7 1 == 0 &&
  numAt b 18 2 == 0 && (bytesAt b 92 100).all (· == 0) && numAt b 16 2 == m.hwRev &&
  (numAt b 8 8 == m.serial || (kind == 3 && numAt b 8 8 == 0)) && !(kind == 1 && signer == 1) &&
  bytesAt b 28 64 == sha512 (bytesAt b 256 (numAt b 24 4)) &&
  sigAny (if signer = 0 then k.config else k.ownerConfig) (bytesAt b 0 192) (bytesAt b 192 64)

/-- The blobs of a configuration set at an offset: n of them, each 256 B and its body. -/
def setBlobs (f : Flash) : Nat → Nat → List (List Byte)
  | 0, _ => []
  | n + 1, off =>
    let len := numAt (Flash.read f (off + 24) 4) 0 4
    Flash.read f off (256 + len) :: setBlobs f n (off + 256 + len)

/-- Are no two blobs of one kind (R434)? -/
def kindsDiffer : List (List Byte) → Bool
  | [] => true
  | b :: bs => !(bs.any fun x => numAt x 5 1 == numAt b 5 1) && kindsDiffer bs

/-- A configuration set's header and blobs: none where its header is wrong, or two blobs are of one kind (R434). -/
def readSet (f : Flash) : List Byte × List (List Byte) :=
  let h := Flash.read f configOff 64
  let bs := if numAt h 0 4 = setMagic ∧ 1 ≤ numAt h 8 4 ∧ numAt h 8 4 ≤ 3 ∧ (bytesAt h 12 52).all (· == 0) then
      setBlobs f (numAt h 8 4) (configOff + 64)
    else []
  (h, if kindsDiffer bs then bs else [])

/-- The bytes of a configuration set. -/
def setBytes (seq : Nat) (blobs : List (List Byte)) : List Byte :=
  toLE 4 setMagic ++ toLE 4 seq ++ toLE 4 blobs.length ++ List.replicate 52 0 ++ blobs.flatten

/-- Does a copy of the set hold a valid trims blob? -/
def setOk (m : Module) (k : Keys) (s : List Byte × List (List Byte)) : Bool :=
  s.2.any fun b => blobOk m k b && numAt b 5 1 == 1

/-! ### Repair (R328, R435) -/

/-- Is a repair target inside the geometry (Table 10.6)? -/
def Core.repairTargetOk (c : Core) (t kind : Nat) : Bool :=
  1 ≤ kind && kind ≤ 3 && fld t 23 8 == 0 && fld t 54 51 < c.coreDies && (kind == 1 || fld t 7 0 < 36)

/-- The resource a repair takes: its pool and how many that pool has (Table 10.7). -/
def repairPool (t kind : Nat) : Nat × Nat :=
  match kind with
  | 1 => (t / 2 ^ 46 * 4 + 1, 2)
  | 2 => (t / 2 ^ 56 * 4 + 2, 4)
  | _ => (t / 2 ^ 61 * 4 + 3, 8)

/-- Is a spare left for it? Training has taken some of a link's (R327). -/
def Core.spareLeft (c : Core) (t kind : Nat) : Bool :=
  let p := repairPool t kind
  (if kind = 3 then c.mem.lanes.getD (t / 2 ^ 61) 0 else 0) +
    (c.mem.repairs.filter fun r => r.2 == kind && (repairPool r.1 r.2).1 == p.1).length < p.2

/-- Apply one entry of a repair map (R435): one the stack cannot apply is skipped with 0x9031. -/
def Core.applyRepairEntry (c : Core) (e : List Byte) : Core :=
  let t := numAt e 0 8
  let kind := numAt e 8 1
  if c.repairTargetOk t kind && c.spareLeft t kind then
    { c with mem := { c.mem with repairs := c.mem.repairs ++ [(t, kind)] } }
  else c.raise { code := 0x9031, source := srcOf 0x09 (t / 2 ^ 61 * 32 + fld t 60 56), fmt := 2, detail := detail2 t 0 }

/-- Apply a repair-map body. -/
def Core.applyRepairMap (c : Core) (body : List Byte) : Core :=
  (List.range (numAt body 0 4)).foldl (fun c i => c.applyRepairEntry (bytesAt body (8 + 16 * i) 16)) c

/-! ### The verdict of boot -/

/-- BOOT_STOP (Table 14.8). -/
def bootStop (reason other kind step : Nat) : Nat := reason * 2 ^ 24 + other * 2 ^ 16 + kind * 2 ^ 8 + step

/-- Record where boot stops. -/
def Core.stopBoot (c : Core) (v : Nat) (code : Nat) : Core :=
  let c := { c with sec := { c.sec with bootFail := v } }
  (c.setObj 0xC002 0 v).note { code := code, source := srcOf 0x10 0 }

/-- Note n key records ignored. -/
def Core.noteIgnored (c : Core) (n : Nat) : Core :=
  (List.range n).foldl (fun c _ => c.note { code := 0xC008, source := srcOf 0x10 0 }) c

/-- The keys come into force. -/
def Core.takeKeys (c : Core) (k : Keys) : Core :=
  let c := { c with sec := { c.sec with
    owner := k.owner, fwRecords := k.fws, configKeys := k.config, debugKeys := k.debug, enrolKeys := k.enrol
    ownerConfigKeys := k.ownerConfig, ownerDebugKeys := k.ownerDebug } }
  (c.setObj 0xC043 0 k.ceiling).setBlob 0xC042 0 (if k.owner.isEmpty then List.replicate 64 0 else sha512 k.owner)

/-- The keys in force. -/
def Core.keys (c : Core) : Keys :=
  { fws := c.sec.fwRecords, config := c.sec.configKeys, debug := c.sec.debugKeys, enrol := c.sec.enrolKeys
    owner := c.sec.owner, ownerConfig := c.sec.ownerConfigKeys, ownerDebug := c.sec.ownerDebugKeys
    ceiling := c.obj 0xC043 0 }

/-- Images start: their versions, security versions and digests become readable (0xC020). -/
def Core.imagesStarted (c : Core) (m : Module) (bank : Nat) : Core :=
  let c := c.setObj 0xC001 0 bank
  let c := { c with sec := { c.sec with bank := bank } }
  if m.shipped bank then c
  else
    [1, 2, 3, 4].foldl
      (fun c k =>
        let x := manifestOf (m.flash bank) k
        let c := { c with sec := { c.sec with digests := KMap.set c.sec.digests k (bytesAt x 24 64) } }
        ((c.setObj (0xC020 + k) 1 (numAt x 8 4)).setObj (0xC020 + k) 2 (numAt x 12 4)).setBlob (0xC020 + k) 3
          (bytesAt x 24 64)) c

/-- The configuration set comes into force: blobs that fail are dropped (R434). (log 92: DEDUCED) -/
def Core.takeConfig (c : Core) (m : Module) (k : Keys) (s : List Byte × List (List Byte)) : Core :=
  let good := s.2.filter (blobOk m k)
  let bad := s.2.filter fun b => !blobOk m k b && numAt b 5 1 != 1
  let c := bad.foldl (fun c _ => c.note { code := 0xC007, source := srcOf 0x10 0 }) c
  let c := c.setObj 0xC400 0 (numAt s.1 4 4)
  { c with sec := { c.sec with
    configSeq := numAt s.1 4 4,
    blobDigests := good.foldl (fun d b => KMap.set d (numAt b 5 1) (bytesAt b 28 64)) [] } }

/-- The configuration set that boot uses, the valid copy with the higher sequence, and whether it is the older one
(R426, R434). (log 92: DEDUCED) (log 153: DEDUCED) -/
def setInForce (m : Module) (k : Keys) : Option (List Byte × List (List Byte)) × Bool :=
  let a := readSet m.flash0
  let b := readSet m.flash1
  let seq (s : List Byte × List (List Byte)) : Nat := numAt s.1 4 4
  let ok (s : List Byte × List (List Byte)) : Bool := if m.shippedCfg then !s.2.isEmpty else setOk m k s
  match ok a, ok b with
  | true, true => (some (if seq a < seq b then b else a), false)
  | true, false => (some a, decide (seq a < seq b))
  | false, true => (some b, decide (seq b < seq a))
  | false, false =>
    (none, m.shippedCfg && (Flash.listed m.flash0 configOff 64 || Flash.listed m.flash1 configOff 64))

/-- Boot from the older copy of a record is logged (R426); a quote names that of the configuration set (Table 14.6). -/
def Core.noteOlder (c : Core) (older cfg : Bool) : Core :=
  if older then
    ({ c with sec := { c.sec with olderCopy := c.sec.olderCopy || cfg } }).note { code := 0xC005, source := srcOf 0x10 0 }
  else c

/-- Boot step 5 reads and checks the configuration set (R434): whether boot goes on. -/
def Core.bootConfig (c : Core) (m : Module) (k : Keys) : Bool × Core :=
  match setInForce m k with
  | (some s, older) => (true, (c.noteOlder older true).takeConfig m k s)
  | (none, older) => if m.shippedCfg then (true, c.noteOlder older true) else (false, c.stopBoot (bootStop 3 0 0 5) 0xC006)

/-- Boot step 6 loads the repair maps of the set in force (R435). -/
def Core.bootRepairs (c : Core) (m : Module) (k : Keys) : Core :=
  let bs := match (setInForce m k).1 with
    | some s => s.2
    | none => []
  (bs.filter fun b => blobOk m k b && numAt b 5 1 == 2).foldl
    (fun c b => c.applyRepairMap (bytesAt b 256 (numAt b 24 4))) c

/-- An image pair is uncovered: the stop at a step (R428). -/
def Core.stopPair (c : Core) (step : Nat) (p : Nat × Nat) : Core := c.stopBoot (bootStop 2 p.2 p.1 step) 0xC003

/-- Boot steps 4 to 6: kinds 4 and 1 are checked and started, the configuration set is read, kinds 3 and 2 are checked
and started, the repair map is loaded (R428, R430, R434). -/
def Core.bootImages (c : Core) (m : Module) (k : Keys) (bank : Nat) : Core :=
  let f := m.flash bank
  let first := if m.shipped bank then (none, false) else startAll m k f [4, 1] [] false
  match first with
  | (some p, _) => c.stopPair 4 p
  | (none, ovr) =>
    match c.bootConfig m k with
    | (false, c) => c
    | (true, c) =>
      let second := if m.shipped bank then (none, false) else startAll m k f [3, 2] [manifestOf f 1, manifestOf f 4] ovr
      match second with
      | (some p, _) => c.stopPair 5 p
      | (none, ovr) =>
        let c := if ovr then ({ c with sec := { c.sec with overrideBoot := true } }).note
            { code := 0xC004, source := srcOf 0x10 0 } else c
        (c.imagesStarted m bank).bootRepairs m k

/-- Where the certificate chain lies in the identity area; the helper data stands before it (log 15: DESIGN CHOICE). -/
def certOff : Nat := identityOff + 0x10000

/-- Consecutive DER certificates from an offset on: each is a SEQUENCE whose length stands in two bytes. -/
def derRun (f : Flash) : Nat → Nat → List Byte
  | 0, _ => []
  | n + 1, off =>
    let h := Flash.read f off 4
    if numAt h 0 1 = 0x30 ∧ numAt h 1 1 = 0x82 then
      let len := 4 + 256 * numAt h 2 1 + numAt h 3 1
      Flash.read f off len ++ derRun f n (off + len)
    else []

/-- The vendor's certificate chain in the identity area (R436), of at most 8 certificates (log 15: DESIGN CHOICE). -/
def certRun (f : Flash) : List Byte := derRun f 8 certOff

/-- What boot finds (R427 to R436), from step 1 on; `agree`: the two ROMs reach the same verdict over the bytes they run
(R432). (log 145: DESIGN CHOICE) -/
def Core.bootVerify (c : Core) (agree : Bool) : Core :=
  let m := c.module_
  if m.pufSeed.length ≠ 32 then
    ({ c with sec := { c.sec with identity := false } }).stopBoot (bootStop 4 0 0 1) 0xC00A
  else
    let k := readKeys m m.flash0
    let c := (((c.noteIgnored k.ignored).takeKeys k).setBlob 0xC040 0 (edPublic (identitySeed m))).setBlob 0xC041 0
      (certRun m.flash0)
    match readBootCtl m with
    | (none, _) => c.stopBoot (bootStop 3 0 0 2) 0xC006
    | (some r, older) =>
      let c := c.noteOlder older false
      let pref := numAt r 4 1 % 2
      let mins := (List.range 4).map fun i => numAt r (8 + 4 * i) 4
      let c := (c.setObj 0xC010 0 pref)
      let c := (List.range 4).foldl (fun c i => c.setObj 0xC030 (i + 1) (mins.getD i 0)) c
      if !agree then c.stopBoot (bootStop 5 0 0 3) 0xC009
      else if bankOk m k mins pref then c.bootImages m k pref
      else if bankOk m k mins (1 - pref) then
        (c.note { code := 0xC001, source := srcOf 0x10 0 }).bootImages m k (1 - pref)
      else c.stopBoot (bootStop 1 0 0 3) 0xC002

/-! ### Entering BOOT -/

/-- The security engine draws the device seeds (R93, R135, R166, R225, R282): 64 free bits each.
(log 9: DESIGN CHOICE) -/
def Core.drawSeeds (c : Core) : Core :=
  [0x4A10, 0x5410, 0x3A10, 0x6410, 0x8030].foldl
    (fun c i =>
      let (v, c) := c.draw (2 ^ 64)
      c.setObj i 0 v) c

/-- Clear bits of an object. -/
def Core.clearBits (c : Core) (index sub : Nat) (ns : List Nat) : Core :=
  let v := c.obj index sub
  let w := ns.foldl (fun (w : Nat) n => if bitAt w n then w - 2 ^ n else w) v
  if w = v then c else c.setObj index sub w

/-- The next boot control record: one sequence on from the one in force. -/
def Core.nextBootCtl (c : Core) (bank : Nat) (mins : List Nat) : List Byte :=
  let m := c.module_
  let seq := match readBootCtl m with
    | (some r, _) => numAt r 0 4
    | (none, _) => 0
  bootCtlBytes m (seq + 1) bank mins

/-- The minimums as they are applied, and the booted bank's security versions. -/
def Core.svnMins (c : Core) : List Nat := (List.range 4).map fun i => c.obj 0xC030 (i + 1)
def Core.bootedSvns (c : Core) : List Nat := (List.range 4).map fun i => c.obj (0xC021 + i) 2

/-- The record that a commit (3) or a confirm (4) writes (R441). -/
def Core.updRecord (c : Core) (run : Nat) : List Byte :=
  if run = 3 then c.nextBootCtl c.sec.updBank c.svnMins else c.nextBootCtl (c.obj 0xC010 0) c.bootedSvns

/-- The device whose copy a write replaces first (R426): not the one that holds the only valid copy. -/
def firstDev (ok0 ok1 : Bool) : Nat := if ok0 && !ok1 then 1 else 0

/-- The device whose boot control record a write replaces first. -/
def ctlFirst (m : Module) : Nat :=
  firstDev (bootCtlOk m (Flash.read m.flash0 bootCtlOff 88)) (bootCtlOk m (Flash.read m.flash1 bootCtlOff 88))

/-- The copy of a boot control record that was being written when the write ended is torn: free bytes.
(log 154: DESIGN CHOICE) -/
def Core.tearCtl (c : Core) (dev : Nat) : Core :=
  let (b, c) := c.drawBytes 88
  { c with module_ := c.module_.put dev bootCtlOff b }

/-- A write of the boot control record ends before the first copy (0), inside it (1), or inside the second one (2). -/
def Core.cutCtl (c : Core) (v : Nat) (b : List Byte) : Core :=
  let d := ctlFirst c.module_
  if v = 0 then c
  else if v = 1 then c.tearCtl d
  else { c with module_ := { c.module_.put d bootCtlOff b with shippedCtl := false } }.tearCtl (1 - d)

/-- A reset or power loss inside a commit or a confirm (R426, R441), at a free place (log 154: DESIGN CHOICE). -/
def Core.cutUpdate (c : Core) : Core :=
  match c.sec.updRun with
  | some 3 | some 4 =>
    let (v, c') := c.draw 3
    c'.cutCtl v (c.updRecord (c.sec.updRun.getD 0))
  | _ => c

/-- A reset or power loss inside a write of two copies (R426): what it had not reached stands as before, and the copy it
was replacing is torn, free bytes (log 154: DESIGN CHOICE). -/
def Core.cutWrite (w : FlashWrite) (c : Core) : Core :=
  let restore (m : Module) : Module := { m with shippedCfg := w.cfg, shippedCtl := w.ctl }
  if w.second ≤ c.now then c
  else
    let (b, c) := c.drawBytes w.oldA.length
    let m := c.module_
    { c with module_ :=
        if w.first ≤ c.now then m.put (1 - w.dev) w.off b
        else restore ((m.put w.dev w.off (if w.start ≤ c.now then b else w.oldA)).put (1 - w.dev) w.off w.oldB) }

/-- What a reset or power loss leaves of the writes that run, the newest undone first (R426). -/
def Core.cutWrites (c : Core) : Core :=
  let c := c.module_.writes.foldr Core.cutWrite c.cutUpdate
  { c with module_ := { c.module_ with writes := [] } }

/-- Everything as BOOT begins: defaults, empty units, memory zero (R334); what survives is the module itself, its pins,
the host's memory and link, and the free values. (log 8: DESIGN CHOICE) -/
def Core.fresh (c : Core) : Core :=
  let c := c.cutWrites
  { free := c.free, module_ := c.module_, pins := c.pins, mem := { host := c.mem.host }, links := { link := c.links.link } }

/-- The module is without power: nothing on it holds state (R12), the JTAG instruction in force with the rest. -/
def Core.dark (c : Core) : Core := { c.fresh with pins := { c.pins with jtag := 1 } }

/-- BOOT begins. -/
def Core.startBoot (c : Core) : Core := c.fresh

/-- What the boot sequence does in steps 1 to 5: seeds are drawn, the flash is read and checked. -/
def Core.runBoot (c : Core) (agree : Bool) : Core := c.drawSeeds.bootVerify agree

/-- The stacks that fail training at step 6 (R327): their link has more failed lanes than the 8 that spares replace, or
they fail otherwise. (log 145: DESIGN CHOICE) -/
def untrained (t : BootFinds) : List Nat :=
  (List.range 8).filter fun s => t.untrained.contains s || 8 < t.lanes.getD s 0

/-- Stacks have failed training: they are not up, and each logs 0x9015 (R327). (log 145: DESIGN CHOICE) -/
def Core.trainFails (c : Core) (ss : List Nat) : Core :=
  ss.foldl (fun c s => c.raise { code := 0x9015, own := 3, source := srcOf 0x09 (s * 32) }) (c.clearBits 0x9002 0 ss)

/-- The self-tests of step 7: what fails is cleared from its availability mask, and from the group masks (R79, R133,
R204, R233, R267). (log 145: DESIGN CHOICE) -/
def Core.selfTests (c : Core) (t : BootFinds) : Core :=
  let third (k : Nat) : List Nat := (t.tiles.filter fun n => n / 64 == k).map (· % 64)
  let c := ([0, 1, 2] : List Nat).foldl (fun (c : Core) k =>
    (List.range 16).foldl (fun (c : Core) g => c.clearBits (0x4100 + g) (k + 1) (third k)) (c.clearBits 0x4002 (k + 1) (third k))) c
  let c := (List.range 4).foldl (fun (c : Core) g => c.clearBits (0x5100 + g) 1 t.arrays) (c.clearBits 0x5002 0 t.arrays)
  let c := (c.clearBits 0x5801 0 t.precision).clearBits 0x6001 0 t.engines
  ((c.clearBits 0x6002 0 t.walkers).clearBits 0x6400 0 t.samplers).clearBits 0x7400 0 t.updaters

end Sys2Proof.Machine
end

