-- ==== Sys2Proof/Machine/Reach.lean ====
section
/-! DEFINITION. Who reaches which object in which device state (R379 to R383), and the record of an access's outcome
(R374). -/

namespace Sys2Proof.Machine

/-- Statuses of Table 12.3. -/
def stOk : Nat := 1
def stDenied : Nat := 2
def stNoObject : Nat := 3
def stType : Nat := 4
def stStaged : Nat := 5
def stBusy : Nat := 6

/-- The tally an object 0xA200+i:ss is. -/
def tallyOf (index sub : Nat) : Nat := 256 * (index - 0xA200) + sub

def isTally (index : Nat) : Bool := 0xA200 ≤ index && index ≤ 0xA20F
def isQueueObj (index : Nat) : Bool := 0xA100 ≤ index && index ≤ 0xA1FF

/-- What a VF reaches (R381). -/
def Core.vfReach (c : Core) (n index sub : Nat) (write : Bool) : Bool :=
  if isTally index then c.ownsTally n (tallyOf index sub)
  else if isQueueObj index then c.queueFn (index - 0xA100) == n && (!write || sub == 9)
  else !write && 0x1000 ≤ index && index ≤ 0x10FF

/-- The challenge that is live: it lives 60 s on the timebase (R439). -/
def Core.liveChallenge (c : Core) : Option (List Byte) :=
  if c.now < c.sec.challengeAt + 60000000000 then c.sec.challenge else none

/-- Is an object of access right RWL? -/
def isRwl (index sub : Nat) : Bool :=
  match objRow? index sub with
  | some r => r.acc == 6
  | none => false

/-- What a peer reaches (R382). -/
def Core.peerReach (c : Core) (index sub : Nat) (write : Bool) : Bool :=
  if write then bitAt (c.obj 0x1024 0) (index / 4096) && !isRwl index sub
  else bitAt (c.obj 0x1023 0) (index / 4096)

/-- Identity, keystone, security and firmware objects (R383). -/
def standbyIndex (index : Nat) : Bool :=
  (0x1000 ≤ index && index ≤ 0x10FF) || (0x1F00 ≤ index && index ≤ 0x1F04) || (0xC000 ≤ index && index ≤ 0xCFFF)

/-- Does the device state let a source reach an index (R383)? -/
def stateReach (dev : Dev) (src : Src) (index : Nat) (write : Bool) : Bool :=
  match dev with
  | .off => false
  | .boot => src == .ringmaster || (!write && 0x1000 ≤ index && index ≤ 0x1FFF)
  | .standby => standbyIndex index
  | _ => true

/-- May the source reach the object at all? The vendor service range is closed without VENDOR unlock (R383); with it the
range holds no object of this manual, so an access there answers NO_OBJECT (R369, log 157: DEDUCED). -/
def Core.reach (c : Core) (dev : Dev) (src : Src) (index sub : Nat) (write : Bool) : Bool :=
  stateReach dev src index write &&
  (match src with
    | .vf n => c.vfReach n index sub write
    | .peer _ => c.peerReach index sub write
    | _ => true) && (index < 0xF000 || c.sec.level == 3)

/-- Is a source the Kimal ring or PF BAR0 (R439, Table 12.2)? -/
def ringOrPf : Src → Bool
  | .ring => true
  | .pf _ => true
  | _ => false

/-- Record the outcome of an access: its status and the data it returned; direct access also changes DIRECT_STATUS
(R379). -/
def Core.noteAnswer (c : Core) (src : Src) (index sub status : Nat) (data : List Byte := []) : Core :=
  let d := { c.dict with lastStatus := status, lastData := data }
  { c with dict := if src = .pf true then { d with direct := status + 256 * okey index sub } else d }

/-- Answer an access. The ringmaster's and the dictionary's memory is read for it (R333). -/
def Core.answer (c : Core) (src : Src) (index sub status : Nat) (data : List Byte := []) : Core :=
  (c.sysRead sysRingmaster).noteAnswer src index sub status data

/-- Does a source's path carry an access to the object at all, before the object's own rules: direct access carries
nothing that is not a scalar (R379)? -/
def directBad (src : Src) (index sub : Nat) : Bool :=
  src == .pf true && (match objRow? index sub with
    | some r => tyBytes r.ty == 0
    | none => false)

/-- Whether a path, the device state and the unlock let a source write an object that has a command of its own: the
status that refuses it, or OK (R369, R379, R383). -/
def Core.opGate (c : Core) (dev : Dev) (src : Src) (index sub : Nat) : Nat :=
  if !c.reach dev src index sub true then stDenied
  else if directBad src index sub then stType
  else if isRwl index sub && !(ringOrPf src && decide (2 ≤ c.sec.level)) then stDenied
  else stOk

/-- Run a write through its gate; `body` answers a status of its own. -/
def Core.gated (c : Core) (dev : Dev) (src : Src) (index sub : Nat) (body : Core → Nat × Core) : Core :=
  let st := c.opGate dev src index sub
  if st = stOk then
    let (st, c) := body c
    c.answer src index sub st
  else c.answer src index sub st

end Sys2Proof.Machine
end

