-- ==== Sys2Proof/Machine/Fyven.lean ====
section
/-! DEFINITION. Fyven ports (R337 to R350): training, flits, credits, retry, arbitration, routing, and the device's own
requests and messages on their way to a port. -/

namespace Sys2Proof

open Sys2Proof.Machine

/-! ### The 256 bytes of a flit (R341) -/

/-- The header (Table 11.4). -/
def Flit.header (x : Flit) : Nat :=
  x.kind % 16 * 2 ^ 92 + x.cls % 4 * 2 ^ 90 + x.seq % 4096 * 2 ^ 78 + x.ack % 4096 * 2 ^ 66 + x.creditClass % 4 * 2 ^ 64 +
    x.credits % 1024 * 2 ^ 54 + x.tkind % 64 * 2 ^ 48 + x.dest % 256 * 2 ^ 40 + x.src % 256 * 2 ^ 32 + x.hops % 8 * 2 ^ 29 +
    x.tag % 2 ^ 17

/-- Bytes 0 to 251, which the CRC covers. -/
def Flit.body (x : Flit) : List Byte := toLE 12 x.header ++ bytesAt x.payload 0 240

/-- The whole flit (Table 11.3). -/
def Flit.bytes (x : Flit) : List Byte := x.body ++ toLE 4 x.crc

/-- A flit with its CRC-32C in place. -/
def Flit.seal (x : Flit) : Flit := { x with crc := crc32c x.body }

/-- Does the CRC hold? -/
def Flit.crcGood (x : Flit) : Bool := x.crc == crc32c x.body

end Sys2Proof

namespace Sys2Proof.Machine

/-- A port. -/
def Core.port (c : Core) (f : Nat) : Port := KMap.getD c.links.ports f {}

/-- Replace a port. -/
def Core.setPort (c : Core) (f : Nat) (p : Port) : Core :=
  { c with links := { c.links with ports := KMap.set c.links.ports f p } }

/-- This device's member number (0x8001:00). -/
def Core.me (c : Core) : Nat := c.obj 0x8001 0

/-- The receive buffer of a class, in flits (Table 11.5). -/
def classBuffer : Nat → Nat
  | 0 => 32
  | 1 => 1024
  | 2 => 1024
  | _ => 128

/-- Where a flit for a member goes (R349). -/
inductive Route where
  | self
  | via (port : Nat)
  | none
  deriving DecidableEq, Repr

/-- The route entry of a member: the primary port, or the alternate while the primary is not ACTIVE. -/
def Core.route (c : Core) (dest : Nat) : Route :=
  let e := c.obj 0x8200 dest
  let usable (x : Nat) : Route := if x = 6 then .self else if x < 6 ∧ (c.port x).state = 3 then .via x else .none
  match usable (fld e 2 0) with
  | .none => usable (fld e 5 3)
  | r => r

/-- A flit of this device. -/
def Core.mkFlit (c : Core) (cls dest tkind tag : Nat) (payload : List Byte) : Flit :=
  { kind := 1, cls := cls, seq := 0, ack := 0, creditClass := 0, credits := 0, tkind := tkind, dest := dest, src := c.me,
    hops := c.obj 0x8201 0, tag := tag, payload := payload ++ List.replicate (240 - payload.length) 0,
    crc := 0, fecFailed := false }

/-! ### Admission (R345) -/

/-- Class-0 tokens at the present time: 1 % of the port rate, at most 8 flits. -/
def Port.meterNow (p : Port) (now : Nat) : Nat :=
  min 32768 (p.meter + (now - p.meterAt) * (if p.lanes = 4 then 17 else 34))

/-- A flit joins the queue of its class. -/
def Port.enqueue (p : Port) (x : Flit) (fwd : Bool) : Port :=
  if fwd then { p with fwq := KMap.set p.fwq x.cls (KMap.getD p.fwq x.cls [] ++ [x]) }
  else { p with txq := KMap.set p.txq x.cls (KMap.getD p.txq x.cls [] ++ [x]) }

/-- Class-0 offers are admitted in order, each for a token, while there is one; with the time they waited in sum. -/
def Port.letIn (p : Port) (now : Nat) : Nat → Port × Nat
  | 0 => (p, 0)
  | n + 1 =>
    match p.offers with
    | [] => (p, 0)
    | o :: os =>
      if p.meter < 4096 then (p, 0)
      else
        let (q, w) := Port.letIn (({ p with offers := os, meter := p.meter - 4096 } : Port).enqueue o.flit o.fwd) now n
        (q, w + (now - o.at_))

/-- Admit what the meter's tokens allow now; 0x8900+f:09 counts the waits. -/
def Core.admitAll (c : Core) (f : Nat) : Core :=
  let p := c.port f
  let p := { p with meter := p.meterNow c.now, meterAt := c.now }
  let (q, w) := p.letIn c.now p.offers.length
  (c.setPort f q).bump (0x8900 + f) 9 w

/-- Hand a flit to a port: one of class 0 waits for admission. -/
def Core.handPort (c : Core) (f : Nat) (x : Flit) (fwd : Bool) : Core :=
  let p := c.port f
  if x.cls = 0 then
    (c.setPort f { p with offers := p.offers ++ [{ flit := x, at_ := c.now, fwd := fwd }] }).admitAll f
  else c.setPort f (p.enqueue x fwd)

/-- Hand a flit to the port of its route; none when no ACTIVE route leads there (R349). -/
def Core.send (c : Core) (x : Flit) : Option Core :=
  match c.route x.dest with
  | .via f => some (c.handPort f x false)
  | _ => none

/-- Hand flits over, or none of them. -/
def Core.sendAll (c : Core) : List Flit → Option Core
  | [] => some c
  | x :: xs => (c.send x).bind fun c => c.sendAll xs

/-- Hand flits over, dropping what finds no route. -/
def Core.sendOrDrop (c : Core) (xs : List Flit) : Core := (c.sendAll xs).getD c

/-! ### Answers to exchange messages (R347) -/

/-- A batch of answers leaves in one XANS. -/
def Core.sendAnswers (c : Core) (b : AnsBatch) : Core :=
  c.sendOrDrop [c.mkFlit b.cls b.member 8 0 (b.items.flatMap fun a => toLE 4 (a.1 % 2 ^ 17 + a.2 * 2 ^ 17))]

/-- An answer joins the batch of its member and class, which leaves when it holds 60, or within 100 ns of its first:
after a free time (log 146: DESIGN CHOICE). -/
def Core.pushAnswer (c : Core) (member cls tag code : Nat) : Core :=
  let mine (b : AnsBatch) : Bool := b.member == member && b.cls == cls
  let set (c : Core) (bs : List AnsBatch) : Core := { c with xch := { c.xch with answers := bs } }
  match c.xch.answers.find? mine with
  | none =>
    let (h, c) := c.draw 101
    set c (c.xch.answers ++ [{ member := member, cls := cls, due := c.now + h, items := [(tag, code)] }])
  | some b =>
    let b := { b with items := b.items ++ [(tag, code)] }
    if b.items.length < 60 then set c (c.xch.answers.map fun x => if mine x then b else x)
    else (set c (c.xch.answers.filter fun x => !mine x)).sendAnswers b

/-- Batches whose time has come leave. (log 146: DESIGN CHOICE) -/
def Core.flushAnswers (c : Core) : Core :=
  let now := c.now
  let c' := { c with xch := { c.xch with answers := c.xch.answers.filter fun b => now < b.due } }
  (c.xch.answers.filter fun b => b.due ≤ now).foldl Core.sendAnswers c'

/-! ### Tags (R364) -/

/-- Tags not held. -/
def Core.tagsFree (c : Core) : Nat := 131072 - c.links.txns.length

/-- The traffic that tags are reserved for (R364): class 0 with the dictionary, and inbound PCIe. -/
def TxnUse.class0 : TxnUse → Bool
  | .xcmd => true
  | .dict => true
  | _ => false
def TxnUse.inbound : TxnUse → Bool
  | .bar4 _ => true
  | _ => false

/-- Tags of a reserve of n that its traffic does not hold now. (log 62: DEDUCED) -/
def Core.reserveLeft (c : Core) (n : Nat) (mine : TxnUse → Bool) : Nat :=
  n - (c.links.txns.filter fun p => mine p.2.use).length

/-- Tags that a use leaves alone: what is left of the reserves that are not its own (R364). (log 62: DEDUCED) -/
def Core.tagsKept (c : Core) (use : TxnUse) : Nat :=
  (if use.class0 then 0 else c.reserveLeft 1024 TxnUse.class0) +
    (if use.inbound then 0 else c.reserveLeft 4096 TxnUse.inbound)

/-- The lowest free tag that a use may take (R364). -/
def Core.freeTag (c : Core) (use : TxnUse) : Option Nat :=
  if c.tagsFree ≤ c.tagsKept use then none
  else (List.range (c.links.txns.length + 1)).find? fun t => (KMap.get? c.links.txns t).isNone

/-- Open a transaction. -/
def Core.openTxn (c : Core) (t : Nat) (x : Txn) : Core :=
  { c with links := { c.links with txns := KMap.set c.links.txns t x } }


/-- The flits of a WR: the first holds 224 bytes, the rest 240 (Table 11.6). -/
def Core.wrFlits (c : Core) (cls dest t addr : Nat) (data : List Byte) : List Flit :=
  let first := c.mkFlit cls dest 4 t (toLE 8 addr ++ toLE 4 data.length ++ toLE 4 0 ++ data.take 224)
  let rest := data.drop 224
  first :: (List.range (ceilDiv rest.length 240)).map fun i =>
    c.mkFlit cls dest 5 t ((rest.drop (240 * i)).take 240)

/-- The flits of a request: a WR's, or one RD flit. -/
def Core.reqFlits (c : Core) (w : TagWait) (t : Nat) : List Flit :=
  match w.data with
  | some bs => c.wrFlits w.cls w.peer t w.addr bs
  | none => [c.mkFlit w.cls w.peer 1 t (toLE 8 w.addr ++ toLE 4 w.len)]

/-- Send a request under a tag; one whose route has gone meanwhile ends at once, without one (R349). -/
def Core.sendUnder (c : Core) (w : TagWait) (t : Nat) : Core :=
  if c.route w.peer = .none then { c with links := { c.links with ended := c.links.ended ++ [w] } }
  else
    (c.sendOrDrop (c.reqFlits w t)).openTxn t
      { use := w.use, peer := w.peer, addr := w.addr, len := w.len, got := [], at_ := c.now }

/-- Ask a peer; a request that finds no tag waits for one. none: no route. (log 62: DEDUCED) -/
def Core.ask (c : Core) (w : TagWait) : Option Core :=
  if c.route w.peer = .none then none
  else
    match c.freeTag w.use with
    | some t => some (c.sendUnder w t)
    | none => some { c with links := { c.links with tagWaits := c.links.tagWaits ++ [w] } }

/-- Ask a peer for bytes. -/
def Core.sendRd (c : Core) (cls dest addr len : Nat) (use : TxnUse) : Option Core :=
  c.ask { use := use, cls := cls, peer := dest, addr := addr, len := len, data := none, at_ := c.now }

/-- Write bytes to a peer. -/
def Core.sendWr (c : Core) (cls dest addr : Nat) (data : List Byte) (use : TxnUse) : Option Core :=
  c.ask { use := use, cls := cls, peer := dest, addr := addr, len := data.length, data := some data, at_ := c.now }

/-- Waiting requests take freed tags, oldest first among those their tags would serve; 0xA880:06 counts their waits.
(log 62: DEDUCED) -/
def Core.serveWaits (c : Core) : Nat → Core
  | 0 => c
  | n + 1 =>
    match c.links.tagWaits.find? fun w => (c.freeTag w.use).isSome with
    | none => c
    | some w =>
      match c.freeTag w.use with
      | none => c
      | some t =>
        ((({ c with links := { c.links with tagWaits := c.links.tagWaits.erase w } }).bump 0xA880 6
          (c.now - w.at_)).sendUnder w t).serveWaits n

/-- A transaction ends: its tag is free, and waiting requests take what is free. -/
def Core.closeTxn (c : Core) (t : Nat) : Core :=
  let c := { c with links := { c.links with txns := KMap.erase c.links.txns t } }
  c.serveWaits c.links.tagWaits.length

/-! ### Acknowledging peers' writes (R347) -/

/-- A WR_ACK: done. -/
def Core.sendWrAck (c : Core) (src tag cls : Nat) : Core := c.sendOrDrop [c.mkFlit cls src 6 tag [0]]

/-- The WRs whose bytes have all entered the buffers since are acknowledged. -/
def Core.flushAcks (c : Core) : Core :=
  let ready (a : Nat × Nat × Nat) : Bool := c.acknowledged (.peer a.1 a.2.1)
  let c' := { c with links := { c.links with ackWaits := c.links.ackWaits.filter fun a => !ready a } }
  (c.links.ackWaits.filter ready).foldl (fun c a => c.sendWrAck a.1 a.2.1 a.2.2) c'

/-! ### Port states (Table 11.2) -/

/-- A port leaves ACTIVE or RECOVER for DOWN: unacknowledged flits are discarded (R340, R350). -/
def Core.portDown (c : Core) (f : Nat) : Core :=
  let p := c.port f
  let c := c.setPort f { state := 1, rr := p.rr }
  (c.bump (0x8900 + f) 0xB 1).raise
    { code := 0x8101, source := srcOf 0x0B f, fmt := 4, detail := detail4 f 0 0 p.peer }

/-- A port enters RECOVER (R340, R342); the third entry within 1 ms takes it DOWN. -/
def Core.portRecover (c : Core) (f : Nat) : Core :=
  let p := c.port f
  let times := (c.now :: p.recovers.filter fun t => c.now < t + 1000000).take 3
  let c := c.setPort f { p with state := 4, recovers := times, again := p.replay.map fun x => x.flit.seq }
  let c := (c.bump (0x8900 + f) 7 1).raise
    { code := 0x8103, source := srcOf 0x0B f, fmt := 4, detail := detail4 f 0 0 p.peer }
  if 3 ≤ times.length then c.portDown f else c

/-- May ports train in this device state (Table 11.12)? -/
def portsServed (dev : Dev) : Bool := dev != .off && dev != .standby

/-- A DOWN port starts training (R339, R340). -/
def startTraining (f : Nat) (dev : Dev) (c : Core) : Core :=
  let p := c.port f
  if p.state = 1 ∧ f < 6 ∧ c.flag (0x8100 + f) 1 ∧ portsServed dev then c.setPort f { p with state := 2 } else c

def execPortTrainingStart (f : Nat) : State → Res := lift (startTraining f)

/-- One second after a failed training the port tries again (R339). -/
def execTrainingRetry (f : Nat) : State → Res := lift (startTraining f)

/-- Training ends (R339, R343): `failedLanes` has bit l set for lane l. -/
def execTrainingComplete (f failedLanes delayNs peer : Nat) : State → Res :=
  lift fun _ c =>
    let p := c.port f
    if p.state ≠ 2 then c
    else
      let low := failedLanes % 16 != 0
      let high := failedLanes / 16 % 16 != 0
      if 30 < delayNs ∨ (low && high) then
        (c.setPort f { p with state := 1 }).raise
          { code := 0x8102, source := srcOf 0x0B f, fmt := 4, detail := detail4 f 0 0 peer }
      else
        c.setPort f { p with
          state := 3, peer := peer, lanes := if low || high then 4 else 8, delay := delayNs
          credits := [(0, 32), (1, 1024), (2, 1024), (3, 128)], meterAt := c.now, boundAt := c.now }

/-- An ACTIVE port loses signal (R340). -/
def execLossOfSignal (f : Nat) : State → Res :=
  lift fun _ c => if (c.port f).state = 3 then c.portDown f else c

/-- Both ends have resynchronised: within 2 µs of the entry to RECOVER, else the port goes DOWN (R340). -/
def execRecoverDone (f : Nat) : State → Res :=
  lift fun _ c =>
    let p := c.port f
    if p.state ≠ 4 then c
    else if c.now ≤ p.recovers.headD 0 + 2000 then c.setPort f { p with state := 3 }
    else c.portDown f

/-- RECOVER runs too long (R340). -/
def execRecoverTimeout (f : Nat) : State → Res :=
  lift fun _ c => if (c.port f).state = 4 then c.portDown f else c

/-! ### Acknowledgements and credits (R342, R343) -/

/-- Is sequence a below b, modulo 2^12? -/
def seqBelow (a b : Nat) : Bool := (b + 4096 - a % 4096) % 4096 != 0 && (b + 4096 - a % 4096) % 4096 < 2048

/-- Take returned credits; credits beyond a buffer are a protocol error. -/
def Core.takeCredits (c : Core) (f cls n : Nat) : Core :=
  let p := c.port f
  let have_ := KMap.getD p.credits cls 0
  if classBuffer cls < have_ + n then
    (c.raise { code := 0x8105, source := srcOf 0x0B f, fmt := 4, detail := detail4 f 0 cls p.peer }).portDown f
  else c.setPort f { p with credits := KMap.set p.credits cls (have_ + n) }

/-- Take an ack and returned credits. -/
def Core.takeAck (c : Core) (f ack cls n : Nat) : Core :=
  let p := c.port f
  (c.setPort f { p with
    replay := p.replay.filter (fun x => !seqBelow x.flit.seq ack)
    again := p.again.filter (fun s => !seqBelow s ack) }).takeCredits f cls n

/-- A LINK flit (R343). -/
def execLinkFlitReceived (f ack cls credits : Nat) : State → Res :=
  lift fun _ c => if (c.port f).state = 3 ∨ (c.port f).state = 4 then c.takeAck f ack (cls % 4) credits else c

/-- The far end asks for a flit again (R342): it is replayed; a second replay moves an ACTIVE port to RECOVER. -/
def Core.askAgain (c : Core) (f seq : Nat) : Core :=
  let p := c.port f
  match p.replay.find? (fun x => x.flit.seq == seq) with
  | none => c
  | some x =>
    if p.state = 3 ∧ 2 ≤ x.sends then c.portRecover f
    else if (p.state = 3 ∨ p.state = 4) ∧ !p.again.contains seq then c.setPort f { p with again := p.again ++ [seq] }
    else c

/-- A NAK (R342), with the credits its header returns (R343). -/
def execNakReceived (f seq cls credits : Nat) : State → Res :=
  lift fun _ c =>
    if (c.port f).state = 3 ∨ (c.port f).state = 4 then (c.takeCredits f (cls % 4) credits).askAgain f seq else c

/-! ### Sending (R344, R345) -/

/-- The next flit of a class: local and forwarded flits take turns. -/
def Port.headOf (p : Port) (cls : Nat) : Option (Flit × Port) :=
  let l := KMap.getD p.txq cls []
  let w := KMap.getD p.fwq cls []
  let takeL := fun (x : Flit) (xs : List Flit) =>
    (x, { p with txq := KMap.set p.txq cls xs, turn := KMap.set p.turn cls true })
  let takeW := fun (x : Flit) (xs : List Flit) =>
    (x, { p with fwq := KMap.set p.fwq cls xs, turn := KMap.set p.turn cls false })
  match l, w with
  | [], [] => none
  | x :: xs, [] => some (takeL x xs)
  | [], y :: ys => some (takeW y ys)
  | x :: xs, y :: ys => if KMap.getD p.turn cls false then some (takeW y ys) else some (takeL x xs)

/-- Is a flit of a class ready to go: one waits and a credit is held? -/
def Port.canSend (p : Port) (cls : Nat) : Bool := (p.headOf cls).isSome && 0 < KMap.getD p.credits cls 0

/-- The weight of a class 1 to 3 (0x8100+f:06). -/
def Core.weight (c : Core) (f cls : Nat) : Nat := fld (c.obj (0x8100 + f) 6) (8 * cls - 1) (8 * cls - 8)

/-- The class 1 to 3 that weighted round robin serves: the present one while it has turns left, else the next ready. -/
def Core.wrr (c : Core) (f : Nat) (p : Port) : Option (Nat × Nat) :=
  let order := [p.rr, p.rr % 3 + 1, (p.rr + 1) % 3 + 1]
  if p.canSend p.rr && 0 < p.rrLeft then some (p.rr, p.rrLeft - 1)
  else
    match ((order.drop 1) ++ [p.rr]).find? p.canSend with
    | some k => some (k, c.weight f k - 1)
    | none => none

/-- The class whose credits a header returns: the first with credits owed. -/
def Port.owedCredits (p : Port) : Nat × Nat :=
  match p.owed.find? (fun x => x.2 != 0) with
  | some x => (x.1, min x.2 1023)
  | none => (0, 0)

/-- The ack a header carries: every sequence below it has been received. -/
def Port.ackNow (p : Port) : Nat := p.lost.foldl (fun a s => if seqBelow s.1 a then s.1 else a) p.expect

/-- A flit leaves with credits in its header, and the ack, which in a NAK is the sequence to replay. -/
def Core.emit (c : Core) (f : Nat) (p : Port) (x : Flit) : Core :=
  let o := p.owedCredits
  let x := ({ x with ack := if x.kind = 3 then x.ack else p.ackNow, creditClass := o.1, credits := o.2 } : Flit).seal
  c.setPort f { p with owed := KMap.set p.owed o.1 (KMap.getD p.owed o.1 0 - o.2), boundAt := c.now, out := some x }

/-- A flit is replayed (R342). -/
def Core.emitReplay (c : Core) (f : Nat) (p : Port) (s : Nat) : Core :=
  match p.replay.find? (fun x => x.flit.seq == s) with
  | none => c.setPort f { p with again := p.again.filter (· != s) }
  | some x =>
    let p := { p with
      again := p.again.filter (· != s)
      replay := p.replay.map fun y => if y.flit.seq == s then { y with sends := y.sends + 1 } else y }
    let c := c.bump (0x8900 + f) 6 1
    (if x.flit.cls = 0 then c.bump (0x8900 + f) 0xA 1 else c).emit f p x.flit

/-- A new TXN flit leaves: it takes a credit and its place in the replay buffer. -/
def Core.emitNew (c : Core) (f : Nat) (p : Port) (x : Flit) : Core :=
  let x := { x with seq := p.seq }
  let p := { p with
    seq := (p.seq + 1) % 4096
    credits := KMap.set p.credits x.cls (KMap.getD p.credits x.cls 0 - 1)
    replay := p.replay ++ [{ flit := x, sends := 1 }] }
  (c.bump (0x8900 + f) 1 1).emit f p x

/-- A flit that carries no transaction: 0x2 LINK, 0x3 NAK, 0x4 MGMT (Table 11.4). (log 146: DESIGN CHOICE) -/
def plainFlit (kind ack : Nat) : Flit :=
  { kind := kind, cls := 0, seq := 0, ack := ack, creditClass := 0, credits := 0, tkind := 0, dest := 0, src := 0,
    hops := 0, tag := 0, payload := List.replicate 240 0, crc := 0, fecFailed := false }

/-- The class-0 replays come first, then an admitted class-0 flit, then other replays, then classes 1 to 3, else a LINK
flit (R344). A NAK that is due goes ahead of all of them (log 20: DESIGN CHOICE). -/
def Core.boundary (c : Core) (f : Nat) : Core :=
  let c := c.admitAll f
  let p := c.port f
  let isC0 (s : Nat) : Bool := p.replay.any fun x => x.flit.seq == s && x.flit.cls == 0
  let full := 1024 ≤ p.replay.length
  let waits0 := p.canSend 0
  let c := if full && (waits0 || p.canSend 1 || p.canSend 2 || p.canSend 3) then
      c.bump (0x8900 + f) 8 (c.now - p.boundAt) else c
  let link := plainFlit 2 0
  match p.naks with
  | n :: ns => c.emit f { p with naks := ns } (plainFlit 3 n)
  | [] =>
    match p.again.find? isC0 with
    | some s => c.emitReplay f p s
    | none =>
      match (if waits0 && !full then p.headOf 0 else none) with
      | some (x, p) => c.emitNew f p x
      | none =>
        match p.again with
        | s :: _ => c.emitReplay f p s
        | [] =>
          match (if full then none else c.wrr f p) with
          | some (k, left) =>
            match p.headOf k with
            | some (x, p) => c.emitNew f { p with rr := k, rrLeft := left } x
            | none => c.emit f p link
          | none => c.emit f p link

/-- A MGMT flit leaves (Table 11.4: training and RECOVER). (log 146: DESIGN CHOICE) -/
def Core.emitMgmt (c : Core) (f : Nat) : Core :=
  c.setPort f { c.port f with boundAt := c.now, out := some (plainFlit 4 0).seal }

/-- A flit boundary of an ACTIVE port (R344); in RECOVER replays go out (R342), then MGMT flits, as in TRAINING. IDLE
flits are never chosen by R344. (log 146: DESIGN CHOICE) -/
def Core.flitBoundary (c : Core) (f : Nat) : Core :=
  let p := c.port f
  if p.state = 3 then c.boundary f
  else if p.state = 4 then
    match p.again with
    | s :: _ => c.emitReplay f p s
    | [] => c.emitMgmt f
  else if p.state = 2 then c.emitMgmt f
  else c

/-! ### Receiving (R342, R349) -/

/-- In FAULT_STOP and REJOIN exchange messages of class 1 are answered REFUSED at the link (R301, R347).
(log 69: DEDUCED) -/
def Core.refuseX (c : Core) (dev : Dev) (f : Nat) : Core :=
  if dev = .faultStop ∨ dev = .rejoin then
    let p := c.port f
    let hit (x : Flit) : Bool := x.tkind == 7 && x.cls == 1
    let c' := c.setPort f { p with delivered := p.delivered.filter fun x => !hit x }
    (p.delivered.filter hit).foldl
      (fun c x => c.pushAnswer x.src x.cls x.tag 3) c'
  else c

/-- A flit for another member goes on, one hop less, or is dropped (R349). -/
def Core.forward (c : Core) (f : Nat) (x : Flit) : Core :=
  match c.route x.dest with
  | .via g => c.handPort g { x with hops := x.hops - 1 } true
  | _ => (c.bump 0x8980 1 1).raise
      { code := 0x8107, source := srcOf 0x0B f, fmt := 4, detail := detail4 f x.seq x.cls x.dest }

/-- A flit leaves the receive buffer: its credit is owed; one that arrived with hops at 0 is dropped (R349); another is
this device's, or goes on. -/
def Core.deliver (c : Core) (f : Nat) (x : Flit) : Core :=
  let p := c.port f
  let p := { p with owed := KMap.set p.owed x.cls (KMap.getD p.owed x.cls 0 + 1) }
  let c := c.bump (0x8900 + f) 2 1
  if x.hops = 0 then
    ((c.setPort f p).bump 0x8980 2 1).raise
      { code := 0x8106, source := srcOf 0x0B f, fmt := 4, detail := detail4 f x.seq x.cls x.dest }
  else if x.dest = c.me then c.setPort f { p with delivered := p.delivered ++ [x] }
  else (c.setPort f p).forward f x

/-- Is a flit behind a missing one of its class? -/
def Port.blocked (p : Port) (x : Flit) : Bool := p.lost.any fun s => s.2 == x.cls && seqBelow s.1 x.seq

/-- Deliver the held flits that nothing missing holds any more, in order. -/
def Core.release (c : Core) (f : Nat) : Core :=
  let p := c.port f
  let ready := p.early.filter fun x => !p.blocked x
  (ready.foldl (fun c x => c.deliver f x) (c.setPort f { p with early := p.early.filter p.blocked }))

/-- A sequence number before which everything expected is missing: those from the one expected up to it, with a class.
(log 146: DESIGN CHOICE) -/
def Port.gap (p : Port) (seq cls : Nat) : List (Nat × Nat) :=
  (List.range ((seq + 4096 - p.expect) % 4096)).map fun i => ((p.expect + i) % 4096, cls)

/-- A lost flit is NAKed (R342); flits skipped over are missing too. One that had been received before is not lost,
and a missing one is NAKed once more unless its NAK still waits. (log 146: DESIGN CHOICE) -/
def Core.loseFlit (c : Core) (f : Nat) (x : Flit) : Core :=
  let p := c.port f
  if p.lost.any fun s => s.1 == x.seq then
    c.setPort f { p with naks := if p.naks.contains x.seq then p.naks else p.naks ++ [x.seq] }
  else if x.seq = p.expect ∨ seqBelow p.expect x.seq then
    let missing := p.gap x.seq x.cls ++ [(x.seq, x.cls)]
    c.setPort f { p with
      lost := p.lost ++ missing, naks := p.naks ++ missing.map (·.1), expect := (x.seq + 1) % 4096 }
  else c

/-- Hold a flit behind a missing one, in sequence order. -/
def holdFlit (x : Flit) : List Flit → List Flit
  | [] => [x]
  | y :: ys => if seqBelow x.seq y.seq then x :: y :: ys else y :: holdFlit x ys

/-- A good TXN flit: in order, filling a gap, past a gap, or a duplicate. -/
def Core.acceptFlit (c : Core) (f : Nat) (x : Flit) : Core :=
  let p := c.port f
  if p.lost.any fun s => s.1 == x.seq then
    let p := { p with lost := p.lost.filter fun s => s.1 != x.seq }
    if p.blocked x then c.setPort f { p with early := holdFlit x p.early }
    else ((c.setPort f p).deliver f x).release f
  else if x.seq = p.expect then
    let p := { p with expect := (p.expect + 1) % 4096 }
    if p.blocked x then c.setPort f { p with early := holdFlit x p.early } else (c.setPort f p).deliver f x
  else if seqBelow p.expect x.seq then
    let missing := p.gap x.seq x.cls
    c.setPort f { p with
      lost := p.lost ++ missing, naks := p.naks ++ missing.map (·.1)
      expect := (x.seq + 1) % 4096, early := holdFlit x p.early }
  else c

end Sys2Proof.Machine
end

