-- ==== Sys2Proof/Machine/Inject.lean ====
section
/-! DEFINITION. Injection (R457 to R459) and the arrival of flits, which an injection may corrupt. -/

namespace Sys2Proof.Machine

/-- The objects of an injection slot (Table 15.7). -/
def injObj (i : Nat) : Nat := 0xB400 + i

/-- Detectors that need SERVICE or VENDOR unlock (Table 15.5). -/
def injProtected (det : Nat) : Bool :=
  [0x01, 0x02, 0x03, 0x04, 0x0B, 0x0D, 0x0E, 0x15, 0x16, 0x17, 0x18, 0x19].contains det

/-- Instances of a detector's target (Table 15.5). (log 116: DEDUCED) -/
def injTargets : Nat → Nat
  | 0x01 => 256
  | 0x02 => 8
  | 0x03 => 2
  | 0x04 => 8
  | 0x05 => 192
  | 0x06 => 192
  | 0x07 => 64
  | 0x08 => 64
  | 0x09 => 8
  | 0x0A => 16
  | 0x0B => 16384
  | 0x0C => 16
  | 0x0D => 4
  | 0x0E => 2
  | 0x0F => 16
  | 0x10 => 16
  | 0x11 => 16
  | 0x12 => 6
  | 0x13 => 2
  | 0x14 => 1
  | 0x15 => 16384
  | 0x16 => 18
  | 0x17 => 128
  | 0x18 => 3
  | 0x19 => 34
  | _ => 0

/-- Bits set in a number of 64 bits. -/
def popcount64 (x : Nat) : Nat := ((List.range 64).filter fun i => bitAt x i).length

/-- Is a pattern in its detector's range (Table 15.5)? (log 116: DEDUCED) -/
def injPatternOk (det pat : Nat) : Bool :=
  match det with
  | 0x01 => 1 ≤ pat && pat ≤ 3
  | 0x02 => 1 ≤ pat && pat ≤ 16
  | 0x03 | 0x04 | 0x07 | 0x09 | 0x0B | 0x0D | 0x0E => popcount64 pat == 1 || popcount64 pat == 2
  | 0x05 => fld pat 63 62 ≤ 2 && (popcount64 (fld pat 61 0) == 1 || popcount64 (fld pat 61 0) == 2)
  | 0x06 | 0x08 | 0x0A | 0x0C | 0x10 | 0x16 => pat ≤ 1
  | 0x0F => pat < 2 ^ 24
  | 0x11 => pat ≤ 2
  | 0x12 => pat < 512
  | 0x17 => pat < 65536
  | _ => true

/-- The buffer's word is corrupted as it is written: one bit is corrected; two lose acknowledged data, which are free
bytes from now on (R327). (log 37: DEDUCED) -/
def Core.bufferFlips (c : Core) (u p : Nat) : Core :=
  if singleBit p then c.bump 0x9880 0xB 1
  else (c.smear u 8).raise
    { code := 0x9021, own := 3, source := srcOf 0x09 (hbmInst u), fmt := 2, detail := detail2 u 0, inj := true }

/-- Writes pass the HBM, buffer, link and tile-store detectors (0x01, 0x04, 0x02, 0x03), sector by sector or word by
word: called once the bytes of one store stand. (log 37: DEDUCED) -/
def Core.injectStore (c : Core) (a n : Nat) : Core :=
  let us := placesOf a n
  if a < tsBase then
    let c := c.injectEach 0x01 us hbmInst fun c u p =>
      { c with mem := { c.mem with injSyms := KMap.set c.mem.injSyms u (p % 4) } }
    (c.injectEach 0x04 us stackOf Core.bufferFlips).transfers a n
  else
    c.injectEach 0x03 us (fun u => u / 4096 % 2) fun c u p =>
      { c with mem := { c.mem with tsFlips := KMap.set c.mem.tsFlips u p } }

/-- A store that injection may corrupt. -/
def Core.put (c : Core) (a : Nat) (bs : List Byte) : Core := (c.store a bs).injectStore a bs.length

/-- `put` at a logical address. -/
def Core.lput (c : Core) (a : Nat) (bs : List Byte) : Core :=
  ((c.pieces a bs.length).foldl
    (fun (s : Core × List Byte) p => (s.1.put p.1 (s.2.take p.2), s.2.drop p.2)) (c, bs)).1

/-! ### The near-memory adders (R314) -/

/-- A granule is taken by the adders: an entry that is not held reads its two granules (R314). (log 74: DEDUCED) -/
def Core.addGranule (c : Core) (g lo hi : Nat) : Core :=
  let a := g * 256
  let c :=
    if c.mem.wcb.any fun e => e.pc == pcOf a && e.j == g / 512 / 2 then c
    else
      let r : HbmReq := { pc := pcOf a, part := (c.partOf a).getD 0, kind := 0, at_ := c.now }
      let c := { c with mem := { c.mem with reqs := c.mem.reqs ++ [r, r] } }
      (c.mem.injSyms.filter fun p => a ≤ p.1 && p.1 < a + 256).foldl (fun c p => c.readSector p.1 p.2) c
  c.enterGranule true g lo hi

/-- Sums land in a piece of HBM: its sectors keep their poison (R325). (log 74: DEDUCED) -/
def Core.addPiece (c : Core) (a : Nat) (vs : List Num) : Core :=
  let n := 4 * vs.length
  if n = 0 then c
  else
    let g0 := a / 256
    let g1 := (a + n - 1) / 256
    let c := (List.range (g1 + 1 - g0)).foldl
      (fun c i => c.addGranule (g0 + i) (if i = 0 then a % 256 else 0)
        (if g0 + i = g1 then (a + n - 1) % 256 + 1 else 256)) c
    let old := (unpack 32 vs.length (c.bytes a n)).map f32
    let bs := (vs.zip old).flatMap fun p => toLE 4 (f32Code (fadd p.2 p.1))
    let c := { c with mem := { c.mem with mem := Mem.write c.mem.mem a bs } }
    ((c.breakPools a n).bump 0x9880 0xC vs.length).injectStore a n

/-- Near-memory FP32 adds (R314): refused where misaligned or in the tile store. (log 74: DEDUCED) -/
def Core.nearAdd (c : Core) (d src a : Nat) (vs : List Num) : Core :=
  let n := 4 * vs.length
  let ps := c.pieces a n
  if ps.any (fun p => p.1 % 64 != 0 || tsBase ≤ p.1) then c.reject d 0x9003 src 16 (a % 2 ^ 32)
  else
    match c.lbad a n with
    | some e => c.rejectAccess d src 16 e
    | none =>
      (ps.foldl (fun (s : Core × List Num) p => (s.1.addPiece p.1 (s.2.take (p.2 / 4)), s.2.drop (p.2 / 4))) (c, vs)).1

/-- Note that a descriptor has written output there. (log 122: DEDUCED) -/
def Core.noteOut (c : Core) (d a n : Nat) : Core := c.modDesc d fun x => { x with wrote := c.pieces a n ++ x.wrote }

/-- A descriptor's output at a logical address, whose acknowledgement it waits for (R361). (log 122: DEDUCED) -/
def Core.outPut (c : Core) (d a : Nat) (bs : List Byte) : Core :=
  ((c.lput a bs).owe c (.desc d)).noteOut d a bs.length

/-- What detector 0x12 does to an arriving flit: an injection corrupts as many flits of the port as its pattern says,
this one first (Table 15.5): with `some true` as an uncorrectable codeword. (log 95: DESIGN CHOICE) -/
def Core.spoiled (c : Core) (f : Nat) (inj : Option Nat) : Option Bool × Core :=
  let p := c.port f
  let p := match inj with
    | some x => { p with spoilLeft := x % 256, spoilFec := bitAt x 8 }
    | none => p
  if p.spoilLeft = 0 then (none, c.setPort f p)
  else (some p.spoilFec, c.setPort f { p with spoilLeft := p.spoilLeft - 1 })

/-- A TXN flit arrives (R342, R347, R349), its ack and credits with it; one found lost is NAKed. An injection of
detector 0x12 corrupts it on arrival (Core.spoiled); a flit of another kind in the command's operand is no TXN flit
and does nothing. How many codewords FEC corrected on the way is a free value (log 4: DESIGN CHOICE). (log 95: DESIGN
CHOICE) (log 107: DEDUCED) -/
def execTxnFlitReceived (f : Nat) (flit : Flit) : State → Res :=
  lift fun dev c =>
    let p := c.port f
    if p.state ≠ 3 ∧ p.state ≠ 4 then c
    else
      let c := c.setPort f { p with delivered := [] }
      let (inj, c) := c.inject 0x12 f 0
      let (hit, c) := c.spoiled f inj
      let fec := flit.fecFailed || hit == some true
      let crc := !flit.crcGood || hit == some false
      let c :=
        if fec then (c.bump (0x8900 + f) 4 1).loseFlit f flit
        else if crc then (c.bump (0x8900 + f) 5 1).loseFlit f flit
        else if flit.kind ≠ 1 then c
        else
          let c := c.takeAck f flit.ack (flit.creditClass % 4) flit.credits
          if (c.port f).state = 3 ∨ (c.port f).state = 4 then (c.acceptFlit f flit).refuseX dev f else c
      let (fixed, c) := c.draw 2
      c.bump (0x8900 + f) 3 fixed

/-! ### The slot commands -/

/-- May the source write an object of range 0xB in this state? The arm of a slot is an ordinary object write.
(log 116: DEDUCED) -/
def Core.injAccess (c : Core) (dev : Dev) (src : Src) (i : Nat) : Bool := c.reach dev src (injObj i) 7 true

/-- Arm a slot (R457). (log 116: DEDUCED) -/
def injectionArm (src : Src) (i : Nat) (dev : Dev) (c : Core) : Core :=
  let o := injObj i
  let ans (c : Core) (st : Nat) : Core := c.answer src o 7 st
  if 8 ≤ i then ans c stNoObject
  else if !c.injAccess dev src i then ans c stDenied
  else
    let det := c.obj o 1
    let mode := c.obj o 2
    let tgt := c.obj o 3
    let pat := c.obj o 4
    let adr := c.obj o 5
    let per := c.obj o 6
    if !(mode == 1 || mode == 2) || !(1 ≤ det && det ≤ 0x19) || !(tgt == 0xFFFF || tgt < injTargets det) ||
       !injPatternOk det pat || adr % 64 != 0 || !(1000 ≤ per && per ≤ 1000000000000) then ans c stType
    else if !(dev == .ready || dev == .run || dev == .drain) then ans c stDenied
    else if injProtected det && c.sec.level < 2 then ans c stDenied
    else
      let slot : InjSlot :=
        { detector := det, periodic := mode == 2, target := tgt, pattern := pat, address := adr, period := per,
          armedAt := c.now, nextK := 1, due := false, count := 0, state := 1 }
      ans { c with inj := KMap.set c.inj i slot } stOk

def execInjectionArm (src : Src) (i : Nat) : State → Res := lift (injectionArm src i)

/-- Disarm a slot (R457). -/
def injectionDisarm (src : Src) (i : Nat) (dev : Dev) (c : Core) : Core :=
  if 8 ≤ i then c.answer src (injObj i) 7 stNoObject
  else if !c.injAccess dev src i then c.answer src (injObj i) 7 stDenied
  else
    ({ c with inj := KMap.modify c.inj i fun (s : InjSlot) => { s with state := 0, due := false } }).answer src (injObj i) 7 stOk

def execInjectionDisarm (src : Src) (i : Nat) : State → Res := lift (injectionDisarm src i)

/-- A periodic slot's next moment passes (R458): the next eligible operation carries an injection.
(log 96: DESIGN CHOICE) -/
def execPeriodicInjection (i : Nat) : State → Res :=
  lift fun _ c =>
    { c with inj := KMap.modify c.inj i fun (s : InjSlot) => if s.state = 1 ∧ s.periodic then { s with due := true } else s }

end Sys2Proof.Machine
end

