-- ==== Sys2Proof/Machine/Module.lean ====
section
/-! DEFINITION. The module's pins, power and reset (chapter 16), the end of boot (R430) and the device state requests
(R7 to R12). -/

namespace Sys2Proof.Machine

/-- Change the pins. -/
def Core.setPins (c : Core) (f : Pins → Pins) : Core := { c with pins := f c.pins }

/-- Steps 3 and 4 of Table 16.5: with the input and PWR_EN up, and no off time or thermal trip, the stage ramps VBUS,
the regulators come up and PWR_GOOD is released. A reset already released is held internally (R467). -/
def Core.railsUp (c : Core) : Core :=
  let p := c.pins
  if p.inputOk && p.pwrEn && !p.offTime && !p.thermTrip && !p.pwrGood then
    c.setPins fun p => { p with pwrGood := true, goodAt := c.now, hold := p.modRstN }
  else c

/-- The main rails go down: nothing on the module holds state (R12). -/
def Core.railsDown (c : Core) : Core := c.dark.setPins fun p => { p with pwrGood := false, low := [], hold := false }

/-- PWR_GOOD as the pin shows it (R464): released while the rails are up and in range. -/
def Core.pwrGoodPin (c : Core) : Bool := c.pins.pwrGood && c.pins.low.isEmpty

/-- FAULT_N as the pin shows it, true for asserted (R464): while 0x1010:00 reads FAULT_STOP. -/
def faultN (dev : Dev) : Bool := dev == .faultStop

/-- The 48 V input rises past 39 V (R467, Table 16.4). -/
def execInputTurnOn (mv : Nat) : State → Res :=
  liftPins fun dev c =>
    if mv < 39000 then (dev, c)
    else
      let c := c.setPins fun p => { p with inputMv := mv, inputOk := true }
      (dev, if dev = .off then c.railsUp else c)

/-- PWR_EN rises (R467, R468, R470). -/
def execPowerEnable : State → Res :=
  liftPins fun dev c =>
    let c := c.setPins fun p => { p with pwrEn := true }
    (dev, if dev = .off then c.railsUp else c)

/-- PWR_EN falls, or the input falls below 38 V (R468, R470): the stage then stays off for its 100 ms. -/
def execPowerDisable (inputMv : Option Nat) : State → Res :=
  liftPins fun dev c =>
    let falls := match inputMv with
      | some mv => c.pins.inputOk && mv < 38000
      | none => c.pins.pwrEn
    let c := c.setPins fun p => { p with inputMv := inputMv.getD p.inputMv }
    if !falls then (dev, c)
    else
      let c := c.railsDown.setPins fun p => { p with
        pwrEn := p.pwrEn && inputMv.isSome
        inputOk := p.inputOk && inputMv.isNone
        thermTrip := false
        offTime := true }
      (.off, c)

/-- The 100 ms off time ends (R468). -/
def execPowerOffTimeEnd : State → Res :=
  liftPins fun dev c =>
    let c := c.setPins fun p => { p with offTime := false }
    (dev, if dev = .off then c.railsUp else c)

/-- Reset takes hold (R469): in SERVICE_STANDBY and FAULT_STOP the rails stay up; in every other state the rails go down
and come back on their own, reset held. -/
def resetAssert (dev : Dev) (c : Core) : Dev × Core :=
  let c := c.setPins fun p => { p with modRstN := false, hold := false }
  if dev = .standby ∨ dev = .faultStop then (dev, c)
  else (.off, c.railsDown.railsUp)

/-- MOD_RST_N low for some ns (R469): under 1 µs ignored; from 1 µs to 10 µs it may or may not reset the device, a free
value (log 4: DESIGN CHOICE). -/
def execModuleResetAssert (ns : Nat) : State → Res :=
  liftPins fun dev c =>
    if ns < 1000 then (dev, c)
    else if ns < 10000 then
      let (v, c) := c.draw 2
      if v = 0 then (dev, c) else resetAssert dev c
    else resetAssert dev c

/-- The PCIe link trains as the host brings it (R351, R431), and the functions it enables are counted (0xA003). -/
def Core.pcieUp (c : Core) : Core :=
  match c.links.link with
  | some h => if c.pins.perstN then
      (c.setObj 0xA001 0 (h.gen + 16 * h.width + if h.flit then 512 else 0)).setObj 0xA003 0 h.vfs
    else c
  | none => c

/-- BOOT begins with the release of reset; the PCIe core trains under ROM control (R431). -/
def enterBoot (c : Core) : Dev × Core := (.boot, c.startBoot.pcieUp)

/-- MOD_RST_N is released (R467, R469). -/
def execModuleResetRelease : State → Res :=
  liftPins fun dev c =>
    let was := c.pins.modRstN
    let c := c.setPins fun p => { p with modRstN := true }
    match dev with
    | .off =>
      if !c.pins.pwrGood then (dev, c)
      else if c.pins.goodAt + 1000000 ≤ c.now then enterBoot c
      else (dev, c.setPins fun p => { p with hold := true })
    | .standby | .faultStop => if was then (dev, c) else enterBoot c
    | _ => (dev, c)

/-- The internal reset hold ends 1 ms after PWR_GOOD (R467). -/
def execInternalResetHoldEnd : State → Res :=
  liftPins fun dev c =>
    if dev = .off ∧ c.pins.pwrGood ∧ c.pins.hold ∧ c.pins.modRstN then
      enterBoot (c.setPins fun p => { p with hold := false })
    else (dev, c)

/-- The first n boot steps have ended (R430): the PLLs have locked; the time elapsed at the end of each step, that of
the timebase where none was measured. (log 17: DESIGN CHOICE) -/
def Core.bootSteps (c : Core) (times : List Nat) (n : Nat) : Core :=
  let c := (List.range 34).foldl (fun c k => c.setObj (0x2300 + k) 1 1) c
  (List.range n).foldl (fun c k => c.setObj 0xC003 (k + 1) (times.getD k (c.now / 1000000))) c

/-- Every port is held DOWN (SERVICE_STANDBY, Table 11.12). -/
def Core.portsDown (c : Core) : Core :=
  (List.range 6).foldl
    (fun c f => if (c.port f).state = 3 ∨ (c.port f).state = 4 then c.portDown f
      else if (c.port f).state = 2 then c.setPort f { c.port f with state := 1 } else c) c

/-- The boot sequence ends: READY, SERVICE_STANDBY where verification failed at a step, with VC0 to VC3 off, or
FAULT_STOP where a stack failed training (R7, R327, R366, R417, R430, R432). (log 145: DESIGN CHOICE) -/
def execBootComplete (found : BootFinds) : State → Res :=
  liftDev fun dev c =>
    if dev ≠ .boot then (dev, c)
    else
      let c := ({ c with mem := { c.mem with lanes := found.lanes } } : Core).runBoot found.romsAgree
      if c.sec.bootFail = 0 then
        if (untrained found).isEmpty then (.ready, ((c.selfTests found).bootSteps found.times 11).pcieUp)
        else (dev, (c.bootSteps found.times 5).trainFails (untrained found))
      else
        let c := ((c.bootSteps found.times (c.sec.bootFail % 256 - 1)).pcieUp).portsDown
        (.standby, { c with pow := { c.pow with
          targets := [(0, 0), (1, 0), (2, 0), (3, 0), (4, 620), (5, 620)] } })

/-- The PCIe link is down: queues with host rings stop (R363); no function is enabled until it trains again. -/
def Core.pcieDown (c : Core) : Core :=
  let c := ({ c with links := { c.links with link := none } }.setObj 0xA001 0 0).setObj 0xA003 0 0
  (c.links.queues.filter fun p => (c.queue p.1).state == 1 && bitAt (c.obj (0xA100 + p.1) 3) 1).foldl
    (fun c p => c.stopQueue p.1) c

/-- PERST_N asserted: only the PCIe interface is reset (R469). -/
def execPerstAssert : State → Res :=
  liftPins fun dev c =>
    let c := c.setPins fun p => { p with perstN := false }
    (dev, if dev = .off then { c with links := { c.links with link := none } } else c.pcieDown)

/-- PERST_N deasserted: the link trains with what the host brings, under ROM control until BOOT has ended (R431); in OFF
and in reset it waits for the reset's release. -/
def execPerstDeassert (link : HostLink) : State → Res :=
  liftPins fun dev c =>
    let c := { c.setPins fun p => { p with perstN := true } with links := { c.links with link := some link } }
    (dev, if dev = .off ∨ !c.pins.modRstN then c else c.pcieUp)

/-- THERM_TRIP_N has stood for 100 ms and the stage shuts the rails down (R470). -/
def execThermTripShutdown : State → Res :=
  liftPins fun dev c => if c.pins.thermTrip then (.off, c.railsDown) else (dev, c)

/-- The stage shuts itself down (R409): OFF, no record survives. -/
def execStageShutsItselfDown : State → Res :=
  liftPins fun dev c => if c.pins.pwrGood then (.off, c.railsDown) else (dev, c)

/-- A JTAG instruction (R464): 0 IDCODE, 1 BYPASS, 2 boundary scan (log 19: DESIGN CHOICE); any other runs as BYPASS,
but with VENDOR unlock open the manual does not say what it does. With the rails down nothing holds one (R12). -/
def execJtagInstruction (code : Nat) (s : State) : Res :=
  if 2 < code ∧ s.core.sec.level = 3 then .refused .vendorJtag
  else
    liftPins (fun dev c =>
      (dev, c.setPins fun p => if p.pwrGood then { p with jtag := if code ≤ 2 then code else 1 } else p)) s

/-! ### Device state requests -/

/-- Does the device state let a request through: the state asked for, and no FAULT_STOP at the same moment, whose state
the request would be judged by (R8)? -/
def Core.stateAllows (c : Core) (dev : Dev) (src : Src) (from_ : Dev) : Bool :=
  c.reach dev src 0x1011 0 true && dev == from_ && c.faultReq.isNone

/-- 0x01 to 0x1011:00 (R7, R8): READY goes to RUN; DENIED in any other state. -/
def requestRun (src : Src) (dev : Dev) (c : Core) : Dev × Core :=
  let c := c.sysRead sysRingmaster
  if c.stateAllows dev src .ready then
    (.run, ({ c with log := { c.log with onceRun := [] } }).noteAnswer src 0x1011 0 stOk)
  else (dev, c.noteAnswer src 0x1011 0 stDenied)

def execRequestRun (src : Src) : State → Res := liftDev (requestRun src)

/-- Descriptors doorbelled so far were doorbelled before the DRAIN request (R10). (log 97: DEDUCED) -/
def Core.markEarly (c : Core) : Core :=
  { c with links := { c.links with descs := c.links.descs.map fun p => (p.1, { p.2 with early := true }) } }

/-- 0x02 to 0x1011:00 (R7, R10): RUN goes to DRAIN; the buffer is written back (R313). (log 97: DEDUCED) -/
def requestDrain (src : Src) (dev : Dev) (c : Core) : Dev × Core :=
  let c := c.sysRead sysRingmaster
  if c.stateAllows dev src .run then
    (.drain, c.markEarly.writeBackAll.noteAnswer src 0x1011 0 stOk)
  else (dev, c.noteAnswer src 0x1011 0 stDenied)

def execRequestDrain (src : Src) : State → Res := liftDev (requestDrain src)

end Sys2Proof.Machine
end

