-- ==== Sys2Proof/Machine/Queues.lean ====
section
/-! DEFINITION. The host interface: doorbells, tallies, queues, BAR2 and BAR4 (R353 to R363, R475), the tally op and the
copy engines (R362). -/

namespace Sys2Proof.Machine

/-! ### BAR2 -/

/-- A BAR2 access that reaches nothing (R353). -/
def Core.hostAccessError (c : Core) : Core := c.bump 0xA880 8 1

/-- Does a function own a queue's page? The PF reaches every page. -/
def Core.ownsQueue (c : Core) (fn q : Nat) : Bool := q < 256 && (fn == 0 || c.queueFn q == fn)

/-- May a function reach a tally through BAR2? -/
def Core.reachTally (c : Core) (fn t : Nat) : Bool := t < 4096 && (fn == 0 || c.ownsTally fn t)

/-- Refuse a doorbell (R357). -/
def Core.refuseDoorbell (c : Core) (q : Nat) : Core :=
  ((c.bump (0xA100 + q) 0xB 1).bump 0xA880 2 1).raise { code := 0xA001, source := srcOf 0x0E q }

/-- A write of TAIL (R357). -/
def Core.ring (c : Core) (dev : Dev) (q tail : Nat) : Core :=
  let x := c.queue q
  let ahead := (tail + 2 ^ 32 - x.head) % 2 ^ 32
  let step := (tail + 2 ^ 32 - x.tail) % 2 ^ 32
  if dev = .run ∧ x.state = 1 ∧ ahead ≤ c.obj (0xA100 + q) 2 ∧ step < 2 ^ 31 then
    (c.setQueue q { x with tail := tail % 2 ^ 32 }).bump 0xA880 1 1
  else c.refuseDoorbell q

/-- A BAR2 write at an offset of a 4 KiB page (R353): TAIL of a queue's page is the doorbell; HEAD, STATE and every
other offset, those in the tallies' pages (256 on) among them, drop it, and 0xA880:08 counts. -/
def execDoorbell (fn q off v : Nat) : State → Res :=
  lift fun dev c =>
    let c := c.tlp fn
    if off = 0 ∧ c.ownsQueue fn q then c.ring dev q v else c.hostAccessError

/-- A write of VALUE (R353). -/
def execTallySet (fn t v : Nat) : State → Res :=
  lift fun _ c => if c.reachTally fn t then (c.tlp fn).setTally t v else (c.tlp fn).hostAccessError

/-- A write of ADD (R353, R360). -/
def execTallyAdd (fn t v : Nat) : State → Res :=
  lift fun _ c => if c.reachTally fn t then (c.tlp fn).addTally t v else (c.tlp fn).hostAccessError

/-- Complete a host read. (log 117: DEDUCED) -/
def Core.hostAnswer (c : Core) (bs : List Byte) : Core := { c with links := { c.links with hostData := bs } }

/-- A BAR2 read (R353). -/
def execBar2Read (fn offset len : Nat) : State → Res :=
  lift fun _ c =>
    let c := c.tlp fn
    let miss (c : Core) : Core := (c.hostAnswer (List.replicate len 0)).hostAccessError
    if offset < 0x100000 then
      let q := offset / 4096
      let x := c.queue q
      if !c.ownsQueue fn q then miss c
      else
        match offset % 4096 with
        | 0 => c.hostAnswer (toLE len x.tail)
        | 8 => c.hostAnswer (toLE len x.head)
        | 16 => c.hostAnswer (toLE len x.state)
        | _ => miss c
    else if offset % 16 = 0 ∧ c.reachTally fn ((offset - 0x100000) / 16) then
      c.hostAnswer (toLE len (c.tally ((offset - 0x100000) / 16)))
    else miss c

/-! ### BAR4 (R354) -/

/-- A BAR4 access that fails: all ones, or dropped. -/
def Core.bar4Fail (c : Core) (len : Nat) (read : Bool) : Core :=
  let c := if read then c.hostAnswer (List.replicate len 0xFF) else c
  c.hostAccessError.raise { code := 0xA012, source := srcOf 0x0D 0 }

/-- Is the host aperture served in this state (R334, R366)? -/
def apertureServed (dev : Dev) : Bool :=
  dev == .ready || dev == .run || dev == .drain || dev == .faultStop || dev == .rejoin

/-- A BAR4 access of `len` bytes at a BAR offset; `write` holds the bytes of a write. (log 117: DEDUCED) -/
def execBar4Access (off len : Nat) (write : Option (List Byte)) : State → Res :=
  lift fun dev c =>
    let c := c.tlp 0
    let size := c.links.bar4Bytes / 16
    let w := off / size
    let base := c.obj (0xA010 + w) 1
    let member := c.obj (0xA010 + w) 2
    let a := base + off % size
    let n := match write with
      | some bs => bs.length
      | none => len
    if !apertureServed dev || 16 ≤ w || base % size != 0 then c.bar4Fail n write.isNone
    else if member = 0xFF ∨ member = c.me then
      if (c.plainBad a n).isSome then c.bar4Fail n write.isNone
      else
        match write with
        | some bs => c.put a bs
        | none =>
          let c := c.touch a n
          if c.poisoned a n then c.bar4Fail n true else c.hostAnswer (c.bytes a n)
    else
      let sent := match write with
        | some bs => c.sendWr 3 member a bs (.bar4 false)
        | none => c.sendRd 3 member a n (.bar4 true)
      match sent with
      | some c => c
      | none => c.bar4Fail n write.isNone

/-- A configuration request in BOOT, before step 8, is answered with Request Retry Status (R431). -/
def Core.retry (c : Core) : Core := { c with links := { c.links with retries := c.links.retries + 1 } }

/-- The host resizes BAR4: 1 to 64 GiB, a power of two (Table 11.8, R354). -/
def execBar4Resize (bytes : Nat) : State → Res :=
  lift fun dev c =>
    if dev = .boot then c.retry
    else if 2 ^ 30 ≤ bytes ∧ bytes ≤ 2 ^ 36 ∧ bytes = 2 ^ Nat.log2 bytes then
      { c with links := { c.links with bar4Bytes := bytes } }
    else c

/-! ### Fetching (R356, R358, R475) -/

/-- The pending set of a descriptor (Table 11.9); none for a type absent from it. -/
def Desc.pendingSet (x : Desc) : Option Nat :=
  let t := x.ty
  if t = 0x01 ∨ t = 0x02 then some 0
  else if t = 0x20 ∨ t = 0x21 then some (16 + x.f 32 1 % 16)
  else if t = 0x23 then some (16 + x.f 22 1 % 16)
  else if t = 0x30 then some 1
  else if t = 0x40 then some 2
  else if (0x50 ≤ t ∧ t ≤ 0x53) ∨ t = 0x56 then some (8 + x.f 31 1 % 4)
  else if 0x58 ≤ t ∧ t ≤ 0x5B then some 3
  else if 0x60 ≤ t ∧ t ≤ 0x62 then some 4
  else if 0x70 ≤ t ∧ t ≤ 0x74 then some 5
  else none

/-- Descriptors waiting in a pending set. -/
def Core.pendingIn (c : Core) (k : Nat) : Nat :=
  (c.links.descs.filter fun p => !p.2.issued && p.2.pendingSet == some k).length

/-- A ring fetch fails (R475). -/
def Core.fetchFailed (c : Core) (q : Nat) : Core :=
  (c.raise { code := 0xA003, source := srcOf 0x0E q }).stopQueue q

/-- The fetched slot at the head becomes a descriptor and the head advances; a type absent from Table 11.9 is rejected
(R1, R358). -/
def Core.takeSlot (c : Core) (q : Nat) (early : Bool) (bytes : List Byte) : Core :=
  let x := c.queue q
  let d := c.links.nextDesc
  let desc : Desc := { queue := q, head := x.head, bytes := bytesAt bytes 0 128, early := early }
  let full := match desc.pendingSet with
    | some k => decide (64 ≤ c.pendingIn k)
    | none => false
  if full then c.setQueue q { x with waitAt := some (x.waitAt.getD c.now) }
  else
    let c := (c.setQueue q { x with head := (x.head + 1) % 2 ^ 32, fetched := x.fetched.drop 1 }).endFullWait q
    let c := ({ c with links := { c.links with nextDesc := d + 1, descs := KMap.set c.links.descs d desc } }).markReady
    if desc.pendingSet.isNone then c.reject d 0xA004 (srcOf 0x0E q) 15 desc.ty else c

/-- May a queue have another slot fetched: its ring holds one, at most 8 ahead of the head (R358)? -/
def Queue.canFetch (x : Queue) : Bool :=
  x.fetched.length < 8 && (x.head + x.fetched.length) % 2 ^ 32 != x.tail

/-- Has a queue work for the queue engine: it runs, and a slot can be fetched or a fetched one placed (R358)? One whose
head waits for room in a full pending set places none. (log 151: DESIGN CHOICE) -/
def Queue.hasWork (x : Queue) : Bool :=
  x.state == 1 && x.head != x.tail && (x.canFetch || x.waitAt.isNone)

/-- Is it the queue's turn: no queue with work stands before it in the round from the one taken last (R358)? -/
def Core.fetchTurn (c : Core) (q : Nat) : Bool :=
  let after (k : Nat) : Nat := (k + 255 - c.links.lastFetch) % 256
  c.links.queues.all fun p => !p.2.hasWork || after q ≤ after p.1

/-- The queue engine takes a queue. -/
def Core.noteFetch (c : Core) (q : Nat) : Core := { c with links := { c.links with lastFetch := q } }

/-- The next slot of a queue is read (R358, R475): its bytes, or none where the fetch fails. For a host ring
`hostSlot` is what the PCIe read completed with: none when it ended in an error or timeout; an empty list takes the
bytes the host memory holds. (log 144: DEDUCED) -/
def Core.readSlot (c : Core) (q : Nat) (hostSlot : Option (List Byte)) : Option (List Byte) × Core :=
  let x := c.queue q
  let a := c.obj (0xA100 + q) 1 + 128 * ((x.head + x.fetched.length) % c.obj (0xA100 + q) 2)
  if bitAt (c.obj (0xA100 + q) 3) 1 then
    match hostSlot with
    | some [] => (some (c.hostRead (c.queueFn q) a 128), c)
    | r => (r, c)
  else if (c.plainBad a 128).isSome then (none, c)
  else
    let c := c.touch a 128
    (if c.poisoned a 128 then none else some (c.bytes a 128), c)

/-- Fetch a slot behind those fetched; a failed fetch takes effect when the slot is the head (log 151: DESIGN CHOICE).
-/
def Core.fetchSlot (c : Core) (q : Nat) (hostSlot : Option (List Byte)) : Core :=
  if (c.queue q).canFetch then
    let (r, c) := c.readSlot q hostSlot
    let c := c.setQueue q { c.queue q with fetched := (c.queue q).fetched ++ [r] }
    if r.isSome then c.bump 0xA880 3 1 else c
  else c

/-- Place the fetched slot at the head. -/
def Core.placeSlot (c : Core) (q : Nat) (early : Bool) : Core :=
  match (c.queue q).fetched with
  | [] => c
  | none :: _ => c.fetchFailed q
  | some bs :: _ => c.takeSlot q early bs

/-- The queue engine takes the queues with work in round robin (R358): in its turn a RUNNING one has its next slot
fetched, and the slot at its head goes to its pending set if that has room. -/
def execQueueFetch (q : Nat) (hostSlot : Option (List Byte)) : State → Res :=
  lift fun dev c =>
    let x := c.queue q
    if !runsWork dev || x.state != 1 || x.head == x.tail || !c.fetchTurn q then c
    else (((c.noteFetch q).sysRead sysQueues).fetchSlot q hostSlot).placeSlot q (dev == .drain)

/-! ### Queue commands (R355, R363, R475) -/

/-- Unissued descriptors of a queue leave, counted with those still in its ring. -/
def Core.removeUnissued (c : Core) (q : Nat) : Core :=
  let x := c.queue q
  let gone := (c.links.descs.filter fun p => p.2.queue == q && !p.2.issued).length
  let c := { c with links := { c.links with descs := c.links.descs.filter fun p => !(p.2.queue == q && !p.2.issued) } }
  c.bump 0xA880 4 (gone + (x.tail + 2 ^ 32 - x.head) % 2 ^ 32)

/-- A queue enters ABORTING (R363). -/
def Core.abortQueue (c : Core) (q : Nat) : Core :=
  if (c.queue q).state = 1 ∨ (c.queue q).state = 2 then (c.enterQueueState q 3 0xA007).removeUnissued q else c

/-- 1 to 0xA100+q:09. -/
def queueAbort (src : Src) (q : Nat) (dev : Dev) (c : Core) : Core :=
  if 256 ≤ q then c.answer src (0xA100 + q) 9 stNoObject
  else if c.reach dev src (0xA100 + q) 9 true ∧ ((c.queue q).state = 1 ∨ (c.queue q).state = 2) then
    (c.abortQueue q).answer src (0xA100 + q) 9 stOk
  else c.answer src (0xA100 + q) 9 stDenied

def execQueueAbort (src : Src) (q : Nat) : State → Res := lift (queueAbort src q)

/-- The removal is done: head is set to tail, the queue is STOPPED. -/
def execAbortRemovalDone (q : Nat) : State → Res :=
  lift fun _ c =>
    let x := c.queue q
    if x.state = 3 then (c.setQueue q { x with head := x.tail }).enterQueueState q 2 0xA006 else c

/-- 2 to 0xA100+q:09. -/
def queueResume (src : Src) (q : Nat) (dev : Dev) (c : Core) : Core :=
  if 256 ≤ q then c.answer src (0xA100 + q) 9 stNoObject
  else if c.reach dev src (0xA100 + q) 9 true ∧ (c.queue q).state = 2 then
    (c.setQueue q { c.queue q with state := 1 }).answer src (0xA100 + q) 9 stOk
  else c.answer src (0xA100 + q) 9 stDenied

def execQueueResume (src : Src) (q : Nat) : State → Res := lift (queueResume src q)

/-- A function-level reset aborts the function's queues, and every VF's when the PF is reset, which enables no VF
afterwards (R355). -/
def execFunctionLevelReset (fn : Nat) : State → Res :=
  lift fun dev c =>
    if dev = .boot then c.retry
    else
      let c := if fn = 0 then c.setObj 0xA003 0 0 else c
      (c.links.queues.filter fun p => c.queueFn p.1 == fn || (fn == 0 && c.queueFn p.1 != 0)).foldl
        (fun c p => c.abortQueue p.1) c

/-- The PCIe link goes down (R363). -/
def execPcieLinkDown : State → Res := lift fun _ c => c.pcieDown

/-! ### Type 0x01 -/

/-- The tally op (R362): it waits, writes its value where the address is nonzero, and signals. -/
def execTallyOp (d : Nat) : State → Res :=
  lift fun dev c =>
    c.issue dev d [0x01] (fun _ => [4]) fun x c =>
      let a := x.f 16 8
      let v := bytesAt x.bytes 24 8
      if a = 0 then c.workDone d
      else if bitAt a 63 then (c.hostStore (c.queueFn x.queue) (a % 2 ^ 63) v).workDone d
      else
        match c.plainBad a 8 with
        | some e => c.rejectAccess d (srcOf 0x0E x.queue) 16 e
        | none => (c.put a v).workDone d

/-! ### Type 0x02 -/

/-- Chunks of a copy: 4 KiB, aligned to the destination; (offset, length) ascending. (log 22: DESIGN CHOICE) -/
def copyChunks (dst len : Nat) : Nat → Nat → List (Nat × Nat)
  | 0, _ => []
  | f + 1, off =>
    if len ≤ off then []
    else
      let n := min (4096 - (dst + off) % 4096) (len - off)
      (off, n) :: copyChunks dst len f (off + n)

/-- A copy fails in flight (R362). -/
def Core.copyFail (c : Core) (d off : Nat) : Core :=
  match KMap.get? c.links.copies d with
  | none => c
  | some r => c.reject d 0xA011 (srcOf 0x17 r.engine) 0xFFFF (off % 2 ^ 32)

/-- Replace a running copy. -/
def Core.setCopy (c : Core) (d : Nat) (r : CopyRun) : Core :=
  { c with links := { c.links with copies := KMap.set c.links.copies d r } }

/-- The bytes of a chunk land in a local destination, or leave for the peer. `none`: the copy failed. -/
def Core.copyLand (c : Core) (d : Nat) (r : CopyRun) (off : Nat) (bs : List Byte) : Core × Bool :=
  let fn := match c.desc? d with
    | some x => c.queueFn x.queue
    | none => 0
  let n := bs.length
  match r.dstLoc with
  | 1 => ((c.hostStore fn (r.dst + off) bs).bump 0xA880 0xA n, true)
  | 0 =>
    match c.plainBad (r.dst + off) n with
    | some _ => (c.copyFail d off, false)
    | none => ((c.put (r.dst + off) bs).bump 0xA880 0xA n, true)
  | _ =>
    match c.sendWr 2 r.peer (r.dst + off) bs (.copyWrite d off) with
    | some c => (c.setCopy d { r with flight := r.flight + 1 }, true)
    | none => (c.copyFail d off, false)

/-- Start one chunk. -/
def Core.copyStart (c : Core) (d : Nat) (r : CopyRun) (off n : Nat) : Core × Bool :=
  let fn := match c.desc? d with
    | some x => c.queueFn x.queue
    | none => 0
  match r.srcLoc with
  | 1 => c.copyLand d r off (c.hostRead fn (r.src + off) n)
  | 0 =>
    match c.plainBad (r.src + off) n with
    | some _ => (c.copyFail d off, false)
    | none =>
      let c := c.touch (r.src + off) n
      if c.poisoned (r.src + off) n then (c.copyFail d off, false)
      else c.copyLand d r off (c.bytes (r.src + off) n)
  | _ =>
    match c.sendRd 2 r.peer (r.src + off) n (.copyRead d off) with
    | some c => (c.setCopy d { r with flight := r.flight + 1 }, true)
    | none => (c.copyFail d off, false)

/-- Move chunks while the engine may have more in flight: 8, or 1 for overlapping ranges. When none is left and none is
in flight the copy's work is done. (log 22: DESIGN CHOICE) -/
def Core.copyPump (c : Core) (d : Nat) : Nat → Core
  | 0 => c
  | f + 1 =>
    match KMap.get? c.links.copies d with
    | none => c
    | some r =>
      match r.chunks with
      | [] =>
        if r.flight = 0 then
          ({ c with links := { c.links with copies := KMap.erase c.links.copies d } }).workDone d
        else c
      | (off, n) :: rest =>
        if (if r.serial then 1 else 8) ≤ r.flight then c
        else
          let r := { r with chunks := rest }
          match (c.setCopy d r).copyStart d r off n with
          | (c, true) => c.copyPump d f
          | (c, false) => c

/-- Run a copy as far as it goes now. -/
def Core.copyGo (c : Core) (d : Nat) : Core :=
  match KMap.get? c.links.copies d with
  | none => c
  | some r => c.copyPump d (r.chunks.length + 2)

/-- A chunk's transaction ended well. -/
def Core.copyLanded (c : Core) (d n : Nat) : Core :=
  match KMap.get? c.links.copies d with
  | none => c
  | some r => (((c.setCopy d { r with flight := r.flight - 1 }).bump 0xA880 0xA n).copyGo d).owe c (.desc d)

/-- A chunk read from a peer arrives: it lands, and the copy goes on. -/
def Core.copyArrived (c : Core) (d off : Nat) (bs : List Byte) : Core :=
  match KMap.get? c.links.copies d with
  | none => c
  | some r =>
    let r := { r with flight := r.flight - 1 }
    (match (c.setCopy d r).copyLand d r off bs with
      | (c, true) => c.copyGo d
      | (c, false) => c).owe c (.desc d)

/-- Is an engine idle? -/
def Core.engineIdle (c : Core) (e : Nat) : Bool := e < 8 && !(c.links.copies.any fun p => p.2.engine == e)

/-- The copy (R362) on an idle engine. (log 22: DESIGN CHOICE) -/
def execCopy (d engine : Nat) : State → Res :=
  lift fun dev c =>
    if !c.engineIdle engine then c
    else
      c.issue dev d [0x02] (fun _ => [if engine < 4 then 4 else 5]) fun x c =>
        let src := x.f 16 8
        let dst := x.f 24 8
        let len := x.f 32 8
        let sl := x.f 40 1
        let dl := x.f 41 1
        let bad : List (Bool × Nat × Nat × Nat) := [
          (1 ≤ len && len ≤ 2 ^ 40, 0xA010, 32, len),
          (sl ≤ 2, 0xA010, 40, sl),
          (dl ≤ 2, 0xA010, 41, dl),
          ((bytesAt x.bytes 43 21).all (· == 0), 0xA010, 43, 0)]
        c.checked d (srcOf 0x17 engine) bad fun c =>
          let overlap := sl == dl && src < dst + len && dst < src + len
          let chunks := copyChunks dst len (len / 4096 + 2) 0
          let run : CopyRun :=
            { engine := engine, src := src, dst := dst, srcLoc := sl, dstLoc := dl, peer := x.f 42 1
              chunks := if overlap && src < dst then chunks.reverse else chunks
              flight := 0, serial := overlap }
          ((if overlap then c.bump 0xA880 0xB 1 else c).setCopy d run).copyGo d

end Sys2Proof.Machine
end

