-- ==== Sys2Proof/Machine/Tracker.lean ====
section
/-! DEFINITION. Scale tracking (chapter 5): records and delayed exponents, what a descriptor latches, block conversion
and its classification, widening and the safety net, spans and converters, watch records. -/

namespace Sys2Proof.Machine

/-! ### Records -/

/-- The key of a tracked tensor (R155). -/
def trackKey (layer kind role : Nat) : Nat := (kind - 1) * 24576 + role * 4096 + layer

/-- Profile number of a layer's role (R139). -/
def Core.profileOf (c : Core) (layer role : Nat) : Nat :=
  fld (c.obj (0x3500 + layer / 256) (layer % 256)) (4 * role + 3) (4 * role)

/-- A profile's field. -/
def Core.prof (c : Core) (p sub : Nat) : Nat := c.obj (0x3600 + p) sub

/-- The objects that amax_init of a record rests on: the profile maps and the profiles' subindex 08. -/
def aboutInit (k : Nat) : Bool :=
  (0x3500 ≤ k / 256 && k / 256 ≤ 0x350F) || (0x3600 ≤ k / 256 && k / 256 ≤ 0x360F && k % 256 == 8)

/-- amax_init of a record as the last step advance, or BOOT, found it (R141). -/
def Core.amaxInit (c : Core) (layer role : Nat) : Nat :=
  let c' : Core := { c with dict := { c.dict with objs := c.fwd.initObjs } }
  c'.prof (c'.profileOf layer role) 8

/-- A record; one with no history yet has the a_ref that the last step advance, or BOOT, gave it (R141). -/
def Core.record (c : Core) (layer kind role : Nat) : TrackRec :=
  match KMap.get? c.fwd.track (trackKey layer kind role) with
  | some r => r
  | none => { aref := c.amaxInit layer role }

def Core.setRecord (c : Core) (layer kind role : Nat) (r : TrackRec) : Core :=
  { c with fwd := { c.fwd with track := KMap.set c.fwd.track (trackKey layer kind role) r } }

/-- The element format of a format code; E4M3 where there is none (R141). -/
def elemOf (fmt : Nat) : Elem :=
  match blkOfCode fmt with
  | some b => b.elem
  | none => (elemOfCode fmt).getD (.flt fmtE4M3)

/-- E_d from a_ref (R141): at the clamp for an infinite one. -/
def delayedExp (role m : Nat) (fmax aref : Num) : Nat :=
  match aref with
  | .inf _ => 254
  | _ => if role = 0 then clampE (128 + m + aref.flog) else clampE (127 + m + clogRatio aref fmax)

/-- Is a layer and kind widened, or the step wide (R152, R153)? -/
def Core.isWidened (c : Core) (layer kind : Nat) : Bool :=
  c.fwd.widened.contains (kind * 4096 + layer) || (kind == 2 && c.fwd.wideStep)

/-- The address of a record in the tile store (Table 10.8). -/
def trackAddr (key : Nat) : Nat := tsBase + 0x05400000 + 128 * key

/-- A record loses its history; a_ref falls back to amax_init at the next advance (R170). -/
def TrackRec.lose (r : TrackRec) : TrackRec := { r with hist := [], lost := true }

/-- Spans a converter holds. -/
def Core.heldBy (c : Core) (v : Nat) : Nat := (c.fwd.spans.filter fun s => s.conv == some v).length

/-- The converter the next span of a die would take (R473); 2 is either die. -/
def Core.nextConv (c : Core) (die : Nat) : Nat :=
  ((List.range 16).find? fun v => c.heldBy v < 2 && (die == 2 || v / 8 == die)).getD (if die = 1 then 8 else 0)

/-- A record is read: a poisoned word of it empties its history (R170, R333). The converter that detects it is the one a
span of the record's die would take (log 155: DESIGN CHOICE). -/
def Core.trackRead (c : Core) (layer kind role : Nat) : Core :=
  let k := trackKey layer kind role
  let c := c.touch (trackAddr k) 128
  if c.poisoned (trackAddr k) 128 then
    ((c.setRecord layer kind role (c.record layer kind role).lose).clearPoison (trackAddr k) 128).raise
      { code := 0x301A, source := srcOf 0x05 (c.nextConv (trackAddr k / 4096 % 2)) }
  else c

/-- Every record is read, as at a step advance: each record with a poisoned or flipped word. -/
def Core.trackReadAll (c : Core) : Core :=
  ((c.mem.poison ++ c.mem.tsFlips.map (·.1)).filter fun u => trackAddr 0 ≤ u && u < trackAddr 49152).foldl
    (fun c u =>
      let k := (u - trackAddr 0) / 128
      c.trackRead (k % 4096) (k / 24576 + 1) (k / 4096 % 6)) c

/-- What a descriptor latches of a tensor (R138, R139, R142), and the record that remembers it. Layer ids of 4,096 and
more have no record and no wide step widens them (log 126: DEDUCED). -/
def Core.latch (c : Core) (layer kind role fmt : Nat) : Latch × Core :=
  if 4096 ≤ layer then
    ({ layer := layer, kind := kind, role := role, tracked := false, ed := 127, wide := false, step := c.step, prof := 0,
       window := 0, policy := 1, limit := 0, satFar := 0, split := c.prof 0 7 }, c)
  else
    let c := c.trackRead layer kind role
    let p := c.profileOf layer role
    let r := c.record layer kind role
    let ed := delayedExp role (c.prof p 2) (elemOf fmt).maxMag (f32 r.aref)
    let r := { r with fmt := fmt, obs := { r.obs with ed := ed, wasEmpty := r.hist.isEmpty } }
    ({ layer := layer, kind := kind, role := role, tracked := true, ed := ed, wide := c.isWidened layer kind,
       step := c.step, prof := p, window := c.prof p 3, policy := c.prof p 4, limit := c.prof p 5,
       satFar := c.prof p 6, split := c.prof p 7 }, c.setRecord layer kind role r)

/-- A latch with no tracked tensor: every block fits its own amax (R138). -/
def Core.noLatch (c : Core) (layer kind role split : Nat) : Latch :=
  { layer := layer, kind := kind, role := role, tracked := false, ed := 127, wide := false, step := c.step, prof := 0,
    window := 0, policy := 1, limit := 0, satFar := 0, split := split }

/-! ### Converting a block (R143 to R147) -/

/-- What conversions count. Sums of several conversions add field by field. -/
structure Tally5 where
  sat : Nat := 0
  zeroed : Nat := 0
  crushed : Nat := 0
  vanished : Nat := 0
  pinned : Nat := 0
  split : Nat := 0
  clampHi : Nat := 0
  clampLo : Nat := 0
  nfSat : Nat := 0
  nfBlk : Nat := 0
  deriving DecidableEq, Repr

def Tally5.add (x y : Tally5) : Tally5 :=
  ⟨x.sat + y.sat, x.zeroed + y.zeroed, x.crushed + y.crushed, x.vanished + y.vanished, x.pinned + y.pinned,
   x.split + y.split, x.clampHi + y.clampHi, x.clampLo + y.clampLo, x.nfSat + y.nfSat, x.nfBlk + y.nfBlk⟩

/-- The largest finite magnitude of a list. -/
def amaxOf (xs : List Num) : Num :=
  xs.foldl (fun a x => if x.nonFinite then a else Num.maxAbs a x) (.zero false)

/-- E_fit before any clamp (R143). -/
def fitExp (act : Bool) (fmax amax : Num) : Int :=
  if amax.isZero then 1 else if act then 128 + amax.flog else fitRaw amax fmax

/-- A block's exponent and how it got it (R143): 0 at the floor, 1 own-scaled, 2 capped. -/
def blockExp (lat : Latch) (useFit : Bool) (fit : Int) : Nat × Nat :=
  if useFit then (clampE fit, if 254 < fit then 2 else 1)
  else
    let floor := max 1 (lat.ed - lat.window)
    let e := min lat.ed (max (clampE fit) floor)
    (e, if (lat.ed : Int) < fit then 2 else if clampE fit ≤ floor then 0 else 1)

/-- Convert the elements of a block at exponent e with split offsets o; element i has counter ctr + i. -/
def convElems (t : Elem) (nfp : Bool) (mode key ctr e : Nat) (offs : List Nat) (xs : List Num) : List Conv :=
  (xs.zipIdx).map fun (x, i) =>
    t.conv nfp (rndOf mode key (ctr + i)) (x.scale (127 - (e : Int) + (offs.getD (i / 8) 0 : Nat)))

/-- Zeroed elements among conversions: nonzero finite inputs whose result is zero. -/
def zeroedOf (xs : List Num) (cs : List Conv) : Nat :=
  ((xs.zip cs).filter fun p => !p.1.isZero && !p.1.nonFinite && p.2.zeroed).length

/-- A block converted: scale word, data bytes, counts. -/
structure BlkOut where
  word : Nat
  data : List Byte
  cnt : Tally5
  deriving DecidableEq, Repr

/-- Convert a block of at most 32 values, padding left out (R143 to R147, R22, R34, R35). -/
def convBlk (f : BlkFmt) (lat : Latch) (useFit nfp : Bool) (mode key ctr : Nat) (xs : List Num) : BlkOut :=
  let t := f.elem
  let zeros := List.replicate f.bytes (0 : Byte)
  if nfp && xs.any Num.nonFinite then { word := 0xFF, data := zeros, cnt := { nfBlk := 1 } }
  else if xs.all Num.isZero then { word := 0, data := zeros, cnt := {} }
  else
    let fit := fitExp false t.maxMag (amaxOf xs)
    let (e, kind) := blockExp lat useFit fit
    let plain := convElems t nfp mode key ctr e [] xs
    let doSplit := f == .b4s && kind != 0 && lat.split < zeroedOf xs plain
    let offs := if doSplit then
        (List.range 4).map fun k =>
          let sub := (xs.drop (8 * k)).take 8
          if sub.all Num.isZero then 0
          else min 3 ((e : Int) - (clampE (fitExp false t.maxMag (amaxOf sub)) : Int)).toNat
      else []
    let isSplit := offs.any (· != 0)
    let cs := if isSplit then convElems t nfp mode key ctr e offs xs else plain
    let z := zeroedOf xs cs
    let sat := (cs.filter Conv.sat).length
    let live := (xs.filter fun x => !x.isZero).length
    let vanished := cs.all fun x => x.code == 0
    let cnt : Tally5 :=
      { sat := sat, zeroed := z, crushed := if kind = 0 then 0 else z, vanished := if vanished then 1 else 0,
        pinned := if sat = live then 1 else 0, split := if isSplit && !vanished then 1 else 0,
        clampHi := if 254 < fit ∧ e = 254 then 1 else 0, clampLo := if e = 1 then z else 0,
        nfSat := (cs.filter Conv.nfSat).length }
    if vanished then { word := 0, data := zeros, cnt := cnt }
    else
      let w := e + (if isSplit then
        (List.range 4).foldl (fun a k => a + (offs.getD k 0) * 2 ^ (8 + 2 * k)) 0 else 0)
      { word := w, data := pack t.width ((cs.map Conv.code) ++ List.replicate (32 - cs.length) 0), cnt := cnt }

/-- A block in plane form (R28): the block, its counts, the histogram bins of its elements, and its zero count. -/
structure ActOut where
  blk : ActBlk
  cnt : Tally5
  bins : List Nat
  zeros : Nat
  deriving DecidableEq, Repr

/-- |x| * 2^(127 + p - E) to 16 fraction bits, rounded down. -/
def planeFix (p e : Nat) (x : Num) : Nat :=
  match x with
  | .fin _ m k =>
    let s : Int := k + 127 + p - e + 16
    if 0 ≤ s then m <<< s.toNat else m >>> (-s).toNat
  | _ => 0

/-- Form a block in plane form with p planes (R28, R83, R145, R34, R35). -/
def convAct (lat : Latch) (useFit nfp : Bool) (p : Nat) (xs : List Num) : ActOut :=
  let none_ : ActBlk := { e := 0, nf := false, neg := [], mag := [], rho := [] }
  if nfp && xs.any Num.nonFinite then
    { blk := { none_ with nf := true }, cnt := {}, bins := [], zeros := 0 }
  else if xs.all Num.isZero then { blk := none_, cnt := {}, bins := [], zeros := xs.length }
  else
    let fit := fitExp true (.ofNat 1) (amaxOf xs)
    let (e, kind) := blockExp lat useFit fit
    let one := fun (x : Num) =>
      let v := planeFix p e x
      let clip := x.nonFinite || (!x.isZero && (e : Int) - 127 ≤ x.flog)
      if clip then (2 ^ p - 1, 0, true) else (v / 65536, v % 65536, false)
    let rs := xs.map one
    let fin := (xs.zip rs).filter fun q => !q.1.isZero && !q.1.nonFinite
    let z := (fin.filter fun q => q.2.1 == 0).length
    let sat := (rs.filter fun r => r.2.2).length
    let live := (xs.filter fun x => !x.isZero).length
    let vanished := rs.all fun r => r.1 == 0
    let cnt : Tally5 :=
      { sat := sat, zeroed := z, crushed := if kind = 0 then 0 else z, vanished := if vanished then 1 else 0,
        pinned := if sat = live then 1 else 0, clampHi := if 254 < fit ∧ e = 254 then 1 else 0,
        clampLo := if e = 1 then z else 0, nfSat := (xs.filter Num.nonFinite).length }
    let bins := fin.map fun q =>
      let l : Int := q.1.flog - ((e : Int) - 127)
      if 0 ≤ l then 0 else min 9 (-l).toNat
    { blk := if vanished then none_ else
        { e := e, nf := false, neg := xs.map Num.sign, mag := rs.map (·.1), rho := rs.map (·.2.1) }
      cnt := cnt, bins := bins, zeros := (xs.filter Num.isZero).length }

/-! ### Observations (R140, R156) -/

/-- A value presented to the converter, into the record's step observations: FP32 values, held at FP32's maximum
(log 127: DESIGN CHOICE). -/
def Obs.see (o : Obs) (x : Num) : Obs :=
  let o := { o with elems := o.elems + 1 }
  if x.nonFinite then { o with nonfin := o.nonfin + 1 }
  else
    let o := { o with saw := true, amax := f32Code (satF32 (Num.maxAbs (f32 o.amax) x)),
                      sumsq := f32Code (satF32 ((x.mul x).add (f32 o.sumsq))) }
    if x.isZero then o
    else
      let l := f32 o.least
      { o with nonzero := o.nonzero + 1
               least := if o.nonzero = 0 ∨ Num.absGt l x then f32Code (satF32 x.abs) else o.least }

/-- A block presented to the converter. A non-finite block read as zeros is so many non-finite inputs (R33) and shows no
value. -/
def Obs.seeBlk (o : Obs) (nfz : Bool) (vs : List Num) : Obs :=
  if nfz then { o with elems := o.elems + vs.length, nonfin := o.nonfin + vs.length } else vs.foldl Obs.see o

/-- The blocks of a span. -/
def Obs.seeSpan (o : Obs) (bs : List (Bool × List Num)) : Obs :=
  bs.foldl (fun (o : Obs) (b : Bool × List Num) => o.seeBlk b.1 b.2) o

/-- Classifications of a written span. -/
def Obs.count (o : Obs) (t : Tally5) : Obs :=
  { o with sat := o.sat + t.sat, zeroed := o.zeroed + t.zeroed, crushed := o.crushed + t.crushed,
           vanished := o.vanished + t.vanished, pinned := o.pinned + t.pinned, split := o.split + t.split }

/-- Device counters of a written conversion (Table 5.8, R34, R35). -/
def Core.countConv (c : Core) (t : Tally5) : Core :=
  (((((((((c.bump 0x3880 1 t.sat).bump 0x3880 2 t.zeroed).bump 0x3880 3 t.crushed).bump 0x3880 4 t.vanished).bump
    0x3880 5 t.pinned).bump 0x3880 6 t.split).bump 0x3880 0xF t.clampHi).bump 0x3880 0x10 t.clampLo).bump
    0x3008 2 t.nfSat).bump 0x3008 3 t.nfBlk

/-- A record's observations of a step: the present one, or a closed one (R142). -/
def TrackRec.obsAt (r : TrackRec) (now step : Nat) : Obs :=
  if step = now then r.obs
  else match r.past.find? (fun p => p.step == step) with
    | some p => p.obs
    | none => {}

/-- Steps in order; 0xFFFFFFFF stands before the first open. -/
def stepOrd (s : Nat) : Nat := (s + 1) % 2 ^ 32

/-- A closed step's amax enters the history late: at its step's entry, or at its place among them (R140, R142).
(log 128: DEDUCED) -/
def histSee : List (Nat × Nat) → Nat → Nat → List (Nat × Nat)
  | [], step, a => [(step, a)]
  | (s, b) :: rest, step, a =>
    if s = step then (s, if Num.absGt (f32 a) (f32 b) then a else b) :: rest
    else if stepOrd s < stepOrd step then (step, a) :: (s, b) :: rest
    else (s, b) :: histSee rest step a

/-- Change a record's observations of the step a descriptor latched (R142). (log 128: DEDUCED) -/
def TrackRec.observe (r : TrackRec) (now step : Nat) (f : Obs → Obs) : TrackRec :=
  if step = now then { r with obs := f r.obs }
  else
    let o := f (r.obsAt now step)
    { r with
      past := r.past.map fun p => if p.step = step then { p with obs := o } else p
      hist := if o.saw then (histSee r.hist step o.amax).take 32 else r.hist }

/-- Kind-2 layers below 4,096 that saw values in a step. -/
def Core.activeIn (c : Core) (step : Nat) : Nat :=
  let ks := (c.fwd.track.filter fun p => 24576 ≤ p.1 && (p.2.obsAt c.step step).saw).map fun p => p.1 % 4096
  (ks.foldl (fun a k => insertNat k a) []).length

/-- Change a record's observations of the step the descriptor latched (R142); the previous step's may still change its
layer count (R153). (log 128: DEDUCED) -/
def Core.observe (c : Core) (lat : Latch) (f : Obs → Obs) : Core :=
  if lat.layer < 4096 ∧ lat.tracked then
    let c := c.trackRead lat.layer lat.kind lat.role
    let r := c.record lat.layer lat.kind lat.role
    let c := c.setRecord lat.layer lat.kind lat.role (r.observe c.step lat.step f)
    if c.fwd.prevStep = some lat.step then { c with fwd := { c.fwd with prevActive := c.activeIn lat.step } } else c
  else c

/-! ### Widening (R152, R153) -/

/-- Layers of a kind widened in this step. -/
def Core.layersWidened (c : Core) (kind : Nat) : Nat := (c.fwd.widened.filter fun k => k / 4096 == kind).length

/-- The safety net (R153). -/
def Core.safetyNet (c : Core) (d : Nat) (lat : Latch) (conv : Nat) : Core :=
  let layers := if c.obj 0x3700 2 = 0 then c.fwd.prevActive else c.obj 0x3700 2
  let n := c.layersWidened 2
  if lat.kind ≠ 2 ∨ c.fwd.wideStep ∨ layers = 0 then c
  else if Num.lt ((f32 (c.obj 0x3700 1)).mul (.ofNat layers)) (.ofNat n) then
    let c := { c with fwd := { c.fwd with wideStep := true } }
    (c.bump 0x3880 0xB 1).raise
      { code := 0x3017, source := srcOf 0x05 conv, fmt := 6, d := some d,
        detail := detail6 lat.layer lat.role 2 n }
  else c

/-- A layer and kind widen (R152). -/
def Core.widen (c : Core) (d : Nat) (lat : Latch) (conv : Nat) : Core :=
  let k := lat.kind * 4096 + lat.layer
  if c.fwd.widened.contains k then c
  else
    let c := { c with fwd := { c.fwd with widened := k :: c.fwd.widened } }
    let c := (c.bump 0x3880 0xA 1).raise
      { code := 0x3016, source := srcOf 0x05 conv, fmt := 6, d := some d,
        detail := detail6 lat.layer lat.role lat.kind (c.layersWidened lat.kind) }
    c.safetyNet d lat conv

/-- A descriptor's mark that its remaining spans fit their own amax (R152). -/
def fitMark : Nat := 0x10000

/-- Does a descriptor's span take E_fit in every block? -/
def Core.spanFits (c : Core) (d : Nat) (lat : Latch) : Bool :=
  !lat.tracked || lat.wide || (match c.desc? d with
    | some x => x.marks.contains fitMark
    | none => false)

/-- Is a converted span far off (R149)? -/
def farOff (lat : Latch) (t : Tally5) (nonzero : Nat) : Bool :=
  0 < t.vanished || 0 < t.pinned || Num.lt ((f32 lat.satFar).mul (.ofNat nonzero)) (.ofNat t.sat)

/-- What a far-off span's policy does (R149 to R152): whether it is reconverted, and the state. A watch record's replays
and flag [4] count every reconversion, those that use no replay too (log 129: DEDUCED). -/
def Core.farPolicy (c : Core) (d : Nat) (lat : Latch) (conv : Nat) : Bool × Core :=
  let c := c.bump 0x3880 7 1
  let o := (c.record lat.layer lat.kind lat.role).obsAt c.step lat.step
  let n := o.far + 1
  let used := o.replays
  let c := c.observe lat fun o => { o with far := n }
  let ev (code cnt : Nat) : Ev :=
    { code := code, source := srcOf 0x05 conv, fmt := 6, d := some d, detail := detail6 lat.layer lat.role lat.kind cnt }
  let c := if n = 1 then c.raise (ev 0x3014 n) else c
  let mark (c : Core) : Core := c.modDesc d fun x => { x with marks := fitMark :: x.marks }
  let note (c : Core) (used : Nat) : Core := c.observe lat fun o => { o with replays := used, replayed := o.replayed + 1 }
  if lat.policy = 1 then (false, c)
  else if lat.policy = 2 then (true, (note (mark (c.widen d lat conv)) used))
  else if used < lat.limit then (true, (note c (used + 1)).bump 0x3880 8 1)
  else
    let c := (c.bump 0x3880 9 1).raise (ev 0x3015 used)
    (true, note (mark (c.widen d lat conv)) used)

/-! ### Spans and converters (R148, R473) -/

/-- Converters a type 0x30 descriptor uses. -/
def Core.convsOf (c : Core) (d : Nat) : List Nat :=
  (List.range 16).filter fun v => c.fwd.spans.any fun s => s.d == d && s.conv == some v

/-- The converter a span goes to: the lowest-numbered with a free buffer on its die; for type 0x30 either die, up to 8
of them. -/
def Core.converterFor (c : Core) (s : Span) : Option Nat :=
  (List.range 16).find? fun v =>
    c.heldBy v < 2 && (s.die == 2 || v / 8 == s.die) &&
    (s.die != 2 || (c.convsOf s.d).contains v || (c.convsOf s.d).length < 8)

/-- Replace the i-th span. -/
def Core.setSpan (c : Core) (i : Nat) (s : Span) : Core :=
  { c with fwd := { c.fwd with spans := c.fwd.spans.set i s } }

/-- Waiting spans take the buffers that are free, oldest first. -/
def Core.assignSpans (c : Core) : Core :=
  (List.range c.fwd.spans.length).foldl
    (fun c i =>
      match c.fwd.spans[i]? with
      | none => c
      | some s =>
        if s.conv.isSome then c
        else
          match c.converterFor s with
          | some v => c.setSpan i { s with conv := some v }
          | none => c) c

/-- New spans wait for a converter; while one finds no free buffer, handshakes are spent, a free number of them at least
one for each span that waits (0x3880:0E). (log 4: DESIGN CHOICE) -/
def Core.addSpans (c : Core) (ss : List Span) : Core :=
  let c := ({ c with fwd := { c.fwd with spans := c.fwd.spans ++ ss } }).assignSpans
  let n := (c.fwd.spans.filter fun s => s.conv.isNone && ss.contains s).length
  if n = 0 then c
  else
    let (v, c) := c.draw (2 ^ 32)
    c.bump 0x3880 0xE (n + v)

/-- Write a block of a scale tensor: data, scale word, and the stamp of its line; the unused words of the last line are
zero (R24, R25, R162). A page's lines are replaced whole: each has its stamp and the last its zeros at every write
(R184, R186). -/
def Core.putBlk (c : Core) (t : Target) (b : SpanBlk) (o : BlkOut) : Core :=
  let line := t.scale + 64 + 64 * (b.blk / 30)
  let c := c.lput b.data o.data
  let stamp := (t.seq + 30 * (b.blk / 30)) % 2 ^ 24 + t.tag * 2 ^ 24
  let page := t.tag == 5
  let c := if b.blk % 30 = 0 ∨ page then c.lput line (toLE 4 stamp) else c
  let c := c.lput (line + 4 + 2 * (b.blk % 30)) (toLE 2 o.word)
  let used := (t.blocks - 1) % 30 + 1
  if b.blk + 1 = t.blocks ∨ (page ∧ b.blk / 30 = (t.blocks - 1) / 30) then
    c.lput (line + 4 + 2 * used) (List.replicate (2 * (30 - used)) 0)
  else c

/-- Note a written block of a descriptor's scale tensor: its data, its scale word, and the rest of its line where it
is the first or the last. Cache writes are complete positions and stay as they are (R205). (log 122: DEDUCED) -/
def Core.noteBlk (c : Core) (d : Nat) (t : Target) (b : SpanBlk) (o : BlkOut) : Core :=
  let line := t.scale + 64 + 64 * (b.blk / 30)
  let lo := if b.blk % 30 = 0 then line else line + 4 + 2 * (b.blk % 30)
  let hi := if b.blk + 1 = t.blocks then line + 64 else line + 6 + 2 * (b.blk % 30)
  if t.tag = 5 then c else (c.noteOut d b.data o.data.length).noteOut d lo (hi - lo)

/-- The event the blocks of a span meet where they are written (R318), with its address. -/
def Core.blksBad (c : Core) (t : Target) (n : Nat) (bs : List SpanBlk) : Option (Nat × Nat) :=
  bs.findSome? fun b =>
    match c.lbad b.data n with
    | some e => some e
    | none => if t.blocks = 0 then none else c.lbad (t.scale + 64 + 64 * (b.blk / 30)) 64

/-- Write a scale header as a tensor begins; its CRC follows the last line (R162). -/
def Core.beginHeader (c : Core) (d : Nat) (scale fmt tag rows bpr : Nat) : Core :=
  let c := c.lput scale ((headerBytes fmt tag rows bpr c.step).take 60 ++ List.replicate 4 0)
  (c.modDesc d fun x => { x with hdrs := scale :: x.hdrs }).noteOut d scale 64

/-- The CRCs of a descriptor's scale headers. -/
def Core.endHeaders (c : Core) (x : Desc) : Core :=
  x.hdrs.foldl (fun c a => c.lput (a + 60) (toLE 4 (crc32c (c.lread a 60)))) c

/-- What a converter read of a span: its blocks, each with whether it is a non-finite block read as zeros, what was met,
and the event flags of a corrupted stamp and of a corrupted element. -/
structure SpanRead where
  vals : List (Bool × List Num)
  seen : Seen
  nfInj : Bool
  skewInj : Bool
  deriving DecidableEq, Repr

/-- Elements pass detector 0x11: the next input element becomes a NaN or an infinity. -/
def Core.injectElems (c : Core) (conv addr bits : Nat) (vs : List Num) : List Num × Bool × Core :=
  if !c.armed 0x11 then (vs, false, c)
  else
    (vs.zipIdx).foldl
      (fun (acc : List Num × Bool × Core) (p : Num × Nat) =>
        match acc.2.2.inject 0x11 conv (addr + p.2 * bits / 8) with
        | (none, c) => (acc.1 ++ [p.1], acc.2.1, c)
        | (some q, c) =>
          (acc.1 ++ [if q % 4 = 1 then .inf false else if q % 4 = 2 then .inf true else .nan], true, c)) ([], false, c)

/-- A block of a span's source, read by a converter: detector 0x0F adds to its stamp's sequence. -/
def Core.readSrc (c : Core) (conv : Nat) (o : Opnd) (h : List Byte) (nfp : Bool) (elem : Nat) : BlkRead × Bool × Core :=
  let row := elem / o.cols
  let k := elem % o.cols
  let n := min 32 (o.cols - k)
  if o.isBlk then
    let b := row * o.bpr + k / 32
    let r := c.readBlk o h nfp b n
    match c.inject 0x0F conv (o.scale + 64 + 64 * (b / 30)) with
    | (none, c) => (r, false, c)
    | (some p, c) =>
      if p % 2 ^ 24 = 0 then (r, false, c)
      else
        let want := (numAt h 24 4 + 30 * (b / 30)) % 2 ^ 24
        ({ r with seen := { r.seen with skew := some (want, (want + p) % 2 ^ 24, numAt h 6 1, b) } }, true, c)
  else
    let vs := (List.range n).map fun i => c.readElem o (elem + i)
    ({ word := 0, vals := vs, seen := { nonfin := (vs.filter Num.nonFinite).length } }, false, c)

/-- The values of a span's blocks: those it holds, or its source read again (R148). (log 125: DEDUCED) -/
def Core.spanVals (c : Core) (conv : Nat) (s : Span) (nfp : Bool) : SpanRead × Core :=
  s.blks.foldl
    (fun (acc : SpanRead × Core) b =>
      let a := acc.1
      match s.src with
      | none =>
        let (vs, nf, c) := acc.2.injectElems conv b.data 0 b.vals
        ({ a with vals := a.vals ++ [(false, vs)], nfInj := a.nfInj || nf
                  seen := a.seen.add { nonfin := (vs.filter Num.nonFinite).length } }, c)
      | some (o, h) =>
        let (r, sk, c) := acc.2.readSrc conv o h nfp b.elem
        let at_ := if o.isBlk then o.addr + (b.elem / o.cols * o.bpr + b.elem % o.cols / 32) * (32 * fmtBits o.fmt / 8)
          else o.addr + b.elem * fmtBits o.fmt / 8
        let (vs, nf, c) := c.injectElems conv at_ (fmtBits o.fmt) r.vals
        let n := if r.nfz then vs.length else (vs.filter Num.nonFinite).length
        ({ vals := a.vals ++ [(r.nfz, vs)], nfInj := a.nfInj || nf, skewInj := a.skewInj || sk
           seen := a.seen.add { r.seen with nonfin := n } }, c))
    ({ vals := [], seen := {}, nfInj := false, skewInj := false }, c)

/-- The nonzero finite elements of a span. -/
def nonzeroFinite (bs : List (Bool × List Num)) : Nat :=
  (bs.map fun b => (b.2.filter fun x => !x.isZero && !x.nonFinite).length).sum

/-- Convert the blocks of a span to a block format. -/
def convSpan (f : BlkFmt) (s : Span) (useFit : Bool) (bs : List (Bool × List Num)) : List BlkOut :=
  (s.blks.zip bs).map fun p =>
    convBlk f s.lat useFit s.tgt.nfp s.tgt.rmode s.tgt.key (s.tgt.role * 2 ^ 60 + p.1.elem) p.2.2

def sumTally (ts : List Tally5) : Tally5 := ts.foldl Tally5.add {}

/-! ### The step advance (R140, R141, R151, R154, R155) -/

/-- The reference amax at a step advance: the newest h entries, amax_init without any or after a lost history (R170);
0 keeps the previous. -/
def Core.nextAref (c : Core) (layer role : Nat) (r : TrackRec) : Nat :=
  let p := c.profileOf layer role
  if r.hist.isEmpty || r.lost then c.prof p 8
  else
    let a := (r.hist.take (c.prof p 1)).foldl
      (fun (a : Nat) (x : Nat × Nat) => if Num.absGt (f32 x.2) (f32 a) then x.2 else a) 0
    if a = 0 then r.aref else a

/-- A share as FP32; 0 with nothing to share. -/
def share (a b : Nat) : Nat := if b = 0 then 0 else f32Code (fdiv (.ofNat a) (.ofNat b))

/-- A watch record (Table 5.5) of a closed step. (log 129: DEDUCED) -/
def watchRecord (w : WatchSet) (layer kind role : Nat) (o : Obs) (edNext : Nat) : List Byte :=
  let step := w.step
  let sat32 (n : Nat) : List Byte := toLE 4 (min n (2 ^ 32 - 1))
  let fl := (if w.widened.contains (kind * 4096 + layer) || (kind == 2 && w.wide) then 1 else 0) +
    (if w.wide then 2 else 0) + (if o.wasEmpty then 4 else 0) +
    (if 0 < o.far then 8 else 0) + (if 0 < o.replayed then 16 else 0)
  let b := toLE 4 step ++ toLE 2 layer ++ toLE 1 (role * 16 + kind) ++ toLE 1 fl ++ toLE 8 o.elems ++ toLE 4 o.amax ++
    toLE 4 o.least ++ toLE 4 o.sumsq ++ toLE 4 (share o.zeroed o.nonzero) ++ toLE 4 (share o.sat o.nonzero) ++
    sat32 o.nonfin ++ sat32 o.crushed ++ sat32 o.vanished ++ sat32 o.pinned ++ toLE 1 o.ed ++ toLE 1 edNext ++
    toLE 1 (min o.replayed 255) ++ toLE 1 0 ++ sat32 o.split
  b ++ toLE 4 (crc32c b)

/-- The watch records of a closed step: index and bytes of each tracked tensor that saw values in it (R155, R157). -/
def Core.watchRecs (c : Core) (w : WatchSet) : List (Nat × List Byte) :=
  c.fwd.track.filterMap fun (p : Nat × TrackRec) =>
    match p.2.past.find? (fun q => q.step == w.step) with
    | some q =>
      if q.obs.saw then
        some (p.1, watchRecord w (p.1 % 4096) (p.1 / 24576 + 1) (p.1 / 4096 % 6) q.obs q.edNext)
      else none
    | none => none

/-- One record at the step advance: history, a_ref, fresh observations; those of the closed step stay for the
descriptors that latched them and for its watch record. -/
def Core.advanceRecord (c : Core) (step key : Nat) (r : TrackRec) : TrackRec :=
  let layer := key % 4096
  let role := key / 4096 % 6
  let hist := if r.obs.saw then ((step, r.obs.amax) :: r.hist).take 32 else r.hist
  let aref := c.nextAref layer role { r with hist := hist }
  let ed := delayedExp role (c.prof (c.profileOf layer role) 2) (elemOf r.fmt).maxMag (f32 aref)
  { r with hist := hist, aref := aref, obs := {}, lost := false
           past := ({ step := step, obs := r.obs, edNext := ed } :: r.past).take 2 }

/-- The trackers at a step advance: `step` is the closing step. The first open after BOOT closes no step and writes no
records (log 130: DEDUCED), and it leaves the layer count 0, as does the first after REJOIN (R153). Of three steps that
wait the oldest is dropped; 0x3019 names class 0x00 (R476) and carries the number of records in format 6
(log 131: DESIGN CHOICE). -/
def Core.advanceTrackers (c : Core) (step : Nat) : Core :=
  let c := c.trackReadAll
  let watch := if c.obj 0x3710 1 = 0 ∨ step = 0xFFFFFFFF then c.fwd.watch else
    c.fwd.watch ++ [{ step := step, wide := c.fwd.wideStep, widened := c.fwd.widened }]
  let c' := { c with fwd := { c.fwd with
    track := c.fwd.track.map fun p => (p.1, c.advanceRecord step p.1 p.2)
    initObjs := c.dict.objs.filter fun p => aboutInit p.1
    prevActive := if c.fwd.noPrev then 0 else c.activeIn step
    prevStep := if c.fwd.noPrev then none else some step
    noPrev := false, widened := [], wideStep := false, watch := watch } }
  if 3 ≤ watch.length then
    let lost := match watch with
      | w :: _ => (c.watchRecs w).length
      | [] => 0
    ({ c' with fwd := { c'.fwd with watch := watch.drop 1 } }).bump 0x3880 0x12 lost |>.raise
      { code := 0x3019, source := srcOf 0x00 0, fmt := 6, detail := detail6 0 0 0 lost }
  else c'

/-- The trackers finish writing the oldest waiting step's records (R155); with no watch area none are written.
(log 40: DEDUCED) -/
def execWatchRecordsWrite : State → Res :=
  lift fun dev c =>
    match c.fwd.watch with
    | [] => c
    | w :: rest =>
      let base := c.obj 0x3710 1
      let n := c.obj 0x3710 2
      if dev = .faultStop ∨ dev = .off then c
      else if base = 0 then { c with fwd := { c.fwd with watch := [] } }
      else
        let c := (c.watchRecs w).foldl (fun c r => c.put (base + ((w.step % n) * 49152 + r.1) * 64) r.2) c
        ({ c with fwd := { c.fwd with watch := rest } }).setObj 0x3710 3 w.step

end Sys2Proof.Machine
end

