-- ==== Sys2Proof/Machine/Convert.lean ====
section
/-! DEFINITION. The converters at work: type 0x30 (R167, R168) and the conversion of a held span (R148 to R152). -/

namespace Sys2Proof.Machine

/-- The source field of a converter. -/
def convSrc (v : Nat) : Nat := srcOf 0x05 v

/-- Write codes of w bits from bit sh of a byte on; the other bits of the bytes stay (R16). -/
def Core.putCodes (c : Core) (a sh w : Nat) (codes : List Nat) : Core :=
  let n := ceilDiv (sh + w * codes.length) 8
  if sh = 0 ∧ w * codes.length % 8 = 0 then c.lput a (pack w codes)
  else
    let m := (2 ^ (w * codes.length) - 1) <<< sh
    let old := c.lnum a n
    c.lput a (toLE n ((old - (old &&& m)) + (ofLE (pack w codes) <<< sh)))

/-- Convert values to an element format; the element of index i0 + i has counter role * 2^60 + i0 + i (R166). -/
def convElemsTo (t : Elem) (nfp : Bool) (mode key role i0 : Nat) (xs : List Num) : List Conv :=
  (xs.zipIdx).map fun (x, i) => t.conv nfp (rndOf mode key (role * 2 ^ 60 + i0 + i)) x

/-- What element conversions count. -/
def elemTally (xs : List Num) (cs : List Conv) : Tally5 :=
  { sat := (cs.filter Conv.sat).length, zeroed := zeroedOf xs cs, nfSat := (cs.filter Conv.nfSat).length }

/-- A tensor that a descriptor writes in a block format: its header, once the header's place exists (R162, R318). -/
def Core.openTensor (c : Core) (d source off scale fmt tag rows bpr : Nat) : Core :=
  match c.lbad scale 64 with
  | some e => c.rejectAccess d source off e
  | none => c.beginHeader d scale fmt tag rows bpr

/-- The blocks of rows [r0, r1) and columns [k0, k1) of a tensor of `cols` columns, as a span writes them: data at
`addr` in format `fmt`. -/
def spanBlks (addr fmt cols r0 r1 k0 k1 : Nat) : List SpanBlk :=
  let bpr := ceilDiv cols 32
  (List.range (r1 - r0)).flatMap fun i =>
    (List.range (ceilDiv (k1 - k0) 32)).map fun j =>
      let blk := (r0 + i) * bpr + k0 / 32 + j
      let elem := (r0 + i) * cols + k0 + 32 * j
      { blk := blk, elem := elem, vals := []
        data := match blkOfCode fmt with
          | some b => addr + blk * b.bytes
          | none => addr + elem * fmtBits fmt / 8 }

/-- The spans of a tensor of rows × cols: 8 rows by up to 4,096 elements (Table 5.1), reading their source. -/
def rowSpans (d die : Nat) (lat : Latch) (tgt : Target) (act : Bool) (src : Opnd × List Byte) (addr : Nat) :
    List Span :=
  let rows := src.1.rows
  let cols := src.1.cols
  (List.range (ceilDiv rows 8)).flatMap fun g =>
    (List.range (ceilDiv cols 4096)).map fun k =>
      { d := d, die := die, lat := lat, tgt := tgt, act := act, src := some src, conv := none
        blks := spanBlks addr tgt.fmt cols (8 * g) (min rows (8 * g + 8)) (4096 * k) (min cols (4096 * k + 4096)) }

/-- The spans of values a stage has computed: rg rows by up to kg elements (Table 5.1). -/
def valueSpans (d die : Nat) (lat : Latch) (tgt : Target) (cols addr r0 rg kg : Nat) (rows : List (List Num)) :
    List Span :=
  (List.range (ceilDiv rows.length rg)).flatMap fun g =>
    (List.range (ceilDiv cols kg)).map fun k =>
      let r1 := min rows.length (rg * g + rg)
      { d := d, die := die, lat := lat, tgt := tgt, act := false, src := none, conv := none
        blks := (spanBlks addr tgt.fmt cols (r0 + rg * g) (r0 + r1) (kg * k) (min cols (kg * k + kg))).map
          fun (b : SpanBlk) =>
            let row := b.elem / cols - r0
            { b with vals := ((rows.getD row []).drop (b.elem % cols)).take (min 32 (cols - b.elem % cols)) } }

/-- A converter's span leaves its buffer. -/
def Core.spanLeaves (c : Core) (s : Span) : Core :=
  ({ c with fwd := { c.fwd with spans := c.fwd.spans.erase s } }).assignSpans

/-- Add a span's bins to its descriptor's window, saturating at 2^32 - 1 (R83), and its blocks to the tiles' buffers.
(log 136: DEDUCED) -/
def FtRun.take (r : FtRun) (cols : Nat) (outs : List (SpanBlk × ActOut)) : FtRun :=
  let cap (n : Nat) : Nat := min n (2 ^ 32 - 1)
  { r with
    acts := outs.foldl (fun m p => KMap.set m (p.1.elem / cols * 2048 + p.1.elem % cols / 32) p.2.blk) r.acts
    hist := (r.hist.zipIdx).map fun (h, i) => cap (h + (outs.map fun p => p.2.bins.countP (· == i)).sum)
    zeros := cap (r.zeros + (outs.map fun p => p.2.zeros).sum) }

/-- An ACT span in plane form (R28, R83). -/
def actForms (s : Span) (r : FtRun) (nfp fit : Bool) (bs : List (Bool × List Num)) : List ActOut :=
  bs.map fun b =>
    let o := convAct s.lat fit nfp r.planes b.2
    if b.1 then { o with zeros := 0 } else o   -- non-finite inputs lie outside the zero count (R83)

/-- An ACT span leaves for the tiles: what its conversion counts, its tensor's observations, the window's bins. -/
def Core.releaseAct (c : Core) (s : Span) (bs : List (Bool × List Num)) (outs : List ActOut) : Core :=
  let t := sumTally (outs.map (·.cnt))
  let c := (c.countConv t).observe s.lat fun o => (o.seeSpan bs).count t
  let cols := match s.src with
    | some (o, _) => o.cols
    | none => 1
  let c := if s.lat.layer < 4096 then c else c.bump 0x3880 0x13 1
  { c with fwd := { c.fwd with runs := c.fwd.runs.map fun q => if q.d = s.d then q.take cols (s.blks.zip outs) else q } }

/-- A converted span is written back. -/
def Core.releaseBlks (c : Core) (s : Span) (x : Desc) (bs : List (Bool × List Num)) (outs : List BlkOut) : Core :=
  let t := sumTally (outs.map (·.cnt))
  let c := (c.countConv t).observe s.lat fun o => (o.seeSpan bs).count t
  let c := if s.lat.layer < 4096 then c else c.bump 0x3880 0x13 1
  let c := if s.lat.role = 2 ∧ x.ty ≠ 0x30 ∧ x.f 30 1 ≠ s.tgt.fmt then c.bump 0x3880 0x11 s.blks.length else c
  (s.blks.zip outs).foldl (fun c p => (c.putBlk s.tgt p.1 p.2).noteBlk s.d s.tgt p.1 p.2) c

/-- A span of a type 0x30 tensor in an element format. -/
def Core.convertElems (c : Core) (s : Span) (t : Elem) (bs : List (Bool × List Num)) : Core :=
  let c := if s.lat.layer < 4096 then c else c.bump 0x3880 0x13 1
  (s.blks.zip bs).foldl
    (fun c p =>
      let cs := convElemsTo t s.tgt.nfp s.tgt.rmode s.tgt.key s.tgt.role p.1.elem p.2.2
      let sh := p.1.elem * t.width % 8
      let c := (c.countConv (elemTally p.2.2 cs)).putCodes p.1.data sh t.width (cs.map Conv.code)
      if s.item.isSome then c else c.noteOut s.d p.1.data (ceilDiv (sh + t.width * cs.length) 8)) c

/-- The source ranges of a span: data and scale lines; the writer of pages reads each scale line it replaces (R186). -/
def Span.ranges (s : Span) : List (Nat × Nat × Nat) :=
  match s.src with
  | none =>
    if s.item.isSome ∧ s.tgt.blocks ≠ 0 then
      ((s.blks.map fun b => b.blk / 30).eraseDups).map fun j => (0xFFFF, s.tgt.scale + 64 + 64 * j, 64)
    else []
  | some (o, _) =>
    s.blks.flatMap fun b =>
      let row := b.elem / o.cols
      let k := b.elem % o.cols
      match blkOfCode o.fmt with
      | some f =>
        let i := row * o.bpr + k / 32
        [(0xFFFF, o.addr + i * f.bytes, f.bytes), (0xFFFF, o.scale + 64 + 64 * (i / 30), 64)]
      | none => [(0xFFFF, o.addr + b.elem * fmtBits o.fmt / 8, ceilDiv (min 32 (o.cols - k) * fmtBits o.fmt) 8)]

/-- The addresses of a span's operand: what it reads, or where the values it holds go. -/
def Span.places (s : Span) : List (Nat × Nat) :=
  match s.src with
  | some _ => s.ranges.map fun r => r.2
  | none => s.blks.map fun b => (b.data, max 1 (32 * fmtBits s.tgt.fmt / 8))

/-- A span that its policy converts once more reads its source again where it holds none of it (R148, R150): the blocks,
or none where the second reading rejects the descriptor. What the elements are was counted at the first reading. -/
def Core.reread (c : Core) (s : Span) (conv : Nat) (nfp : Bool) (bs : List (Bool × List Num)) :
    Option (List (Bool × List Num)) × Core :=
  if s.src.isNone then (some bs, c)
  else
    match c.fetchAll s.ranges with
    | (c, some (off, e)) => (none, c.rejectAccess s.d (convSrc conv) off e)
    | (c, none) =>
      let (r, c) := c.spanVals conv s nfp
      match r.seen.skew with
      | some e => (none, c.rejectSkew s.d (convSrc conv) 0 e r.skewInj)
      | none => (some r.vals, c)

/-- An ACT span: plane form for the tiles (R28, R83, R148). (log 31: DEDUCED) -/
def Core.convertAct (c : Core) (s : Span) (conv : Nat) (r : FtRun) (bs : List (Bool × List Num)) (nfp : Bool) : Core :=
  let fit := r.wide || c.spanFits s.d s.lat
  let outs := actForms s r nfp fit bs
  let (redo, c) := if !fit && farOff s.lat (sumTally (outs.map (·.cnt))) (nonzeroFinite bs) then
      c.farPolicy s.d s.lat conv else (false, c)
  if !redo then c.releaseAct s bs outs
  else
    match c.reread s conv nfp bs with
    | (none, c) => c
    | (some bs, c) => c.releaseAct s bs (actForms s r nfp true bs)

/-- A span of a block-format tensor. -/
def Core.convertBlks (c : Core) (s : Span) (conv : Nat) (f : BlkFmt) (x : Desc) (bs : List (Bool × List Num)) : Core :=
  let fit := c.spanFits s.d s.lat
  let outs := convSpan f s fit bs
  let (redo, c) := if !fit && farOff s.lat (sumTally (outs.map (·.cnt))) (nonzeroFinite bs) then
      c.farPolicy s.d s.lat conv else (false, c)
  if !c.live s.d then c
  else if !redo then c.releaseBlks s x bs outs
  else
    match c.reread s conv x.nfp bs with
    | (none, c) => c
    | (some bs, c) => c.releaseBlks s x bs (convSpan f s true bs)

/-- Detector 0x0C: an injected uncorrectable error in a span buffer rejects the owner; one in a record empties its
history, and a_ref falls back to amax_init at the next advance (R170). Answers whether the span goes on. -/
def Core.spanErrors (c : Core) (s : Span) (conv : Nat) : Bool × Core :=
  match c.inject 0x0C conv (c.armedAddr 0x0C conv s.places) with
  | (none, c) => (true, c)
  | (some p, c) =>
    if p % 2 = 0 then (false, c.reject s.d 0x301A (convSrc conv) 0xFFFF 0 true)
    else
      let c := if s.lat.layer < 4096 then
          c.setRecord s.lat.layer s.lat.kind s.lat.role
            (c.record s.lat.layer s.lat.kind s.lat.role).lose
        else c
      (true, c.raise { code := 0x301A, source := convSrc conv, d := none, inj := true })

/-- The values a converter has read of a span go where they belong. -/
def Core.convertRead (c : Core) (s : Span) (conv : Nat) (x : Desc) (r : SpanRead) : Core :=
  match r.seen.skew with
  | some e => c.rejectSkew s.d (convSrc conv) 0 e r.skewInj
  | none =>
    let c := if s.lat.role = 2 ∧ x.ty ≠ 0x30 then c else c.countSeen s.d (convSrc conv) r.seen r.nfInj
    if !c.live s.d then c
    else if s.act then
      match c.fwd.runs.find? (fun q => q.d == s.d) with
      | none => c
      | some q => c.convertAct s conv q r.vals x.nfp
    else
      let n := match blkOfCode s.tgt.fmt with
        | some f => f.bytes
        | none => 1
      match c.blksBad s.tgt n s.blks with
      | some e => c.rejectAccess s.d (convSrc conv) 0xFFFF e
      | none =>
        match blkOfCode s.tgt.fmt, elemOfCode s.tgt.fmt with
        | some f, _ => c.convertBlks s conv f x r.vals
        | none, some t => c.convertElems s t r.vals
        | none, none => c

/-- A converter takes its oldest span (R148). Single-bit errors of its buffer are corrected and counted, a free number
of them (log 4: DESIGN CHOICE). -/
def Core.convertSpan (c : Core) (s : Span) (conv : Nat) : Core :=
  match c.desc? s.d with
  | none => c
  | some x =>
    let (n, c) := c.draw (2 ^ 32)
    match (c.setObj 0x3880 0x14 (min (c.obj 0x3880 0x14 + n) (objMax 0x3880 0x14))).spanErrors s conv with
    | (false, c) => c
    | (true, c) =>
      match c.fetchAll s.ranges with
      | (c, some (off, e)) => c.rejectAccess s.d (convSrc conv) off e
      | (c, none) =>
        let (r, c) := c.spanVals conv s x.nfp
        c.convertRead s conv x r

/-- A converter converts its oldest span (R148): reads its source where it holds none, joins it (R160, R161), classifies
and tests it, applies its policy, and writes it back or releases it; the buffer goes to a span that waits. -/
def execSpanConvert (conv : Nat) : State → Res :=
  lift fun dev c =>
    if !runsWork dev then c
    else
      let c := c.assignSpans
      match c.fwd.spans.find? (fun s => s.conv == some conv) with
      | none => c
      | some s => ((c.convertSpan s conv).spanLeaves s).owe c (.desc s.d)

/-- The generator key of the converter bank (R166). -/
def Core.convKey (c : Core) (tag layer : Nat) : Nat := bankKey (c.obj 0x3A10 0) tag layer

/-- Latch a tensor for a block destination; a JIT tensor follows the split threshold of its layer and role (R138,
R146). -/
def Core.latchFor (c : Core) (jit : Bool) (layer kind role fmt : Nat) : Latch × Core :=
  if jit then
    (c.noLatch layer kind role (if layer < 4096 then c.prof (c.profileOf layer role) 7 else c.prof 0 7), c)
  else c.latch layer kind role fmt

/-- Type 0x30 (R167, R168). -/
def execConvert (d : Nat) : State → Res :=
  lift fun dev c =>
    c.issue dev d [0x30] (fun _ => [4, 5]) fun x c =>
      let v := c.nextConv 2
      let src := convSrc v
      let sf := x.f 58 1
      let df := x.f 59 1
      let rows := x.f 48 4
      let cols := x.f 52 4
      let layer := x.f 56 2
      let ctl := x.f 60 1
      let role := ctl / 16
      let kind := fld ctl 3 2
      let jit := bitAt (x.f 61 1) 0
      let sBlk := (blkOfCode sf).isSome
      let dBlk := (blkOfCode df).isSome
      let checks := fmtChecks [(58, sf), (59, df)] ++ rndChecks [(60, ctl % 4)] ++ [
        (1 ≤ rows && rows ≤ 2 ^ 20, 0x3018, 48, rows),
        (1 ≤ cols && cols ≤ 2 ^ 20, 0x3018, 52, cols),
        (1 ≤ role && role ≤ 5, 0x3018, 60, ctl),
        (kind == 1 || kind == 2, 0x3018, 60, ctl),
        ((x.f 24 8 != 0) == sBlk, 0x3018, 24, x.f 24 4),
        ((x.f 40 8 != 0) == dBlk, 0x3018, 40, x.f 40 4),
        (x.f 61 1 / 2 == 0, 0x3018, 61, x.f 61 1),
        (x.f 62 2 == 0, 0x3018, 62, x.f 62 2)]
      c.checked d src checks fun c =>
        c.rcGate d src x (kind == 2) fun c =>
          c.resolved d src (kind == 2) [(16, x.f 16 8), (24, x.f 24 8), (32, x.f 32 8), (40, x.f 40 8)] fun as c =>
            let o : Opnd := { addr := as.getD 0 0, scale := as.getD 1 0, fmt := sf, rows := rows, cols := cols }
            c.headersOk d src (some v) [(24, o, true, fun _ => none)] [] fun hs c =>
              let (lat, c) := if dBlk then c.latchFor jit layer kind role df else (c.noLatch layer kind role 0, c)
              let tgt : Target :=
                { fmt := df, rmode := ctl % 4, nfp := x.nfp, scale := as.getD 3 0, key := c.convKey x.tag layer
                  role := role, tag := 7, blocks := if dBlk then rows * ceilDiv cols 32 else 0 }
              let c := if dBlk then c.openTensor d src 40 (as.getD 3 0) df 7 rows (ceilDiv cols 32) else c
              if c.live d then (c.addSpans (rowSpans d 2 lat tgt false (o, hs.getD 0 []) (as.getD 2 0))).workDone d else c

end Sys2Proof.Machine
end

