-- ==== Sys2Proof/Machine/Forward.lean ====
section
/-! DEFINITION. Forward tiles and the bond (chapter 2), plane counts and jugglers (chapter 3): types 0x20, 0x21, 0x23,
the weight slots, lane groups, the bond and the output stage. -/

namespace Sys2Proof.Machine

/-! ### Groups and chains (R56, R57, R72) -/

/-- A tile. -/
def Core.tile (c : Core) (t : Nat) : Tile := KMap.getD c.fwd.tiles t {}

/-- Replace a tile. -/
def Core.setTile (c : Core) (t : Nat) (x : Tile) : Core :=
  { c with fwd := { c.fwd with tiles := KMap.set c.fwd.tiles t x } }

/-- The available members of a tile group, in tile order. -/
def Core.members (c : Core) (g : Nat) : List Nat :=
  let m := c.mask (0x4100 + g) 1 3
  let a := c.mask 0x4002 1 3
  (List.range 192).filter fun t => bitAt m t && bitAt a t

/-- Cut a list into pieces of n, leaving out what is left over. -/
def cutInto (n : Nat) : Nat → List Nat → List (List Nat)
  | 0, _ => []
  | f + 1, xs => if n = 0 ∨ xs.length < n then [] else xs.take n :: cutInto n f (xs.drop n)

/-- The chains of n tiles that members form within each brick die (R57). -/
def chainsOf (ms : List Nat) (n : Nat) : List (List Nat) :=
  let lo := ms.filter (· < 96)
  let hi := ms.filter (96 ≤ ·)
  cutInto n lo.length lo ++ cutInto n hi.length hi

/-- The tile a group's rejections name: its lowest available member (R476). -/
def Core.tileSrc (c : Core) (g : Nat) : Nat := srcOf 0x01 ((c.members g).headD 0)

/-- The domains of a group's tiles (Table 13.2). -/
def Core.groupDoms (c : Core) (g : Nat) : List Nat :=
  let ms := c.members g
  (if ms.any (· < 96) then [0] else []) ++ (if ms.any (96 ≤ ·) then [2] else [])

/-- Is a group running a descriptor? -/
def Core.groupBusy (c : Core) (g : Nat) : Bool := (KMap.get? c.fwd.active g).isSome

/-- Does a group's role admit a work kind (R73)? -/
def roleAdmits (role kind : Nat) : Bool :=
  (role == 1 && kind == 1) || (role == 2 && kind == 2) || (role == 3 && (kind == 1 || kind == 2))

/-! ### Plane counts (R83 to R88) -/

/-- p_min and p_max of a layer. -/
def Core.planeLimits (c : Core) (layer : Nat) : Nat × Nat :=
  let v := c.obj (0x3400 + layer / 256) (layer % 256)
  (v % 16, v / 16)

/-- p_now of a layer and kind; p_max until a window closes (R88). -/
def Core.planesNow (c : Core) (layer kind : Nat) : Nat :=
  (KMap.get? c.fwd.pnow (kind * 4096 + layer)).getD (c.planeLimits layer).2

/-- The plane count a window asks for (R85), and the counters it counts. -/
def windowNeed (r : FtRun) : Nat × List Nat :=
  let n := r.hist.sum
  let crush (q : Nat) : Nat := (r.hist.drop (q + 1)).sum
  let excess (t k : Nat) : Bool := Num.lt ((f32 t).mul (.ofNat n)) (.ofNat k)
  if excess r.clipT (r.hist.headD 0) then (r.pMax, [3])
  else
    let need := ((List.range (r.pMax + 1 - r.pMin)).find? fun i => !excess r.crushT (crush (r.pMin + i)))
    let q := match need with
      | some i => r.pMin + i
      | none => r.pMax
    (q, if excess r.crushT (crush q) then [4] else [])

/-- A window closes (R84, R85). -/
def Core.closeWindow (c : Core) (r : FtRun) : Core :=
  let layer := r.actLat.layer
  let kind := r.actLat.kind
  if 4096 ≤ layer then c
  else
    let k := kind * 4096 + layer
    let c := { c with fwd := { c.fwd with lastHist := KMap.set c.fwd.lastHist k (r.hist ++ [r.zeros]) } }
    if r.hist.sum = 0 then c
    else
      let (need, counts) := windowNeed r
      let cur := c.planesNow layer kind
      let next := if cur < need then need else if need < cur then cur - 1 else cur
      let c := (counts ++ (if cur < need then [1] else if need < cur then [2] else [])).foldl
        (fun (c : Core) s => c.bump 0x3480 s 1) c
      let lim := c.planeLimits layer
      { c with fwd := { c.fwd with pnow := KMap.set c.fwd.pnow k (min (max next lim.1) lim.2) } }

/-! ### Seeds (R92, R95) -/

/-- The seed directory's check of an explicit seed for an output: the key, none when the descriptor is rejected. An
output is known by its address as the descriptor gives it, since R474 places the check before the pallet's resolution
(log 134: DEDUCED). -/
def Core.seedCheck (c : Core) (d src out seed : Nat) (accum : Bool) : Option Nat × Core :=
  let f := mixN seed % 2 ^ 32
  let dir := c.fwd.seeds
  let old := (dir.find? fun p => p.1 == out).map (·.2)
  let rest := dir.filter fun p => p.1 != out
  let full := old.isNone && 512 ≤ rest.length
  let c := if full then c.bump 0x4A80 5 1 else c
  let prints := if accum then old.getD [] else []
  let n := prints.countP (· == f)
  let put (c : Core) (ps : List Nat) : Core := { c with fwd := { c.fwd with seeds := (out, ps) :: rest.take 511 } }
  let insert (c : Core) : Core :=
    if 64 ≤ prints.length then (put c (f :: prints.take 63)).bump 0x4A80 6 1 else put c (f :: prints)
  if n = 0 then (some (mixN seed), insert c)
  else if c.obj 0x4A11 0 = 0 then
    (some (mixN (seed ^^^ (n * 0x9E3779B97F4A7C15 % 2 ^ 64))),
      ((insert c).bump 0x4A80 3 1).raise { code := 0x4020, source := src, d := some d })
  else (none, ((put c prints).bump 0x4A80 4 1).reject d 0x4021 src 112 (seed % 2 ^ 32))

/-! ### Issue of types 0x20 and 0x21 (R76, R77) -/

/-- The 0x4001 checks of R77, in its order; a reserved field comes last. (log 41: DEDUCED) -/
def fieldChecks (x : Desc) (gate : Bool) : List (Bool × Nat × Nat × Nat) :=
  let pc := x.f 33 1
  let tc := x.f 34 1
  let ts := x.f 35 1
  let sg := x.f 36 1
  let xo := toInt 16 (x.f 38 2)
  [(pc / 16 ≤ 8 && pc % 16 ≤ 7, 0x4001, 33, pc),
   (x.f 37 1 ≤ 63, 0x4001, 37, x.f 37 1),
   (sg ≤ (if gate then 47 else 0), 0x4001, 36, sg),
   (!bitAt tc 3 || (8 ≤ ts && ts ≤ 31), 0x4001, 35, ts),
   (tc / 64 != 3 && fld tc 5 4 != 3, 0x4001, 34, tc),
   (-512 ≤ xo && xo ≤ 511, 0x4001, 38, x.f 38 2),
   ((bytesAt x.bytes 16 11).all (· == 0), 0x4001, 16, 0),
   (x.f 31 1 % 16 == 0, 0x4001, 31, x.f 31 1),
   (x.f 32 1 / 64 == 0, 0x4001, 32, x.f 32 1),
   (!bitAt tc 2, 0x4001, 34, tc)]

/-- Tail length of a tail code: 0 for none. -/
def tailLen (code : Nat) : Nat := if code = 0 then 0 else 2 ^ (code - 1)

/-- The checks of R77 in its order. -/
def Core.forwardChecks (c : Core) (x : Desc) (gate : Bool) : List (Bool × Nat × Nat × Nat) :=
  let g := x.f 32 1 % 16
  let kind := fld (x.f 32 1) 5 4
  let ms := c.members g
  let af := x.f 27 1
  let wf := x.f 28 1
  let of_ := x.f 29 1
  let n := x.f 44 4
  let kb := x.f 42 2
  let tc := x.f 34 1
  let accum := bitAt (x.f 31 1) 7
  let chains := chainsOf ms (ceilDiv kb 128)
  let fmts := fmtChecks [(27, af), (28, wf), (29, of_)]
  fmts ++ (if x.f 30 1 = 0 then [] else fmtChecks [(30, x.f 30 1)]) ++ rndChecks [(31, fld (x.f 31 1) 5 4)] ++
  [(roleAdmits (c.obj (0x4100 + g) 4) kind && !ms.isEmpty, 0x4002, 32, x.f 32 1),
   ([0x81, 0x84, 0x86, 0x91, 0x08].contains wf, 0x4004, 28, wf),
   ([0x08, 0x09, 0x0A, 0x81, 0x82, 0x83, 0x91].contains af, 0x4004, 27, af),
   ([0x05, 0x08, 0x09, 0x0A, 0x81, 0x82, 0x83, 0x85, 0x91].contains of_, 0x4004, 29, of_),
   (!accum || of_ == 0x08 || of_ == 0x0A, 0x4006, 31, x.f 31 1),
   (1 ≤ x.f 48 4 && x.f 48 4 ≤ 1048576, 0x4003, 48, x.f 48 4),
   (1 ≤ n && n ≤ 65536, 0x4003, 44, n),
   (1 ≤ kb && kb ≤ 2048, 0x4003, 42, kb),
   (!gate || n % 16 == 0, 0x4003, 44, n)] ++
  fieldChecks x gate ++
  [(!((wf == 0x91 || af == 0x91) && 16 ≤ tailLen (x.f 33 1 % 16)), 0x4001, 33, x.f 33 1),
   (!chains.isEmpty, 0x4003, 42, kb),
   (!bitAt tc 3 || chains.all (fun ch => (KMap.get? (c.tile (ch.getLastD 0)).tables (tc % 4)).isSome), 0x4005, 34, tc)]

/-- Is a stash copy written (R246)? An interior-class stash of a BOUNDARY microbatch is not. (log 39: DEDUCED) -/
def Core.stashWritten (c : Core) (kind a : Nat) : Bool :=
  !(kind == 2 && bitAt a 63 && !bitAt a 62 &&
    (match KMap.get? c.stp.pal.mbs (fld a 61 48) with
     | some mb => !mb.full
     | none => false))

/-- The spans of a forward product, activations before stash, 8 rows at a time. -/
def interleave (as bs : List Span) (n : Nat) : Nat → List Span
  | 0 => []
  | f + 1 => if as.isEmpty && bs.isEmpty then [] else as.take n ++ bs.take n ++ interleave (as.drop n) (bs.drop n) n f

/-- The run starts: what it latches, its window, its tensors' headers and its spans (R85, R142, R148, R164).
(log 30: DESIGN CHOICE) (log 31: DEDUCED) -/
def Core.forwardStart (c : Core) (d src : Nat) (x : Desc) (gate : Bool) (key : Nat) (as : List Nat) (actHdr : List Byte)
    (lat : Latch) (planes master : Nat) : Core :=
  let g := x.f 32 1 % 16
  let kind := lat.kind
  let layer := lat.layer
  let toks := x.f 48 4
  let n := x.f 44 4
  let kb := x.f 42 2
  let chains := chainsOf (c.members g) (ceilDiv kb 128)
  let oBlk := (blkOfCode (x.f 29 1)).isSome
  let (oLat, c) := if oBlk then c.latch layer kind 1 (x.f 29 1) else (c.noLatch layer kind 1 0, c)
  let stash := x.f 120 8 != 0
  let written := stash && c.stashWritten kind (x.f 120 8)
  let c := if stash && !written then c.bump 0x7880 5 1 else c
  let (sLat, c) := if written then c.latch layer kind 2 (if lat.wide then 0x82 else x.f 30 1)
    else (c.noLatch layer kind 2 0, c)
  let lim := c.planeLimits (layer % 4096)
  let cbs := ceilDiv (if gate then 2 * n else n) 32
  let r : FtRun :=
    { d := d, tag := x.tag, chains := chains, planes := planes, tail := tailLen (x.f 33 1 % 16), key := key
      actLat := lat, outLat := oLat, wide := lat.wide, clipT := c.obj 0x3200 0
      crushT := c.obj 0x3201 0, pMin := lim.1, pMax := lim.2, master := master, step := c.step, addrs := as
      left := toks * cbs }
  let c := { c with fwd := { c.fwd with runs := c.fwd.runs ++ [r], active := KMap.set c.fwd.active g d } }
  let die := if (chains.headD []).headD 0 < 96 then 0 else 1
  let o : Opnd := { addr := as.getD 0 0, scale := as.getD 1 0, fmt := x.f 27 1, rows := toks, cols := 32 * kb }
  let aTgt : Target := { fmt := 0, rmode := 0, nfp := x.nfp, scale := 0, key := 0, role := 0, tag := 0, blocks := 0 }
  let acts := rowSpans d die lat aTgt true (o, actHdr) 0
  let sFmt := if sLat.wide then 0x82 else x.f 30 1
  let sAddr := as.getD 6 0
  let sScale := sAddr + roundUp (toks * kb * 32) 64
  let sTgt : Target :=
    { fmt := sFmt, rmode := 0, nfp := x.nfp, scale := sScale, key := 0, role := 2, tag := 2, blocks := toks * kb }
  let c := if written then c.openTensor d src 120 sScale sFmt 2 toks kb else c
  let c := if oBlk && c.live d then c.openTensor d src 96 (as.getD 5 0) (x.f 29 1) 1 toks (ceilDiv n 32) else c
  if c.live d then
    let per := ceilDiv (32 * kb) 4096
    let st := if written then rowSpans d die sLat sTgt false (o, actHdr) sAddr else []
    c.addSpans (interleave acts st per (acts.length + 1))
  else c

/-- The tile group a descriptor names. -/
def Desc.tileGroup (x : Desc) : Option Nat :=
  if x.ty = 0x20 ∨ x.ty = 0x21 then some (x.f 32 1 % 16) else if x.ty = 0x23 then some (x.f 22 1 % 16) else none

/-- May a group begin a descriptor now: it runs none, and it is the descriptor's turn (R72)? -/
def Core.groupFree (c : Core) (d g : Nat) : Bool :=
  match c.desc? d with
  | some x => !c.groupBusy g && c.inTurn x fun y => y.tileGroup == some g
  | none => false

/-- RC of a kind-2 descriptor of a FULL microbatch, which does no work (R246)? -/
def Core.rcFull (c : Core) (x : Desc) (kind2 : Bool) : Bool :=
  x.rc && kind2 && c.stp.isOpen && (match KMap.get? c.stp.pal.mbs (x.tag % 2 ^ 14) with
    | some mb => mb.full
    | none => false)

/-- The generator key of a forward product's tail (R91, R95): none where the seed directory rejects it; 0 without a
tail. (log 134: DEDUCED) -/
def Core.tailKey (c : Core) (d src : Nat) (x : Desc) : Option Nat × Core :=
  if x.f 33 1 % 16 = 0 then (some 0, c)
  else if bitAt (x.f 31 1) 6 then c.seedCheck d src (x.f 88 8) (x.f 112 8) (bitAt (x.f 31 1) 7)
  else (some (bankKey (c.obj 0x4A10 0) x.tag (x.f 40 2)), c)

/-- Types 0x20 and 0x21 at issue, in the order of R474. A descriptor that RC skips does no work (R246): it is neither
checked against the seed directory nor entered in it (log 38: DEDUCED). -/
def Core.forwardIssue (c : Core) (dev : Dev) (d ty : Nat) (gate : Bool) : Core :=
  let free := match c.desc? d with
    | some x => c.groupFree d (x.f 32 1 % 16)
    | none => false
  if !free then c
  else
    c.issue dev d [ty] (fun x => c.groupDoms (x.f 32 1 % 16)) fun x c =>
      let g := x.f 32 1 % 16
      let src := c.tileSrc g
      let kind := fld (x.f 32 1) 5 4
      let layer := x.f 40 2
      let kb := x.f 42 2
      let wf := x.f 28 1
      let toks := x.f 48 4
      let n := x.f 44 4
      let die := if ((chainsOf (c.members g) (ceilDiv kb 128)).headD []).headD 0 < 96 then 0 else 1
      let v := c.nextConv die
      c.checked d src (c.forwardChecks x gate) fun c =>
        let st := x.f 120 8
        let sf := x.f 30 1
        c.checked d (convSrc v) [(if st = 0 then sf == 0 else [0x81, 0x82, 0x91].contains sf, 0x3013, 30, sf)] fun c =>
          match (if c.rcFull x (kind == 2) then (some 0, c) else c.tailKey d src x) with
          | (none, c) => c
          | (some key, c) =>
            if !c.live d then c
            else
              c.rcGate d src x (kind == 2) fun c =>
                c.resolved d src (kind == 2) [(56, x.f 56 8), (64, x.f 64 8), (72, x.f 72 8), (80, x.f 80 8),
                    (88, x.f 88 8), (96, x.f 96 8), (120, x.f 120 8)] fun as c =>
                  let wide := layer < 4096 && c.isWidened layer kind
                  let master := if wide && kind == 2 then c.obj (0x3520 + layer / 256) (layer % 256) else 0
                  let oa : Opnd :=
                    { addr := as.getD 0 0, scale := as.getD 1 0, fmt := x.f 27 1, rows := toks, cols := 32 * kb }
                  let ow : Opnd :=
                    { addr := as.getD 2 0, scale := as.getD 3 0, fmt := if master ≠ 0 then 0x08 else wf
                      rows := if gate then 2 * n else n, cols := 32 * kb }
                  c.headersOk d src (some v) [(64, oa, false, fun _ => none)] [] fun hs c =>
                    c.headersOk d src none
                      [(80, ow, false, fun h => if bitAt (numAt h 7 1) 0 then some 0x3004 else none)] [] fun _ c =>
                      let (lat, c) := c.latch layer kind 0 0
                      let p := x.f 33 1 / 16
                      let c := if p = 0 ∧ 4096 ≤ layer then c.bump 0x3480 5 1 else c
                      let planes := if lat.wide then 8 else if p ≠ 0 then p else if 4096 ≤ layer then 8
                        else c.planesNow layer kind
                      c.forwardStart d src x gate key as (hs.getD 0 []) lat planes master

/-- Type 0x20. -/
def execForwardProduct (d : Nat) : State → Res := lift fun dev c => c.forwardIssue dev d 0x20 false

/-- Type 0x21 (R63). -/
def execGatedFfProduct (d : Nat) : State → Res := lift fun dev c => c.forwardIssue dev d 0x21 true

/-! ### Type 0x23 (R65) -/

/-- Storage errors by injection (detector 0x05): `sel` names the storage of a tile that is written. -/
def Core.tileInject (c : Core) (t sel addr : Nat) : Option Nat × Core :=
  match c.injectIf 0x05 t addr (fun p => fld p 63 62 == sel) with
  | (some p, c) => if singleBit (fld p 61 0) then (none, c.bump 0x4800 0xE 1) else (some (fld p 61 0), c)
  | (none, c) => (none, c)

/-- The entries of a table image, where they are in range. -/
def tableOf (b : List Byte) : Option ATable :=
  let xt := toInt 16 (numAt b 0 2)
  let ts := (List.range 256).map fun i => toInt 32 (numAt b (64 + 4 * i) 4)
  if -512 ≤ xt ∧ xt ≤ 511 ∧ (bytesAt b 2 62).all (· == 0) ∧ ts.all (fun t => -8388608 ≤ t && t ≤ 8388607) then
    some { xt := xt, t := ts }
  else none

/-- Does a running descriptor, of this group or of the one they were moved from, still use a member's tiles (R75,
R78)? -/
def Core.membersBusy (c : Core) (g : Nat) : Bool :=
  (c.members g).any fun t => c.fwd.runs.any fun r => r.chains.any fun ch => ch.contains t

def execTableLoad (d : Nat) : State → Res :=
  lift fun dev c =>
    let free := match c.desc? d with
      | some x => c.groupFree d (x.f 22 1 % 16) && !c.membersBusy (x.f 22 1 % 16)
      | none => false
    if !free then c
    else
      c.issue dev d [0x23] (fun x => c.groupDoms (x.f 22 1 % 16)) fun x c =>
        let g := x.f 22 1 % 16
        let src := c.tileSrc g
        let a := x.f 16 6
        let slot := x.f 23 1 % 4
        let role := c.obj (0x4100 + g) 4
        c.checked d src [
            (x.f 24 8 == 0, 0x4001, 24, x.f 24 4),
            (x.f 23 1 / 4 == 0, 0x4001, 23, x.f 23 1),
            (x.f 22 1 / 16 == 0, 0x4001, 22, x.f 22 1),
            (a % 64 == 0, 0x4001, 16, a % 2 ^ 32),
            (role != 0 && !(c.members g).isEmpty, 0x4002, 22, x.f 22 1)] fun c =>
          match c.lfetch a 1088 with
          | (c, some e) => c.rejectAccess d src 16 e
          | (c, none) =>
            match tableOf (c.lread a 1088) with
            | none => c.reject d 0x4007 src 16 (a % 2 ^ 32)
            | some tb =>
              ((c.members g).foldl
                (fun c t =>
                  let (bad, c) := c.tileInject t 1 a
                  let x := c.tile t
                  let tabBad := x.tabBad.filter (· != slot)
                  c.setTile t { x with
                    tables := KMap.set x.tables slot tb, tabBad := if bad.isSome then slot :: tabBad else tabBad }) c).workDone d

/-! ### Where a tile stands -/

/-- A tile's place in a run: chain and position. -/
def FtRun.placeOf (r : FtRun) (t : Nat) : Option (Nat × Nat) :=
  (r.chains.zipIdx).findSome? fun (ch, i) => (ch.findIdx? (· == t)).map fun j => (i, j)

/-- The run a tile works for: the oldest that holds it (R75), with its place, and the tile with that run's progress. -/
def Core.tileRun (c : Core) (t : Nat) : Option (FtRun × Nat × Nat × Tile) :=
  match c.fwd.runs.find? (fun r => (r.placeOf t).isSome) with
  | none => none
  | some r =>
    match r.placeOf t with
    | none => none
    | some (ci, pos) =>
      let x := c.tile t
      let x := if x.busy = some r.d then x else
        { x with busy := some r.d, lgs := [], chain := [], relTok := 0, relRnd := 0, held := [], looked := 0, sup := 0
                 redo := [], outq := [] }
      some (r, ci, pos, x)

/-- Columns of the weight tensor: 2N for a gated product. -/
def Desc.wCols (x : Desc) : Nat := if x.ty = 0x21 then 2 * x.f 44 4 else x.f 44 4

/-- Column rounds of chain ci among n chains (R78). -/
def Desc.roundsOf (x : Desc) (n ci : Nat) : Nat :=
  let cbs := ceilDiv x.wCols 32
  if cbs ≤ ci then 0 else (cbs - 1 - ci) / n + 1

/-- Column rounds of a chain of a run. -/
def FtRun.rounds (r : FtRun) (x : Desc) (ci : Nat) : Nat := x.roundsOf r.chains.length ci

/-- The column block of a chain's round. -/
def FtRun.colBlk (r : FtRun) (ci rnd : Nat) : Nat := ci + rnd * r.chains.length

/-- Are weights quantised on the way in (R69)? -/
def FtRun.quant (r : FtRun) (x : Desc) : Bool := r.master != 0 || x.f 28 1 == 0x08

/-- A running descriptor's weight address, or the master it loads from, and its weight scale address. -/
def FtRun.wAddrs (r : FtRun) : Nat × Nat :=
  (if r.master ≠ 0 then r.master else r.addrs.getD 2 0, r.addrs.getD 3 0)

/-- Is a resident slot the chunk looked for (R68, R71)? -/
def WSlot.is (s : WSlot) (addr tag col pos : Nat) : Bool :=
  !s.stale && s.addr == addr && s.tag == tag && s.col == col && s.pos == pos

/-- The round whose chunk a tile looks up next: one to be loaded again (R80), else the next in order, at most as many
ahead as a tile has slots (R68). -/
def Tile.wants (y : Tile) (rounds : Nat) : Option Nat :=
  match y.redo with
  | n :: _ => some n
  | [] => if rounds ≤ y.looked ∨ y.relRnd + 4 ≤ y.looked then none else some y.looked

/-- The tile holds slot k for a round's chunk. -/
def Tile.hold (y : Tile) (n k : Nat) : Tile :=
  { y with
    held := KMap.set y.held n k, clock := y.clock + 1
    looked := if y.redo.isEmpty then y.looked + 1 else y.looked, redo := y.redo.drop 1 }

/-- Look chunks up while they are resident (R68). -/
def Core.lookHits (c : Core) (t : Nat) (r : FtRun) (x : Desc) (ci pos : Nat) : Nat → Tile → Core × Tile
  | 0, y => (c, y)
  | f + 1, y =>
    match y.wants (r.rounds x ci) with
    | none => (c, y)
    | some n =>
      match y.slots.find? (fun p => p.2.is r.wAddrs.1 (x.f 104 8) (r.colBlk ci n) pos) with
      | none => (c, y)
      | some p =>
        let y := { y with slots := KMap.set y.slots p.1 { p.2 with used := y.clock + 1 } }
        (c.bump 0x4800 0xA 1).lookHits t r x ci pos f (y.hold n p.1)

/-! ### Weight loads (R49, R68, R69) -/

/-- The magnitude codes of R49 in units of the format's step, signed. -/
def weightInt (f : BlkFmt) (q : Nat) : Int :=
  match f with
  | .q4 | .q8 | .q2 => toInt f.elem.width q
  | _ =>
    let m : Int := ([0, 1, 2, 3, 4, 6, 8, 12] : List Nat).getD (q % 8) 0
    if bitAt q 3 then -m else m

/-- One loaded block and what reading it met. -/
structure ChunkBlk where
  blk : WBlk
  seen : Seen
  fraction : Bool := false
  cnt : Tally5 := {}
  deriving DecidableEq, Repr

/-- Join and load one stored block. -/
def Core.loadBlk (c : Core) (f : BlkFmt) (addr scale s0 tag : Nat) (nfp : Bool) (b : Nat) : ChunkBlk :=
  let zero : WBlk := { e := 0, off := 0, q := [] }
  match c.scaleWord scale s0 tag b with
  | .error (w, g, t) => { blk := zero, seen := { skew := some (w, g, t, b) } }
  | .ok word =>
    let e := word % 256
    let q := match f with
      | .q4 | .q8 | .q2 => true
      | _ => false
    let nf := e == 255
    { fraction := q && word / 256 != 0
      seen := seenWord f word 32 0 nfp
      blk := if e = 0 ∨ (nf ∧ !nfp) then zero else
        { e := e, off := if f == .b4s then word / 256 else 0
          q := (unpack f.elem.width 32 (c.lread (addr + b * f.bytes) f.bytes)).map (weightInt f) } }

/-- A BF16 block on its way in, quantised to B4 with its own exponent (R69, Table 5.4). -/
def quantBlk (lat : Latch) (nfp : Bool) (xs : List Num) : ChunkBlk :=
  let o := convBlk .b4 lat true nfp 0 0 0 xs
  { blk := if o.word % 256 = 0 then { e := 0, off := 0, q := [] } else
      { e := o.word % 256, off := 0, q := (unpack 4 32 o.data).map (weightInt .b4) }
    seen := { nonfin := (xs.filter Num.nonFinite).length }, cnt := o.cnt }

/-- The memory a chunk's load reads: each column's data and scale lines, or each row's line. -/
def chunkRanges (x : Desc) (quant : Bool) (f : BlkFmt) (wa ws col pos : Nat) : List (Nat × Nat × Nat) :=
  let kb := x.f 42 2
  let b0 := 128 * pos
  let nb := min 128 (kb - b0)
  let ncol := min 32 (x.wCols - 32 * col)
  if quant then
    (List.range (32 * nb)).map fun k => (72, wa + ((32 * b0 + k) * x.wCols + 32 * col) * 2, 2 * ncol)
  else
    (List.range ncol).flatMap fun n =>
      let i := (32 * col + n) * kb + b0
      [(72, wa + i * f.bytes, nb * f.bytes),
       (80, ws + 64 + 64 * (i / 30), 64 * ((i + nb - 1) / 30 + 1 - i / 30))]

/-- The lines a load counts (R69): 1,024 data lines for a whole B4, B4s or Q4 chunk, 512 for Q2, 4,096 from the master;
a chunk the tensor's edge cuts short counts those it has. (log 33: DEDUCED) -/
def chunkLines (x : Desc) (quant : Bool) (f : BlkFmt) (col pos : Nat) : Nat :=
  let kb := x.f 42 2
  let nb := min 128 (kb - 128 * pos)
  let ncol := min 32 (x.wCols - 32 * col)
  if quant then 32 * nb
  else
    let lines := (List.range ncol).flatMap fun n =>
      let i := (32 * col + n) * kb + 128 * pos
      (List.range ((i + nb - 1) / 30 + 1 - i / 30)).map (i / 30 + ·)
    ncol * ceilDiv (nb * f.bytes) 64 + (lines.foldl (fun a k => insertNat k a) []).length

/-- A chunk of a descriptor's weights as a tile loads it: where from, how, and which. -/
structure ChunkReq where
  quant : Bool
  lat : Latch
  f : BlkFmt
  wa : Nat
  ws : Nat
  col : Nat
  pos : Nat
  deriving DecidableEq, Repr

/-- The blocks of a chunk, column by column; columns past N are empty. -/
def Core.chunkBlks (c : Core) (x : Desc) (q : ChunkReq) : List (List ChunkBlk) :=
  let f := q.f
  let wa := q.wa
  let ws := q.ws
  let col := q.col
  let pos := q.pos
  let kb := x.f 42 2
  let b0 := 128 * pos
  let nb := min 128 (kb - b0)
  let h := c.lread ws 64
  (List.range 32).map fun n =>
    if x.wCols ≤ 32 * col + n then []
    else
      (List.range nb).map fun j =>
        if q.quant then
          quantBlk q.lat x.nfp ((List.range 32).map fun i =>
            bf16 (c.lnum (wa + ((32 * (b0 + j) + i) * x.wCols + 32 * col + n) * 2) 2))
        else c.loadBlk f wa ws (numAt h 24 4) (numAt h 6 1) x.nfp ((32 * col + n) * kb + b0 + j)

/-- The slot a load takes: one not held by the running descriptor, empty or least recently used. -/
def Tile.victim (y : Tile) : Option Nat :=
  let free := (List.range 4).filter fun k => !(y.held.any fun p => p.2 == k)
  match free.find? (fun k => (KMap.get? y.slots k).isNone) with
  | some k => some k
  | none =>
    free.foldl
      (fun b k => match b with
        | none => some k
        | some j =>
          if ((KMap.get? y.slots k).map (·.used)).getD 0 < ((KMap.get? y.slots j).map (·.used)).getD 0 then some k else some j)
      none

/-- The format a run's weights are held in. -/
def FtRun.wFmt (r : FtRun) (x : Desc) : BlkFmt := if r.quant x then .b4 else (blkOfCode (x.f 28 1)).getD .b4

/-- How reading a chunk fails: an access, the join, or a weight fraction (R23, R161, R318). -/
inductive ChunkErr where
  | access (off : Nat) (e : Nat × Nat)
  | skew (e : Nat × Nat × Nat × Nat)
  | fraction
  deriving DecidableEq, Repr

/-- A chunk read and checked (R69): its blocks, or how it fails. -/
def Core.readChunk (c : Core) (x : Desc) (q : ChunkReq) : Core × Except ChunkErr (List (List ChunkBlk)) :=
  match c.fetchAll (chunkRanges x q.quant q.f q.wa q.ws q.col q.pos) with
  | (c, some (off, e)) => (c, .error (.access off e))
  | (c, none) =>
    let bs := c.chunkBlks x q
    match (bs.flatten.foldl (fun (s : Seen) b => s.add b.seen) {}).skew with
    | some e => (c, .error (.skew e))
    | none => (c, if bs.flatten.any (·.fraction) then .error .fraction else .ok bs)

/-- A chunk read enters slot k of a tile (R68): the load and its lines are counted, and what it met. -/
def Core.fillSlot (c : Core) (d tile k : Nat) (x : Desc) (q : ChunkReq) (y : Tile) (bs : List (List ChunkBlk)) :
    Tile × Core :=
  let all := bs.flatten
  let (bad, c) := c.tileInject tile 0 q.wa
  let slot : WSlot :=
    { addr := q.wa, tag := x.f 104 8, col := q.col, pos := q.pos, cols := bs.map fun l => l.map (·.blk)
      used := y.clock + 1, stale := false, bad := bad.isSome }
  let y := { y with slots := KMap.set y.slots k slot, clock := y.clock + 1 }
  let c := ((c.bump 0x4800 8 1).bump 0x4902 tile 1).bump 0x4800 9 (chunkLines x q.quant q.f q.col q.pos)
  (y, (c.countConv (sumTally (all.map (·.cnt)))).countSeen d (srcOf 0x01 tile)
    (all.foldl (fun (s : Seen) b => s.add b.seen) {}))

/-- The descriptor a group begins next: of those waiting the first whose wait was satisfied (R72), with its number. -/
def Core.nextDescOf (c : Core) (g : Nat) : Option (Nat × Desc) :=
  c.links.descs.find? fun p =>
    !p.2.issued && (p.2.ty == 0x20 || p.2.ty == 0x21) && p.2.tileGroup == some g && c.waitHolds p.2 &&
      !(p.2.fence && c.earlierLeft p.1 p.2) && c.inTurn p.2 fun y => y.tileGroup == some g

/-- What a tile loads ahead for the group's next descriptor while the present one finishes (R72): the first chunk of
that descriptor's that the tile does not hold, in the slots the present one leaves. None where the weights are
pallet-relative or the layer is widened, which issue settles. (log 135: DEDUCED) -/
def Core.aheadReq (c : Core) (g tile : Nat) (y : Tile) : Option (Nat × Desc × ChunkReq) :=
  match c.nextDescOf g with
  | none => none
  | some (d, x) =>
    let kind := fld (x.f 32 1) 5 4
    let layer := x.f 40 2
    let chains := chainsOf (c.members g) (ceilDiv (x.f 42 2) 128)
    let wa := x.f 72 8
    let ok := (firstBad (c.forwardChecks x (x.ty == 0x21))).isNone && wa < 2 ^ 63 && x.f 80 8 < 2 ^ 63 &&
      !(layer < 4096 && c.isWidened layer kind) &&
      (x.f 28 1 == 0x08 || ((c.lbad (x.f 80 8) 64).isNone && !headerBad (c.lread (x.f 80 8) 64)))
    if !ok then none
    else
      (chains.zipIdx).findSome? fun (ch, ci) =>
        match ch.findIdx? (· == tile) with
        | none => none
        | some pos =>
          let f := if x.f 28 1 == 0x08 then .b4 else (blkOfCode (x.f 28 1)).getD .b4
          ((List.range (min (x.roundsOf chains.length ci) (4 - y.held.length))).find? fun n =>
            !(y.slots.any fun p => p.2.is wa (x.f 104 8) (ci + n * chains.length) pos)).map fun n =>
            (d, x, { quant := x.f 28 1 == 0x08, lat := c.noLatch layer kind 0 0, f := f, wa := wa, ws := x.f 80 8,
                     col := ci + n * chains.length, pos := pos })

/-- A load ahead: the chunk enters a slot that no running descriptor holds; one whose reading fails is left for the
descriptor's own load to meet. (log 135: DEDUCED) -/
def Core.loadAhead (c : Core) (g tile : Nat) (y : Tile) : Core :=
  match c.aheadReq g tile y with
  | none => c
  | some (d, x, q) =>
    match y.victim with
    | none => c
    | some k =>
      match c.readChunk x q with
      | (c, .error _) => c
      | (c, .ok bs) =>
        let (y, c) := c.fillSlot d tile k x q y bs
        c.setTile tile y

/-- The next chunk that a tile misses loads (R68, R69); chunks found resident on the way are hits. A tile with every
chunk of its descriptor loads the next descriptor's (R72). -/
def execWeightChunkLoad (tile : Nat) : State → Res :=
  lift fun dev c =>
    match (if runsWork dev then c.tileRun tile else none) with
    | none => c
    | some (r, ci, pos, y) =>
      match c.desc? r.d with
      | none => c
      | some x =>
        let (c, y) := c.lookHits tile r x ci pos 8 y
        let c := c.setTile tile y
        match y.wants (r.rounds x ci) with
        | none => if r.rounds x ci ≤ y.looked then c.loadAhead (x.f 32 1 % 16) tile y else c
        | some n =>
          match y.victim with
          | none => c
          | some k =>
            let src := srcOf 0x01 tile
            let q : ChunkReq :=
              { quant := r.quant x, lat := r.actLat, f := r.wFmt x, wa := r.wAddrs.1, ws := r.wAddrs.2
                col := r.colBlk ci n, pos := pos }
            match c.readChunk x q with
            | (c, .error (.access off e)) => c.rejectAccess r.d src off e
            | (c, .error (.skew e)) => c.rejectSkew r.d src 1 e
            | (c, .error .fraction) => c.reject r.d 0x3004 src 80 (q.ws % 2 ^ 32)
            | (c, .ok bs) =>
              let (y, c) := c.fillSlot r.d tile k x q y bs
              c.setTile tile (y.hold n k)

/-! ### Lane groups (R50 to R53, R58, R59, R89 to R92) -/

/-- The i-th element's juggler value of tail plane j (R89, R92). A column round of 2,048 or more, which Table 3.2's
field does not hold, runs on into the bits above it (log 156: DESIGN CHOICE). -/
def FtRun.tailU (r : FtRun) (tile lg pos rnd tok j i : Nat) : Nat :=
  let ctr := tile * 2 ^ 56 + lg * 2 ^ 52 + (16 * pos + lg) * 2 ^ 44 + rnd * 2 ^ 31 + tok * 2 ^ 11 + j * 32 + i / 8
  genU16 (genWord r.key ctr) (i % 8)

/-- A slice: the eight blocks of a lane group for a token; blocks beyond K are zero blocks. none while one is
missing. -/
def FtRun.slice (r : FtRun) (kb tok pos lg : Nat) : Option (List ActBlk) :=
  (List.range 8).foldr
    (fun b acc =>
      let k := 128 * pos + 8 * lg + b
      match acc with
      | none => none
      | some l =>
        if kb ≤ k then some ({ e := 0, nf := false, neg := [], mag := [], rho := [] } :: l)
        else (KMap.get? r.acts (tok * 2048 + k)).map (· :: l)) (some [])

/-- The activation buffer of a lane group takes slices in token order while it has room and they are formed (R48, R59).
(log 136: DEDUCED) -/
def FtRun.fill (r : FtRun) (kb pos lg toks rounds : Nat) : Nat → LaneGrp → LaneGrp
  | 0, g => g
  | f + 1, g =>
    let next := match g.buf.getLast? with
      | none => (g.tok, g.rnd)
      | some e => if e.tok + 1 = toks then (0, e.rnd + 1) else (e.tok + 1, e.rnd)
    if 16 ≤ g.buf.length ∨ rounds ≤ next.2 then g
    else
      match r.slice kb next.1 pos lg with
      | none => g
      | some sl => r.fill kb pos lg toks rounds f { g with buf := g.buf ++ [{ tok := next.1, rnd := next.2, blks := sl }] }

/-- The planes of a slice, in order, as bits per block and element: first the p planes from the top, then the tail; with
each the units it adds (R51) in 2^-6 of the lowest plane. -/
def FtRun.planesOf (r : FtRun) (tile lg pos rnd tok : Nat) (sl : List ActBlk) : List (Nat × List (List Bool)) :=
  let det := (List.range r.planes).reverse.map fun j => (64 * 2 ^ j, sl.map fun a => a.mag.map fun m => bitAt m j)
  let tail := (List.range r.tail).map fun j =>
    (64 / r.tail, (sl.zipIdx).map fun (a, b) =>
      (a.rho.zipIdx).map fun (ρ, i) => 0 < ρ && decide (r.tailU tile lg pos rnd tok j (32 * b + i) < ρ))
  det ++ tail

/-- What one plane adds to a lane's block register: counts of each leaf, shifted by the sub-block's offset (R50). -/
def planeAdd (unit : Nat) (bits neg : List Bool) (w : WBlk) : Int :=
  ((bits.zip neg).zip w.q).zipIdx.foldl
    (fun s p =>
      let ((bit, ng), q) := p.1
      let o := fld w.off (2 * (p.2 / 8) + 1) (2 * (p.2 / 8))
      if bit then s + (if ng then -q else q) * ((unit / 2 ^ o : Nat) : Int) else s) 0

/-- Add planes to the registers of 32 lanes. -/
def addPlanes (cols : List (List WBlk)) (lg : Nat) (sl : List ActBlk) (regs : List (List Int))
    (ps : List (Nat × List (List Bool))) : List (List Int) :=
  (List.range 32).map fun n =>
    let ws := ((cols.getD n []).drop (8 * lg)).take 8
    (List.range 8).map fun b =>
      let r0 := (regs.getD n []).getD b 0
      match ws[b]?, sl[b]? with
      | some w, some a => ps.foldl (fun s p => s + planeAdd p.1 (p.2.getD b []) a.neg w) r0
      | _, _ => r0

/-- The largest split offset of a block (R53). -/
def WBlk.om (w : WBlk) : Nat := ((List.range 4).map fun k => fld w.off (2 * k + 1) (2 * k)).foldl max 0

/-- Close a run of R53: its pieces and how many times the 24-bit range closed one. -/
def promote (run : List (Int × Int)) (top : Int) : List (Int × Int) × Nat :=
  match run with
  | [] => ([], 0)
  | _ =>
    let step := fun (st : List (Int × Int) × Int × Bool × Nat) (p : Int × Int) =>
      let v := p.1 / 2 ^ (top - p.2).toNat
      let s := st.2.1 + v
      if st.2.2.1 ∧ (s < -8388608 ∨ 8388607 < s) then (st.1 ++ [(st.2.1, top - 6)], v, true, st.2.2.2 + 1)
      else (st.1, s, true, st.2.2.2)
    let st := run.foldl step ([], 0, false, 0)
    (st.1 ++ [(st.2.1, top - 6)], st.2.2.2)

/-- A lane's runs (R53): blocks given as register, exponent and alignment limit. -/
def laneRuns (blks : List (Int × Int × Int)) : List (Int × Int) × Nat :=
  let step := fun (st : List (Int × Int) × Nat × List (Int × Int) × Int × Int) (p : Int × Int × Int) =>
    let (out, n, run, top, cap) := st
    let (reg, e, lim) := p
    let ntop := if run.isEmpty then e else max top e
    let ncap := if run.isEmpty then e + lim else min cap (e + lim)
    if ncap < ntop then
      let (q, k) := promote run top
      (out ++ q, n + k, [(reg, e)], e, e + lim)
    else (out, n, run ++ [(reg, e)], ntop, ncap)
  let (out, n, run, top, _) := blks.foldl step ([], 0, [], 0, 0)
  let (q, k) := promote run top
  (out ++ q, n + k)

/-- The block exponents and limits of a lane (R52, R53). -/
def laneBlks (r : FtRun) (x : Desc) (ws : List WBlk) (sl : List ActBlk) (regs : List Int) : List (Int × Int × Int) :=
  let uw : Int := match r.wFmt x with
    | .q4 | .q8 | .q2 => 0
    | _ => -1
  ((ws.zip sl).zip regs).filterMap fun ((w, a), reg) =>
    if w.e = 0 ∨ a.e = 0 ∨ w.e = 255 ∨ a.nf then none
    else
      let e : Int := (w.e : Int) - 127 + ((a.e : Int) - 127) + uw - r.planes
      some (reg, e, 6 - (Nat.log2 (max 1 r.tail) : Nat) - (w.om : Nat))

/-- A lane group's token ends: its runs enter the skew FIFO, its slice leaves the activation buffer. -/
def Core.endToken (c : Core) (r : FtRun) (x : Desc) (lg : Nat) (g : LaneGrp) (cols : List (List WBlk))
    (sl : List ActBlk) : LaneGrp × Core :=
  let lanes := (List.range 32).map fun n =>
    let ws := ((cols.getD n []).drop (8 * lg)).take 8
    (laneRuns (laneBlks r x ws sl (g.regs.getD n [])), ws.any (·.e == 255) || (!ws.isEmpty && sl.any (·.nf)))
  let ent : SkewEnt := { tok := g.tok, rnd := g.rnd, runs := lanes.map fun l => l.1.1, nf := lanes.map (·.2) }
  let t := x.f 48 4
  let next := if g.tok + 1 = t then (0, g.rnd + 1) else (g.tok + 1, g.rnd)
  ({ tok := next.1, rnd := next.2, shakes := 0, regs := [], buf := g.buf.drop 1, fifo := g.fifo ++ [ent] },
    c.bump 0x4800 7 (lanes.map fun l => l.1.2).sum)

/-- The slots a tile that had gone on to a later block keeps when its chain goes back to a round: the stale ones it
holds, which it finishes with (R71), three of its four at most. (log 137: DEDUCED) -/
def Tile.keeps (y : Tile) (rnd : Nat) : KMap Nat :=
  (y.held.filter fun p => p.1 < rnd || (KMap.get? y.slots p.2).any (·.stale)).take 3

/-- A chain reruns its column block from its first token after a slot of one of its tiles is lost (R80); tokens the
final tile has written are not written again. The tile loads the lost chunk again; the others keep the slots they hold
(R71), and one that had gone on to a later block looks up anew the chunks it does not keep. Tokens of the rerun are
counted again where they are released, leave the table or saturate (log 137: DEDUCED). -/
def Core.rerun (c : Core) (r : FtRun) (ci rnd tile : Nat) : Core :=
  let ch := r.chains.getD ci []
  (ch.zipIdx).foldl
    (fun c (t, i) =>
      let y := c.tile t
      if y.busy ≠ some r.d then c
      else
        let back (g : LaneGrp) : LaneGrp :=
          let fifo := g.fifo.filter (·.rnd < rnd)
          if rnd ≤ g.rnd then { tok := 0, rnd := rnd, fifo := fifo }
          else { g with fifo := fifo, buf := g.buf.filter (·.rnd < rnd) }
        let last := i + 1 == ch.length
        let anew := rnd < y.relRnd
        c.setTile t { y with
          lgs := y.lgs.map fun p => (p.1, back p.2)
          chain := y.chain.filter (·.rnd < rnd)
          sup := if last && y.relRnd == rnd then max y.sup y.relTok else y.sup
          relTok := if rnd ≤ y.relRnd then 0 else y.relTok
          relRnd := min rnd y.relRnd
          held := if anew then y.keeps rnd else if t = tile then KMap.erase y.held rnd else y.held
          redo := if anew then ((List.range y.looked).drop rnd).filter fun n => (KMap.get? (y.keeps rnd) n).isNone
            else if t = tile then rnd :: y.redo.filter (· != rnd) else y.redo }) c

/-- One handshake of a lane group: one plane of a token, or two with 2-bit weights (R50, R58). A full skew FIFO is
counted before anything else; while the round's weight chunk is not held, nothing more is, and an empty activation
buffer only then (R59; log 156: DESIGN CHOICE). -/
def execLaneGroupHandshake (tile lg : Nat) : State → Res :=
  lift fun dev c =>
    match (if runsWork dev ∧ lg < 16 then c.tileRun tile else none) with
    | none => c
    | some (r, ci, pos, y) =>
      match c.desc? r.d with
      | none => c
      | some x =>
        let g := KMap.getD y.lgs lg {}
        let src := srcOf 0x01 tile
        if r.rounds x ci ≤ g.rnd then c
        else if 8 ≤ g.fifo.length then (c.bump 0x4800 4 1).bump 0x4900 tile 1
        else
          match (KMap.get? y.held g.rnd).bind fun k => (KMap.get? y.slots k).map fun w => (k, w) with
          | none => c
          | some (k, w) =>
            let g := r.fill (x.f 42 2) pos lg (x.f 48 4) (r.rounds x ci) 16 g
            match g.buf.head? with
            | none => c.bump 0x4800 5 1
            | some e =>
              let sl := e.blks
              if w.bad then
                let c := c.setTile tile { y with slots := KMap.erase y.slots k }
                let c := c.raise { code := 0x4010, source := src, d := some r.d, inj := true }
                if c.live r.d then c.rerun r ci g.rnd tile else c
              else
                let first := g.shakes = 0
                let (bad, c) := if first then c.tileInject tile 2 0 else (none, c)
                if bad.isSome then c.reject r.d 0x4011 src 0xFFFF 0 true
                else
                  match c.injectIf 0x06 tile 0 (fun p => !bitAt p 0) with
                  | (some _, c) => c.reject r.d 0x4012 src 0xFFFF 0 true
                  | (none, c) =>
                    let ps := r.planesOf tile lg pos g.rnd g.tok sl
                    let live := ps.filter fun p => p.2.any fun l => l.any (· == true)
                    let wpl := if r.wFmt x == .q2 then 2 else 1
                    let now := (live.drop g.shakes).take wpl
                    let g := { g with regs := addPlanes w.cols lg sl g.regs now, shakes := g.shakes + wpl }
                    let c := (c.bump 0x4800 2 1).bump 0x4901 tile 1
                    let skips (l : List (Nat × List (List Bool))) : Nat :=
                      (l.filter fun p => !(p.2.any fun q => q.any (· == true))).length
                    let c := if first then
                        ((c.bump 0x4800 3 (skips ps)).bump 0x4A80 1 r.tail).bump 0x4A80 2 (skips (ps.drop r.planes))
                      else c
                    let (g, c) := if live.length ≤ g.shakes then c.endToken r x lg g w.cols sl else (g, c)
                    c.setTile tile { y with lgs := KMap.set y.lgs lg g }

/-! ### The bond (R37, R54 to R56) -/

/-- A signed number rounded to a multiple of 2^k, nearest even, in units of 2^k. -/
def rneShift (v : Int) (k : Nat) : Int :=
  let m := roundShift .rne v.natAbs k
  if v < 0 then -(m : Int) else m

/-- Normalise: bit 46 is the highest magnitude bit (R37). -/
def Wide.norm (a : Int) (x : Int) (nf : Bool) : Wide :=
  if a = 0 then { a := 0, x := 0, nf := nf }
  else
    let h := Nat.log2 a.natAbs
    if h ≤ 46 then { a := a * 2 ^ (46 - h), x := x - ((46 - h : Nat) : Int), nf := nf }
    else
      let b := rneShift a (h - 46)
      if b.natAbs = 2 ^ 47 then { a := b / 2, x := x + ((h - 46 : Nat) : Int) + 1, nf := nf }
      else { a := b, x := x + ((h - 46 : Nat) : Int), nf := nf }

/-- One addition of v * 2^e into a wide accumulator (R37). -/
def Wide.add (w : Wide) (v e : Int) : Wide :=
  if v = 0 then w
  else if w.a = 0 then Wide.norm v e w.nf
  else if w.x ≤ e then Wide.norm (w.a + v * 2 ^ (e - w.x).toNat) w.x w.nf
  else Wide.norm (w.a + rneShift v (w.x - e).toNat) w.x w.nf

/-- The bond's sum for one column: lane groups in order, then the chain input. (log 32: DEDUCED) -/
def bondCol (ents : List SkewEnt) (chain : Option ChainEnt) (n : Nat) : Wide :=
  let w := ents.foldl
    (fun (w : Wide) e =>
      let w := (e.runs.getD n []).foldl (fun (w : Wide) r => w.add r.1 r.2) w
      { w with nf := w.nf || e.nf.getD n false }) {}
  match chain with
  | none => w
  | some e =>
    let v := e.vals.getD n {}
    let s := w.add v.a v.x
    { s with nf := w.nf || v.nf }

/-! ### The output stage (R61 to R64) -/

/-- Saturate to ±(2^23 - 1). -/
def sat24 (y : Int) : Int × Bool :=
  if 8388607 < y then (8388607, true) else if y < -8388607 then (-8388607, true) else (y, false)

/-- Rescale (R41). -/
def rescale (w : Wide) (m : Int) (s : Nat) : Int × Bool :=
  let t := m * w.a
  let k : Int := s - w.x
  sat24 (if k ≤ 0 then t * 2 ^ (-k).toNat else rneShift t k.toNat)

/-- A value of the output stage: y in units of 2^e, with the non-finite mark. -/
structure OutVal where
  y : Int
  e : Int
  nf : Bool
  deriving DecidableEq, Repr

/-- The activation table (R62): the value and -1, 0 or 1 for below, inside or above the table. -/
def tableApply (tb : ATable) (ts lo hi : Nat) (y xo : Int) : Int × Int :=
  let v := y / 2 ^ (ts - 8)
  let i := v / 256 + 128
  let f := v % 256
  let out (mode : Nat) (hold : Int) : Int :=
    match mode with
    | 0 => hold
    | 1 =>
      let k := xo - tb.xt
      (sat24 (if 0 ≤ k then y * 2 ^ k.toNat else rneShift y (-k).toNat)).1
    | _ => 0
  if i < 0 then (out lo (tb.t.getD 0 0), -1)
  else if 254 < i then (out hi (tb.t.getD 255 0), 1)
  else
    let a := tb.t.getD i.toNat 0
    let b := tb.t.getD (i.toNat + 1) 0
    (a + rneShift ((b - a) * f) 8, 0)

/-- Steps 1 to 3 of R61 for the columns of a token: the values, and how many saturated, fell below or above the
table. -/
def outStage (x : Desc) (tb : Option ATable) (ws : List Wide) : List OutVal × Nat × Nat × Nat :=
  let m := toInt 32 (x.f 52 4)
  let s := x.f 37 1
  let xo := toInt 16 (x.f 38 2)
  let tc := x.f 34 1
  let rs := ws.map fun w => (rescale w m s, w.nf)
  let act (q : (Int × Bool) × Bool) : OutVal × Int :=
    match tb with
    | some t =>
      let (y, side) := tableApply t (x.f 35 1) (fld tc 5 4) (tc / 64) q.1.1 xo
      ({ y := y, e := t.xt, nf := q.2 }, side)
    | none => ({ y := q.1.1, e := xo, nf := q.2 }, 0)
  let sats := (rs.filter fun q => q.1.2).length
  if x.ty = 0x21 then
    let gs := (rs.take 16).map act
    let us := (rs.drop 16).take 16
    let sg := x.f 36 1
    let zs := (gs.zip us).map fun (g, u) =>
      let z := sat24 (rneShift (g.1.y * u.1.1) sg)
      (({ y := z.1, e := g.1.e + xo + sg, nf := g.1.nf || u.2 } : OutVal), z.2)
    (zs.map (·.1), sats + (zs.filter (·.2)).length, (gs.filter (·.2 == -1)).length, (gs.filter (·.2 == 1)).length)
  else
    let os := rs.map act
    (os.map (·.1), sats, (os.filter (·.2 == -1)).length, (os.filter (·.2 == 1)).length)

/-- The number an output value stands for. -/
def OutVal.num (o : OutVal) : Num := if o.nf then .nan else .ofScaled o.y o.e

/-- The output address of a running descriptor, and its scale address. -/
def FtRun.outAddrs (r : FtRun) : Nat × Nat := (r.addrs.getD 4 0, r.addrs.getD 5 0)

/-- Steps 4 and 5 for an element format: columns from k on of token t (R64, R166). -/
def Core.outElems (c : Core) (r : FtRun) (x : Desc) (src : Nat) (t : Elem) (tok k : Nat) (vs : List Num) : Core :=
  let n := x.f 44 4
  let i0 := tok * n + k
  let w := t.width
  let a := r.outAddrs.1 + i0 * (w / 8)
  let len := vs.length * (w / 8)
  match c.lbad a len with
  | some e => c.rejectAccess r.d src 88 e
  | none =>
    let accum := bitAt (x.f 31 1) 7
    let c := if accum then c.ltouch a len else c
    if accum ∧ c.lpoisoned a len then c.rejectAccess r.d src 88 (0x9011, a)
    else
      let old := if accum then (unpack w vs.length (c.lread a len)).map t.decode else vs.map fun _ => .zero false
      let xs := if accum then (vs.zip old).map fun p => p.1.add p.2 else vs
      let mode := fld (x.f 31 1) 5 4
      let cs := convElemsTo t x.nfp mode (c.convKey x.tag r.actLat.layer) 1 i0 xs
      let c := c.countConv (elemTally xs cs)
      let c := c.countSeen r.d src { nonfin := (xs.filter Num.nonFinite).length }
      if c.live r.d then c.outPut r.d a (cs.flatMap fun q => toLE (w / 8) q.code) else c

/-- Values of a block format wait for their span of 256 tokens by 32 columns (Table 5.1); a complete one goes to a
converter. -/
def Core.outBlk (c : Core) (r : FtRun) (x : Desc) (die tok k : Nat) (vs : List Num) : Core :=
  let n := x.f 44 4
  let j := k / 32
  let half := k % 32 / 16
  let key (t h : Nat) : Nat := (j * 2 ^ 20 + t) * 2 + h
  let outs := KMap.set r.outs (key tok half) vs
  let two := x.ty = 0x21 ∧ 32 * j + 16 < n
  let t0 := tok / 256 * 256
  let t1 := min (x.f 48 4) (t0 + 256)
  let toks := (List.range (t1 - t0)).map (t0 + ·)
  let has (t h : Nat) : Bool := (KMap.get? outs (key t h)).isSome
  let setRun (c : Core) (o : KMap (List Num)) : Core :=
    { c with fwd := { c.fwd with runs := c.fwd.runs.map fun (q : FtRun) => if q.d = r.d then { q with outs := o } else q } }
  if toks.all fun t => has t 0 && (!two || has t 1) then
    let f := x.f 29 1
    let bpr := ceilDiv n 32
    let (oa, os) := r.outAddrs
    let bytes := ((blkOfCode f).map BlkFmt.bytes).getD 32
    let blks := toks.map fun t =>
      ({ data := oa + (t * bpr + j) * bytes, blk := t * bpr + j, elem := t * n + 32 * j,
         vals := KMap.getD outs (key t 0) [] ++ KMap.getD outs (key t 1) [] } : SpanBlk)
    let tgt : Target :=
      { fmt := f, rmode := fld (x.f 31 1) 5 4, nfp := x.nfp, scale := os, key := c.convKey x.tag r.actLat.layer, role := 1
        tag := 1, blocks := x.f 48 4 * bpr }
    (setRun c (outs.filter fun p => !(toks.any fun t => p.1 == key t 0 || p.1 == key t 1))).addSpans
      [{ d := r.d, die := die, lat := r.outLat, tgt := tgt, blks := blks, act := false, src := none, conv := none }]
  else setRun c outs

/-- Is the store path of a run's results held up (R60, R148, R316): by a span that waits for a converter, or by a
write that waits for an entry of the buffer? -/
def Core.outHeld (c : Core) (r : FtRun) (x : Desc) (e : OutEnt) : Bool :=
  match elemOfCode (x.f 29 1) with
  | some t => c.storeWaits (r.outAddrs.1 + (e.tok * x.f 44 4 + e.col) * (t.width / 8)) (e.vals.length * (t.width / 8))
  | none => c.fwd.spans.any fun s => s.d == r.d && s.lat.role == 1 && s.conv.isNone

/-- A run, as it stands. -/
def Core.run? (c : Core) (d : Nat) : Option FtRun := c.fwd.runs.find? fun q => q.d == d

/-- The store path takes the results of a final tile's output FIFO, oldest first, while it is not held up (R60). After
the last token of the last block the run's work is done. -/
def Core.drainOuts (d tile : Nat) (x : Desc) : Nat → Core → Core
  | 0, c => c
  | f + 1, c =>
    match c.run? d, (c.tile tile).outq with
    | some r, e :: rest =>
      if c.outHeld r x e then c
      else
        let c := c.setTile tile { c.tile tile with outq := rest }
        let c := { c with fwd := { c.fwd with
          runs := c.fwd.runs.map fun (q : FtRun) => if q.d = d then { q with left := q.left - 1 } else q } }
        let c := match elemOfCode (x.f 29 1) with
          | some t => c.outElems r x (srcOf 0x01 tile) t e.tok e.col e.vals
          | none => c.outBlk r x (if tile < 96 then 0 else 1) e.tok e.col e.vals
        let c := match c.run? d with
          | some q => if q.left = 0 then c.workDone d else c
          | none => c
        Core.drainOuts d tile x f c
    | _, _ => c

/-- A token leaves the output stage of a final tile for its output FIFO. (log 137: DEDUCED) -/
def Core.outToken (c : Core) (r : FtRun) (x : Desc) (tile ci : Nat) (y : Tile) (ws : List Wide) : Core :=
  let src := srcOf 0x01 tile
  let tc := x.f 34 1
  let tb := if bitAt tc 3 then KMap.get? y.tables (tc % 4) else none
  if bitAt tc 3 ∧ y.tabBad.contains (tc % 4) then c.reject r.d 0x4011 src 34 tc true
  else
    let col := r.colBlk ci y.relRnd
    let gate := x.ty = 0x21
    let k := if gate then 16 * col else 32 * col
    let left := x.f 44 4 - k
    let (os, sat, lo, hi) := outStage x tb (ws.take (if gate then 32 else min 32 left))
    let c := (((c.bump 0x4800 1 1).bump 0x4800 0xD sat).bump 0x4800 0xB lo).bump 0x4800 0xC hi
    if y.relTok < y.sup then c
    else
      let z := c.tile tile
      c.setTile tile { z with outq := z.outq ++ [{ tok := y.relTok, col := k, vals := os.map OutVal.num }] }

/-- The tile moves on past a released token. -/
def Tile.advance (y : Tile) (toks : Nat) : Tile :=
  if y.relTok + 1 = toks then
    { y with relTok := 0, relRnd := y.relRnd + 1, sup := 0, held := y.held.filter fun p => y.relRnd < p.1 }
  else { y with relTok := y.relTok + 1 }

/-- May a tile pass a token on (R60, R75): the next tile of the chain works for the same descriptor and its chain FIFO
has room? -/
def Core.chainRoom (c : Core) (d t : Nat) : Bool :=
  match c.tileRun t with
  | some (q, _, _, z) => q.d == d && decide (z.chain.length < 8)
  | none => false

/-- The bond releases the next token of a tile in order (R54, R55): to the next tile of its chain, or to the output
stage, whose FIFO the store path empties as it can. A handshake is spent on a full output FIFO, and counted, where the
token could be released but for that (R60; log 156: DESIGN CHOICE). -/
def Core.bondStep (c : Core) (tile : Nat) (r : FtRun) (ci pos : Nat) (y : Tile) (x : Desc) : Core :=
  let c := Core.drainOuts r.d tile x y.outq.length c
  let y := { y with outq := (c.tile tile).outq }
  let lgs := (List.range 16).map fun g => KMap.getD y.lgs g {}
  let ready (e : SkewEnt) : Bool := e.tok == y.relTok && e.rnd == y.relRnd
  let ents := lgs.filterMap fun g => g.fifo.head?.filter ready
  let chainIn := y.chain.head?.filter fun e => e.tok == y.relTok && e.rnd == y.relRnd
  let ch := r.chains.getD ci []
  let next := ch[pos + 1]?
  let nextFull : Bool := match next with
    | some t => !c.chainRoom r.d t
    | none => false
  if !c.live r.d ∨ ents.length < 16 ∨ (pos ≠ 0 ∧ chainIn.isNone) ∨ nextFull then c
  else if next.isNone ∧ 8 ≤ y.outq.length then c.bump 0x4800 0xF 1
  else
    match c.injectIf 0x06 tile 0 (fun p => bitAt p 0) with
    | (some _, c) => c.reject r.d 0x4012 (srcOf 0x01 tile) 0xFFFF 0 true
    | (none, c) =>
      let ws := (List.range 32).map (bondCol ents chainIn)
      let nrun := (ents.flatMap fun e => e.runs.map List.length).foldl max 0
      let wpl := if r.wFmt x == .q2 then 2 else 1
      let h := ceilDiv (r.planes + r.tail) wpl
      let c := c.bump 0x4800 6 (ceilDiv nrun 2 - h)
      let y1 : Tile := { y with
        lgs := (List.range 16).map fun g =>
          let q := KMap.getD y.lgs g {}
          (g, { q with fifo := q.fifo.drop 1 })
        chain := if pos = 0 then y.chain else y.chain.drop 1 }
      let (c, y2) := c.lookHits tile r x ci pos 8 (y1.advance (x.f 48 4))
      let c := c.setTile tile y2
      match next with
      | some t =>
        match c.tileRun t with
        | some (_, _, _, z) =>
          c.setTile t { z with chain := z.chain ++ [{ tok := y.relTok, rnd := y.relRnd, vals := ws }] }
        | none => c
      | none => Core.drainOuts r.d tile x 8 (c.outToken r x tile ci y ws)

/-- A handshake of the bond at a tile; what the store path writes is the descriptor's (R361). -/
def execBondRelease (tile : Nat) : State → Res :=
  lift fun dev c =>
    match (if runsWork dev then c.tileRun tile else none) with
    | none => c
    | some (r, ci, pos, y) =>
      match c.desc? r.d with
      | none => c
      | some x => (c.bondStep tile r ci pos y x).owe c (.desc r.d)

end Sys2Proof.Machine
end

