-- ==== Sys2Proof/Machine/Precision.lean ====
section
/-! DEFINITION. The precision units (R96 to R99): types 0x58 to 0x5B; and how a stage reads whole operands and writes
whole tensors. -/

namespace Sys2Proof.Machine

/-! ### Operands and results -/

/-- The ranges of a whole operand: data, and with a header its scale lines and zero-point lines. -/
def Opnd.ranges (o : Opnd) (off soff : Nat) (h : List Byte) : List (Nat × Nat × Nat) :=
  let r := o.top.getD o.rows
  (off, o.addr, { o with rows := r }.bytes) ::
  (if o.isBlk then
    [(soff, o.scale, scaleBytes (r * o.bpr)),
     (soff, o.scale + scaleBytes (o.rows * o.bpr),
      if bitAt (numAt h 7 1) 0 ∧ o.table.isNone then 64 * ceilDiv (r * o.bpr) 60 else 0)]
   else [])

/-- The ranges of an operand's rows from r on, header left out: what a later reading of them fetches. -/
def Opnd.again (o : Opnd) (off soff : Nat) (h : List Byte) (r : Nat) : List (Nat × Nat × Nat) :=
  let n := o.top.getD o.rows
  let skip := { o with rows := r }.bytes
  let lines (per : Nat) : Nat := ceilDiv (n * o.bpr) per - r * o.bpr / per
  (off, o.addr + skip, { o with rows := n }.bytes - skip) ::
  (if o.isBlk then
    [(soff, o.scale + 64 + 64 * (r * o.bpr / 30), 64 * lines 30),
     (soff, o.scale + scaleBytes (o.rows * o.bpr) + 64 * (r * o.bpr / 60),
      if bitAt (numAt h 7 1) 0 ∧ o.table.isNone then 64 * lines 60 else 0)]
   else [])

/-- Fetch whole operands and read their rows, or reject at the first failure (R161, R318, R325); what reading met is
counted. Each is (field offset, scale field offset, slot, operand, header). -/
def Core.readAll (c : Core) (d src : Nat) (nfp : Bool) :
    List (Nat × Nat × Nat × Opnd × List Byte) → List (List (List Num)) → (List (List (List Num)) → Core → Core) → Core
  | [], acc, k => k acc.reverse c
  | (off, soff, slot, o, h) :: rest, acc, k =>
    match c.fetchAll (o.ranges off soff h) with
    | (c, some (f, e)) => c.rejectAccess d src f e
    | (c, none) =>
      let (rows, seen) := c.readRows o h nfp
      match seen.skew with
      | some e => c.rejectSkew d src slot e
      | none =>
        let c := c.countSeen d src seen
        if c.live d then c.readAll d src nfp rest (rows :: acc) k else c

/-- Where a stage writes a tensor: field offsets, addresses, format, latch, rounding, generator key, producer tag, die;
rows and elements of a span. -/
structure Dest where
  off : Nat
  soff : Nat
  addr : Nat
  scale : Nat
  fmt : Nat
  lat : Latch
  mode : Nat
  key : Nat
  tag : Nat
  die : Nat
  accum : Bool
  rg : Nat := 8
  kg : Nat := 4096
  deriving DecidableEq, Repr

/-- Write one row of an element format, with ACCUM adding what stands there (in FP32). -/
def Core.putRow (c : Core) (d src : Nat) (nfp : Bool) (t : Dest) (e : Elem) (cols row : Nat) (xs : List Num) : Core :=
  let i0 := row * cols
  let w := e.width
  let a := t.addr + i0 * w / 8
  let n := ceilDiv (i0 * w % 8 + xs.length * w) 8
  match c.lbad a n with
  | some b => c.rejectAccess d src t.off b
  | none =>
    let c := if t.accum then c.ltouch a n else c
    if t.accum ∧ c.lpoisoned a n then c.rejectAccess d src t.off (0x9011, a)
    else
      let old := if t.accum then (unpack w xs.length (c.lread a n)).map e.decode else []
      let xs := if t.accum then (xs.zip old).map fun p => fadd p.1 p.2 else xs
      let cs := convElemsTo e nfp t.mode t.key t.lat.role i0 xs
      let c := c.countConv (elemTally xs cs)
      let c := c.countSeen d src { nonfin := (xs.filter Num.nonFinite).length }
      if c.live d then c.putCodes a (i0 * w % 8) w (cs.map Conv.code) else c

/-- Write a tensor a stage has computed: in a block format through the converters, else row by row. -/
def Core.writeRows (c : Core) (d src : Nat) (nfp : Bool) (t : Dest) (cols : Nat) (rows : List (List Num)) : Core :=
  match blkOfCode t.fmt, elemOfCode t.fmt with
  | some _, _ =>
    let bpr := ceilDiv cols 32
    let c := c.openTensor d src t.soff t.scale t.fmt t.tag rows.length bpr
    if c.live d then
      let tgt : Target :=
        { fmt := t.fmt, rmode := t.mode, nfp := nfp, scale := t.scale, key := t.key, role := t.lat.role, tag := t.tag
          blocks := rows.length * bpr }
      c.addSpans (valueSpans d t.die t.lat tgt cols t.addr 0 t.rg t.kg rows)
    else c
  | none, some e =>
    (rows.zipIdx).foldl (fun c p => if c.live d then c.putRow d src nfp t e cols p.2 p.1 else c) c
  | none, none => c

/-- A value narrowed on its way into a unit (R13, R31): RNE, a finite value beyond the format held at its maximum; a
non-finite one passes on (log 138: DEDUCED). -/
def holdConv (f : FFmt) (x : Num) : Num × Conv :=
  match x with
  | .fin _ _ _ =>
    let q := (Elem.flt f).conv false .rne x
    (f.decode q.code, q)
  | y => (y, { code := 0 })

/-- A value held in BF16. -/
def toBf16 (x : Num) : Num := (holdConv fmtBF16 x).1

/-- Values narrowed to a format. (log 138: DEDUCED) -/
def heldIn (f : FFmt) (xs : List Num) : List Num := xs.map fun x => (holdConv f x).1

/-- What narrowing rows counts (R32). (log 138: DEDUCED) -/
def heldTally (f : FFmt) (rows : List (List Num)) : Tally5 :=
  sumTally (rows.map fun xs => elemTally xs (xs.map fun x => (holdConv f x).2))

/-- The format a precision unit multiplies in (R97): FP32, or BF16 where BF16 products are selected.
(log 140: DEDUCED) -/
def puFmt (fp32 : Bool) : FFmt := if fp32 then fmtFP32 else fmtBF16

/-- A dot product of elements already narrowed, in FP32, in ascending order (R97). (log 32: DEDUCED) -/
def dotRow (xs ys : List Num) : Num :=
  (xs.zip ys).foldl (fun s p => ffma p.1 p.2 s) (.zero false)

/-- FP32 values as a stage stores them (R31 to R35): the bytes, counted. -/
def Core.storeF32 (c : Core) (d src : Nat) (nfp : Bool) (xs : List Num) : List Byte × Core :=
  let cs := xs.map fun x => (Elem.flt fmtFP32).conv nfp .rne x
  (cs.flatMap fun q => toLE 4 q.code,
    (c.countConv (elemTally xs cs)).countSeen d src { nonfin := (xs.filter Num.nonFinite).length })

/-- Columns of a list of rows. -/
def transpose (n : Nat) (rows : List (List Num)) : List (List Num) :=
  (List.range n).map fun j => rows.map fun r => r.getD j (.zero false)

/-- A vector of n values at an address in an element format. (log 34: DEDUCED) -/
def Core.vec (c : Core) (a fmt n : Nat) : List Num :=
  match elemOfCode fmt with
  | some e => (unpack e.width n (c.lread a (ceilDiv (n * e.width) 8))).map e.decode
  | none => []

/-! ### Issue (R98) -/

/-- Units of a descriptor's mask that are available. -/
def Core.units (c : Core) (x : Desc) : List Nat :=
  (List.range 8).filter fun u => bitAt (x.f 45 1) u && bitAt (c.obj 0x5801 0) u

/-- The unit a rejection names (R476): the lowest of the mask. -/
def puSrc (x : Desc) : Nat := srcOf 0x04 (((List.range 8).find? fun u => bitAt (x.f 45 1) u).getD 0)

/-- The domains of a descriptor's units. -/
def Core.puDoms (c : Core) (x : Desc) : List Nat :=
  (if (c.units x).any (· < 4) then [1] else []) ++ (if (c.units x).any (4 ≤ ·) then [3] else [])

/-- The checks of R98 in order, for the format fields a type uses: a format byte that a form does not use (A of 0x5A, B
of 0x5B, B of 0x59 without gamma and beta, the output of 0x59 without apply) is not judged (log 158: DESIGN CHOICE).
-/
def Core.puChecks (c : Core) (x : Desc) (fmts : List Nat) : List (Bool × Nat × Nat × Nat) :=
  let m := x.f 60 4
  let n := x.f 56 4
  let k := x.f 52 4
  let p := x.f 48 4
  let ctl := x.f 44 1
  let fl := x.f 43 1
  let of_ := x.f 42 1
  let dim (v off : Nat) : Bool × Nat × Nat × Nat := (1 ≤ v && v ≤ 2 ^ 20, 0x5802, off, v)
  fmtChecks (fmts.map fun o => (o, x.f o 1)) ++ rndChecks [(43, fld fl 5 4)] ++
  [dim m 60, dim n 56, dim k 52,
   (x.ty != 0x5B || (1 ≤ p && p ≤ 65536 && p ≤ n), 0x5802, 48, p),
   (!(c.units x).isEmpty, 0x5801, 45, x.f 45 1),
   ((bytesAt x.bytes 16 24).all (· == 0), 0x5801, 16, 0),
   (fl % 8 == 0, 0x5801, 43, fl),
   ((if x.ty = 0x59 then ctl ≤ 3 else if x.ty = 0x5B then ctl ≤ 2 else ctl == 0), 0x5801, 44, ctl),
   (x.ty != 0x58 || p == 0, 0x5801, 48, p),
   (x.ty != 0x59 || Num.lt (.zero false) (f32 p), 0x5801, 48, p),
   (of_ != 0x01 && of_ != 0x06, 0x5803, 42, of_),
   (!bitAt fl 7 || of_ == 0x08 || of_ == 0x0A, 0x5803, 42, of_)]

/-- Is a descriptor one of the precision units' (Table 11.9)? -/
def Desc.onPu (x : Desc) : Bool := 0x58 ≤ x.ty && x.ty ≤ 0x5B

/-- Do two unit masks overlap on an available unit? -/
def Core.puOverlap (c : Core) (x y : Desc) : Bool :=
  y.onPu && (List.range 8).any fun u => bitAt (x.f 45 1) u && bitAt (y.f 45 1) u && bitAt (c.obj 0x5801 0) u

/-- May the units of a descriptor's mask begin it (R96): none runs another, a descriptor whose spans still convert among
them, and it is its turn? -/
def Core.puFree (c : Core) (d : Nat) : Bool :=
  match c.desc? d with
  | some x =>
    !(c.links.descs.any fun p => p.2.issued && c.puOverlap x p.2 &&
      (!p.2.done || c.fwd.spans.any fun s => s.d == p.1)) && c.inTurn x (c.puOverlap x)
  | none => false

/-- The buffers of the units a descriptor uses: one flipped bit is corrected, more reject it, naming the unit (R99). -/
def Core.puBuffers (c : Core) (d : Nat) (us : List Nat) : Core :=
  us.foldl
    (fun c u =>
      if !c.live d then c
      else
        match c.inject 0x09 u 0 with
        | (some p, c) => if singleBit p then c.bump 0x5880 4 1 else c.reject d 0x5805 (srcOf 0x04 u) 0xFFFF 0 true
        | (none, c) => c) c

/-- A precision-unit descriptor at issue: the checks, RC, resolution, the buffers' errors (R99), then the work. -/
def Core.puIssue (c : Core) (dev : Dev) (d ty : Nat) (fmts : Desc → List Nat)
    (work : Desc → Nat → List Nat → Core → Core) : Core :=
  if !c.puFree d then c
  else c.issue dev d [ty] c.puDoms fun x c =>
    let src := puSrc x
    c.checked d src (c.puChecks x (fmts x)) fun c =>
      c.rcGate d src x true fun c =>
        c.resolved d src true [(64, x.f 64 8), (72, x.f 72 8), (80, x.f 80 8), (88, x.f 88 8), (96, x.f 96 8),
            (104, x.f 104 8), (112, x.f 112 8), (120, x.f 120 8)] fun as c =>
          let us := c.units x
          let c := c.puBuffers d us
          if c.live d then work x (srcOf 0x04 (us.headD 0)) as c else c

/-- Handshakes computing where the manual gives no count: a free value (log 4: DESIGN CHOICE).
(log 35: DESIGN CHOICE) -/
def Core.puBusy (c : Core) : Core :=
  let (n, c) := c.draw (2 ^ 32)
  c.bump 0x5880 2 n

/-- The destination of a precision-unit result: role 4, kind 2 (R137). ACCUM, which Table 3.4 gives for every type, adds
the old output for each of them (R97; log 158: DESIGN CHOICE). -/
def Core.puDest (c : Core) (x : Desc) (as : List Nat) : Dest × Core :=
  let layer := x.f 46 2
  let fmt := x.f 42 1
  let (lat, c) := if (blkOfCode fmt).isSome then c.latch layer 2 4 fmt else (c.noLatch layer 2 4 0, c)
  ({ off := 96, soff := 104, addr := as.getD 4 0, scale := as.getD 5 0, fmt := fmt, lat := lat
     mode := fld (x.f 43 1) 5 4, key := c.convKey x.tag layer, tag := 4
     die := if (c.units x).headD 0 < 4 then 0 else 1, accum := bitAt (x.f 43 1) 7 }, c)

/-- The expansion table at an address: sixteen BF16 entries (R27). (log 34: DEDUCED) -/
def Core.expansion (c : Core) (a : Nat) : Option (List Num) :=
  if a = 0 then none else some ((List.range 16).map fun i => bf16 (c.lnum (a + 2 * i) 2))

/-- Fetch small ranges first, or reject. -/
def Core.fetched (c : Core) (d src : Nat) (rs : List (Nat × Nat × Nat)) (k : Core → Core) : Core :=
  match c.fetchAll rs with
  | (c, some (off, e)) => c.rejectAccess d src off e
  | (c, none) => k c

/-- The event a write of n bytes at an auxiliary address meets; none where the address is zero. -/
def Core.auxBad (c : Core) (aux n : Nat) : Option (Nat × Nat) := if aux = 0 then none else c.lbad aux n

/-! ### Type 0x58 -/

/-- Type 0x58. The blocks of a block-format B run along its stored rows: along K where B is transposed, along N where
it is not (log 139: DEDUCED). -/
def execPuProduct (d : Nat) : State → Res :=
  lift fun dev c =>
    c.puIssue dev d 0x58 (fun _ => [40, 41, 42]) fun x src as c =>
      let m := x.f 60 4
      let n := x.f 56 4
      let k := x.f 52 4
      let fl := x.f 43 1
      let trans := bitAt fl 3
      let bf := x.f 41 1
      let ex := as.getD 6 0
      let bias := as.getD 7 0
      c.fetched d src [(112, ex, if ex = 0 then 0 else 32), (120, bias, if bias = 0 then 0 else 4 * n)] fun c =>
        let a : Opnd := { addr := as.getD 0 0, scale := as.getD 1 0, fmt := x.f 40 1, rows := m, cols := k }
        let b : Opnd :=
          { addr := as.getD 2 0, scale := as.getD 3 0, fmt := bf, rows := if trans then n else k
            cols := if trans then k else n, table := if fmtBits bf = 4 then c.expansion ex else none }
        c.headersOk d src none [(72, a, false, fun _ => none), (88, b, false, fun _ => none)] [] fun hs c =>
          c.readAll d src x.nfp [(64, 72, 0, a, hs.getD 0 []), (80, 88, 1, b, hs.getD 1 [])] [] fun rs c =>
            let f := puFmt (bitAt fl 6)
            let biases := if bias = 0 then [] else c.vec bias 0x0A n
            let c := ((c.countConv (heldTally f (rs.getD 0 []))).countConv (heldTally f (rs.getD 1 []))).countSeen d src
              { nonfin := (biases.filter Num.nonFinite).length }
            let rowsB := (rs.getD 1 []).map (heldIn f)
            let cols := if trans then rowsB else transpose n rowsB
            let out := (rs.getD 0 []).map fun row =>
              (cols.zipIdx).map fun (col, j) =>
                let s := dotRow (heldIn f row) col
                if bias = 0 then s else fadd s (biases.getD j (.zero false))
            if !c.live d then c
            else
              let (t, c) := c.puDest x as
              let c := (c.writeRows d src x.nfp t n out).puBusy
              c.workDone d

/-! ### Type 0x59 -/

/-- Mean, and r = 1/√(σ² + ε), of a row (R97): σ² is the mean of (x - μ)²; RMS has μ = 0. The factors of a product are
first narrowed to f (log 140: DEDUCED). -/
def rowStats (f : FFmt) (rms : Bool) (eps : Num) (xs : List Num) : Num × Num :=
  let n := fOfNat xs.length
  let mu := if rms then .zero false else fdiv (xs.foldl fadd (.zero false)) n
  let v := fdiv ((heldIn f (xs.map fun x => fsub x mu)).foldl (fun s x => ffma x x s) (.zero false)) n
  (mu, fdiv (.ofNat 1) (fsqrt (fadd v eps)))

/-- A row normalised: (x - μ) * r * γ + β, the factors of each product narrowed to f. (log 140: DEDUCED) -/
def rowNorm (f : FFmt) (mu r : Num) (xs gamma beta : List Num) : List Num :=
  let h (x : Num) : Num := (holdConv f x).1
  ((xs.zip gamma).zip beta).map fun ((v, gm), bt) => ffma (h (fmul (h (fsub v mu)) (h r))) (h gm) bt

/-- Statistics out, and the normalised rows where they are applied (R97). -/
def Core.statsOut (c : Core) (d src : Nat) (x : Desc) (as : List Nat) (rows : List (List Num)) (gamma beta : List Num) :
    Core :=
  let aux := as.getD 7 0
  let f := puFmt (bitAt (x.f 43 1) 6)
  let xs := rows.map (heldIn fmtFP32)
  let c := c.countConv (heldTally fmtFP32 rows)
  let st := xs.map fun r => rowStats f (!bitAt (x.f 44 1) 0) (f32 (x.f 48 4)) r
  match c.lbad aux (8 * rows.length) with
  | some e => c.rejectAccess d src 120 e
  | none =>
    let (stats, c) := c.storeF32 d src x.nfp (st.flatMap fun p => [p.1, p.2])
    let c := if c.live d then c.lput aux stats else c
    if !c.live d then c
    else if bitAt (x.f 44 1) 1 then
      let out := (xs.zip st).map fun (r, s) => rowNorm f s.1 s.2 r gamma beta
      let (t, c) := c.puDest x as
      (c.writeRows d src x.nfp t (x.f 52 4) out).puBusy.workDone d
    else c.puBusy.workDone d

/-- Type 0x59. The manual names no format for β: it is read in the B format where that is an element format, in FP32
where it is a block format (log 34: DEDUCED). Formats the form does not use are not judged (log 158: DESIGN CHOICE). -/
def execRowStatistics (d : Nat) : State → Res :=
  lift fun dev c =>
    let apply (x : Desc) : Bool := bitAt (x.f 44 1) 1
    let affine (x : Desc) : Bool := apply x && (x.f 80 8 != 0 || x.f 112 8 != 0)
    c.puIssue dev d 0x59 (fun x => [40] ++ (if affine x then [41] else []) ++ (if apply x then [42] else []))
      fun x src as c =>
        let m := x.f 60 4
        let k := x.f 52 4
        let gf := x.f 41 1
        let g := as.getD 2 0
        let b := as.getD 6 0
        let bf := if (elemOfCode gf).isSome then gf else 0x0A
        let a : Opnd := { addr := as.getD 0 0, scale := as.getD 1 0, fmt := x.f 40 1, rows := m, cols := k }
        let go : Opnd := { addr := g, scale := as.getD 3 0, fmt := gf, rows := 1, cols := k }
        let useG := apply x && g != 0
        let useB := apply x && b != 0
        c.fetched d src [(112, b, if useB then ceilDiv (k * fmtBits bf) 8 else 0)] fun c =>
          c.headersOk d src none
            ([(72, a, false, fun _ => none)] ++ (if useG then [(88, go, false, fun _ => none)] else [])) [] fun hs c =>
            c.readAll d src x.nfp
              ([(64, 72, 0, a, hs.getD 0 [])] ++ (if useG then [(80, 88, 1, go, hs.getD 1 [])] else [])) [] fun rs c =>
              let rows := rs.getD 0 []
              let gamma := if useG then (rs.getD 1 []).headD [] else List.replicate k (.ofNat 1)
              let beta := if useB then c.vec b bf k else List.replicate k (.zero false)
              let c := c.countSeen d src { nonfin := (beta.filter Num.nonFinite).length }
              if c.live d then c.statsOut d src x as rows gamma beta else c

/-! ### Type 0x5A -/

/-- (log 140: DEDUCED) -/
def execGather (d : Nat) : State → Res :=
  lift fun dev c =>
    c.puIssue dev d 0x5A (fun _ => [41, 42]) fun x src as c =>
      let m := x.f 60 4
      let n := x.f 56 4
      let k := x.f 52 4
      let idx := as.getD 7 0
      let ex := as.getD 6 0
      let bf := x.f 41 1
      c.fetched d src [(120, idx, 4 * m), (112, ex, if ex = 0 then 0 else 32)] fun c =>
        let b : Opnd :=
          { addr := as.getD 2 0, scale := as.getD 3 0, fmt := bf, rows := k, cols := n
            table := if fmtBits bf = 4 then c.expansion ex else none }
        c.headersOk d src none [(88, b, false, fun _ => none)] [] fun hs c =>
          let h := hs.getD 0 []
          let is := (List.range m).map fun i => c.lnum (idx + 4 * i) 4
          let good := is.filter (· < k)
          let rowBytes := if b.isBlk then b.bpr * (4 * fmtBits bf) else ceilDiv (n * fmtBits bf) 8
          let ranges := good.flatMap fun i =>
            (80, if b.isBlk then b.addr + i * rowBytes else b.addr + i * n * fmtBits bf / 8, rowBytes) ::
            (if b.isBlk then [(88, b.scale + 64 + 64 * (i * b.bpr / 30),
              64 * ((i * b.bpr + b.bpr - 1) / 30 + 1 - i * b.bpr / 30))] else [])
          c.fetched d src ranges fun c =>
            let reads := is.map fun i => if i < k then c.readRow b h x.nfp i else (List.replicate n (.zero false), {})
            let seen := reads.foldl (fun (s : Seen) r => s.add r.2) {}
            match seen.skew with
            | some e => c.rejectSkew d src 1 e
            | none =>
              let c := c.countSeen d src seen
              let bad := m - good.length
              let c := c.bump 0x5880 3 bad
              let c := if bad = 0 then c else c.raiseOnce d { code := 0x5806, source := src }
              if !c.live d then c
              else
                let f := puFmt (bitAt (x.f 43 1) 6)
                let p := (holdConv f (f32 (x.f 48 4))).1
                let c := c.countConv (heldTally f ((reads.zip is).filterMap fun (r, i) => if i < k then some r.1 else none))
                let out := (reads.zip is).map fun (r, i) =>
                  if i < k then (heldIn f r.1).map (fmul p) else r.1
                let (t, c) := c.puDest x as
                (c.writeRows d src x.nfp t n out).puBusy.workDone d

/-! ### Type 0x5B -/

/-- A value with its index and the key it sorts by: a NaN's place is a free value (log 4: DESIGN CHOICE). -/
structure SortEnt where
  v : Num
  key : Num
  i : Nat
  deriving DecidableEq, Repr

/-- Insert keeping order: descending or ascending by key, equal keys by index. -/
def insertSorted (desc : Bool) (e : SortEnt) : List SortEnt → List SortEnt
  | [] => [e]
  | y :: ys =>
    let before := if desc then Num.lt y.key e.key else Num.lt e.key y.key
    if before then e :: y :: ys else y :: insertSorted desc e ys

/-- The entries of a row in order. (log 36: DESIGN CHOICE) -/
def Core.sortRow (c : Core) (desc : Bool) (xs : List Num) : List SortEnt × Core :=
  (xs.zipIdx).foldl
    (fun (acc : List SortEnt × Core) (p : Num × Nat) =>
      let (k, c) := match p.1 with
        | .nan =>
          let (n, c) := acc.2.draw 0x7F800000
          (f32 n, c)
        | v => (v, acc.2)
      (insertSorted desc { v := p.1, key := k, i := p.2 } acc.1, c)) ([], c)

/-- ⌈log2 n⌉ of a positive number. -/
def clog2 (n : Nat) : Nat := if n ≤ 1 then 0 else Nat.log2 (n - 1) + 1

def execSelect (d : Nat) : State → Res :=
  lift fun dev c =>
    c.puIssue dev d 0x5B (fun _ => [40, 42]) fun x src as c =>
      let m := x.f 60 4
      let n := x.f 56 4
      let k := x.f 48 4
      let op := x.f 44 1 % 4
      let aux := as.getD 7 0
      let a : Opnd := { addr := as.getD 0 0, scale := as.getD 1 0, fmt := x.f 40 1, rows := m, cols := n }
      c.headersOk d src none [(72, a, false, fun _ => none)] [] fun hs c =>
        c.readAll d src x.nfp [(64, 72, 0, a, hs.getD 0 [])] [] fun rs c =>
          let w := if op = 0 then k else n
          let (rows, c) := (rs.getD 0 []).foldl
            (fun (acc : List (List SortEnt) × Core) r =>
              let (l, c) := acc.2.sortRow (op != 1) r
              (acc.1 ++ [l.take w], c)) ([], c)
          let ixs := rows.flatMap fun l => l.flatMap fun e => toLE 4 e.i
          match c.lbad aux ixs.length with
          | some e => c.rejectAccess d src 120 e
          | none =>
            let c := c.lput aux ixs
            let hs := if op = 0 then ceilDiv n 64 + k else ceilDiv n 64 * clog2 n
            let (t, c) := (c.bump 0x5880 2 (m * hs)).puDest x as
            (c.writeRows d src x.nfp t w (rows.map fun l => l.map SortEnt.v)).workDone d

end Sys2Proof.Machine
end

