-- ==== Sys2Proof/Machine/Prefix.lean ====
section
/-! DEFINITION. The prefix table (R217 to R221): hashes, entries in P5, the cold list, eviction. -/

namespace Sys2Proof.Machine

/-- No entry. -/
def noEntry : Nat := 0xFFFFFFFF

/-- A prefix entry (Table 7.3). -/
structure Pfx where
  hash : Nat
  refs : Nat
  parent : Nat
  prev : Nat
  next : Nat
  cold : Nat
  block : Nat
  valid : Bool
  pool : Nat
  deriving DecidableEq, Repr

/-- Is the table in use? -/
def Core.pfxOn (c : Core) : Bool := c.flag 0x6300 1

def Core.pfxAddr (c : Core) (e : Nat) : Nat := c.obj 0x6300 2 + 32 * e

/-- The row of an entry: its page of each layer. -/
def Core.pfxRow (c : Core) (e : Nat) : Nat := c.obj 0x6300 3 + e * c.obj 0x6300 4 * 4

/-- Read an entry. -/
def Core.pfx (c : Core) (e : Nat) : Pfx :=
  let b := c.bytes (c.pfxAddr e) 32
  let f (o n : Nat) : Nat := numAt b o n
  { hash := f 0 8, refs := f 8 4, parent := f 12 4, prev := f 16 4, next := f 20 4, cold := f 24 4, block := f 28 2
    valid := bitAt (f 30 1) 7, pool := f 30 1 % 4 }

/-- An entry's 32 bytes. -/
def Pfx.bytes (x : Pfx) : List Byte :=
  toLE 8 x.hash ++ toLE 4 x.refs ++ toLE 4 x.parent ++ toLE 4 x.prev ++ toLE 4 x.next ++ toLE 4 x.cold ++
    toLE 2 x.block ++ toLE 1 ((if x.valid then 128 else 0) + x.pool % 4) ++ toLE 1 0

/-- Write an entry. -/
def Core.setPfx (c : Core) (e : Nat) (x : Pfx) : Core := c.put (c.pfxAddr e) x.bytes

/-- Read an entry and write it back changed (R309). -/
def Core.editPfx (c : Core) (e : Nat) (f : Pfx → Pfx) : Core :=
  let c := c.touch (c.pfxAddr e) 32
  c.setPfx e (f (c.pfx e))

/-- Read the row of an entry: the event that its reader meets, if any (R318, R325). -/
def Core.readPfxRow (c : Core) (e : Nat) : Core × Option (Nat × Nat) := c.lfetch (c.pfxRow e) (4 * c.obj 0x6300 4)

/-! ### Hashes (R217) -/

def pfxRoot (salt v pool : Nat) : Nat := mixN (salt ^^^ mixN (v * 4 + pool))

/-- blockhash over a block's tokens. -/
def blockHash (h : Nat) (ts : List Nat) : Nat := (ts.zipIdx).foldl (fun h p => mixN (h ^^^ (p.2 * 2 ^ 32 + p.1))) h

/-- The ways of a hash's set. -/
def pfxWays (h : Nat) : List Nat := (List.range 8).map (h % 2 ^ 17 * 8 + ·)

/-- The valid way that holds a block under a parent. -/
def Core.pfxFind (c : Core) (h b pool parent : Nat) : Option Nat :=
  (pfxWays h).find? fun e =>
    let x := c.pfx e
    x.valid && x.hash == h && x.block == b && x.pool == pool && x.parent == parent

/-! ### The cold list (R221) -/

/-- Change the ends and the count. -/
def Core.setCold (c : Core) (head tail n : Nat) : Core :=
  { c with roll := { c.roll with coldHead := head, coldTail := tail, cold := n } }

/-- An entry leaves the cold list. -/
def Core.uncold (c : Core) (e : Nat) : Core :=
  let x := c.pfx e
  let c := if x.prev = noEntry then c else c.editPfx x.prev fun y => { y with next := x.next }
  let c := if x.next = noEntry then c else c.editPfx x.next fun y => { y with prev := x.prev }
  let c := c.setCold (if x.prev = noEntry then x.next else c.roll.coldHead)
    (if x.next = noEntry then x.prev else c.roll.coldTail) (c.roll.cold - 1)
  c.editPfx e fun y => { y with prev := noEntry, next := noEntry }

/-- An entry joins the tail of the cold list with its cold time. -/
def Core.toCold (c : Core) (e : Nat) : Core :=
  let t := c.roll.coldTail
  let now := c.now
  let c := if t = noEntry then c else c.editPfx t fun y => { y with next := e }
  let c := c.editPfx e fun y => { y with prev := t, next := noEntry, cold := fld now 51 20 }
  c.setCold (if c.roll.coldHead = noEntry then e else c.roll.coldHead) e (c.roll.cold + 1)

/-- A context takes a reference. -/
def Core.pfxTake (c : Core) (e : Nat) : Core :=
  let c := if (c.pfx e).refs = 0 then c.uncold e else c
  c.editPfx e fun y => { y with refs := y.refs + 1 }

/-- A context drops a reference. -/
def Core.pfxDrop (c : Core) (e : Nat) : Core :=
  let x := c.pfx e
  let c := c.editPfx e fun y => { y with refs := y.refs - 1 }
  if x.refs = 1 then c.toCold e else c

/-- Drop n references from an entry up through its parents, deepest first (R212). -/
def Core.pfxDropChain (c : Core) : Nat → Nat → Core
  | 0, _ => c
  | n + 1, e => if e = noEntry then c else (c.pfxDrop e).pfxDropChain n (c.pfx e).parent

/-- Evict an entry (R221). One whose row cannot be read stays; the event is answered (R325). -/
def Core.pfxEvict (c : Core) (e : Nat) : Core × Option (Nat × Nat) :=
  match c.readPfxRow e with
  | (c, some bad) => (c, some bad)
  | (c, none) =>
    let x := c.pfx e
    let c := (c.uncold e).editPfx e fun y => { y with valid := false }
    let c := { c with roll := { c.roll with valid := c.roll.valid - 1 } }
    ((List.range (c.obj 0x6300 4)).foldl (fun c l => c.freePage x.pool (c.num (c.pfxRow e + 4 * l) 4)) c, none)

/-- The first entry of a pool among the next n of the cold list, each of them read. -/
def Core.coldScan (c : Core) (pool : Nat) : Nat → Nat → Option Nat × Core
  | 0, _ => (none, c)
  | n + 1, e =>
    if e = noEntry then (none, c)
    else
      let c := c.touch (c.pfxAddr e) 32
      if (c.pfx e).pool = pool then (some e, c) else c.coldScan pool n (c.pfx e).next

/-- An allocation waits on an empty ring: one eviction for the page sought (R221). -/
def Core.pfxPressure (c : Core) (pool : Nat) : Core :=
  if !c.pfxOn then c
  else
    match c.coldScan pool 64 c.roll.coldHead with
    | (none, c) => c
    | (some e, c) =>
      match c.pfxEvict e with
      | (c, none) => c.bump 0x6890 0xD 1
      | (c, some _) => c

/-! ### Page lists (R191 to R195) -/

/-- A page-list entry (Table 6.4). -/
structure PEnt where
  pageNew : Nat
  genNew : Nat
  genOld : Nat
  pageOld : Nat
  locNew : Nat
  locOld : Nat
  deriving DecidableEq, Repr

def noPage : Nat := 0xFFFFFFFF
def locLocal : Nat := 0xFFFF
def locParked : Nat := 0xFFFE

/-- The address of the entry of layer l and block b. -/
def Core.entAddr (c : Core) (list l b : Nat) : Nat :=
  c.lnum (list + 8) 8 + (l * c.lnum (list + 4) 4 + b) * 16

/-- A list's generation, capacity and layer count (Table 6.3). -/
def Core.listGen (c : Core) (list : Nat) : Nat := c.lnum list 2
def Core.listCap (c : Core) (list : Nat) : Nat := c.lnum (list + 4) 4
def Core.listLayers (c : Core) (list : Nat) : Nat := c.lnum (list + 16) 2

/-- Read an entry. -/
def Core.pent (c : Core) (list l b : Nat) : PEnt :=
  let x := c.bytes (c.entAddr list l b) 16
  let f (o n : Nat) : Nat := numAt x o n
  { pageNew := f 0 4, genNew := f 4 2, genOld := f 6 2, pageOld := f 8 4, locNew := f 12 2, locOld := f 14 2 }

/-- Write an entry in one 16 B write (R192). -/
def Core.setPent (c : Core) (list l b : Nat) (e : PEnt) : Core :=
  c.put (c.entAddr list l b)
    (toLE 4 e.pageNew ++ toLE 2 e.genNew ++ toLE 2 e.genOld ++ toLE 4 e.pageOld ++ toLE 2 e.locNew ++ toLE 2 e.locOld)

/-- An entry for a page held since generation g (R188, R219). -/
def PEnt.held (page g : Nat) : PEnt :=
  { pageNew := page, pageOld := page, genNew := g, genOld := g, locNew := locLocal, locOld := locLocal }

/-- Step 1 of R194: replace what an entry names, under generation g + 1. -/
def PEnt.edit (e : PEnt) (g page loc : Nat) : PEnt :=
  { pageOld := e.pageNew, locOld := e.locNew, genOld := e.genNew, pageNew := page, locNew := loc
    genNew := (g + 1) % 65536 }

/-- Step 2 of R194: the new generation. -/
def Core.setGen (c : Core) (list g : Nat) : Core := c.put list (toLE 2 g)

end Sys2Proof.Machine
end

