-- ==== Sys2Proof/Machine/Attention.lean ====
section
/-! DEFINITION. Attention engines, page walkers and the key/value cache (chapter 6). -/

namespace Sys2Proof.Machine

/-! ### Slot headers (Table 6.2) -/

def slotMagic : Nat := magic 0x4B 0x56 0x50 0x47

/-- A page's slot header as the allocator writes it. -/
def slotHeader (fmt hkv block layer pool step : Nat) : List Byte :=
  let h := toLE 4 slotMagic ++ toLE 1 fmt ++ toLE 1 1 ++ toLE 1 hkv ++ toLE 1 0 ++ toLE 4 block ++ toLE 2 layer ++
    toLE 1 0 ++ toLE 1 pool ++ toLE 4 step ++ List.replicate 40 0
  h ++ toLE 4 (crc32c h)

/-- The walker's check of a slot header (R197). -/
def slotOk (h : List Byte) (layer block pool hkv : Nat) : Bool :=
  numAt h 0 4 == slotMagic && numAt h 5 1 == 1 && numAt h 60 4 == crc32c (bytesAt h 0 60) &&
    numAt h 12 2 == layer && numAt h 8 4 == block && numAt h 15 1 == pool && numAt h 6 1 == hkv &&
    [0x81, 0x82, 0x83, 0x08].contains (numAt h 4 1)

/-- Bytes of 128 elements in a cache format. -/
def rowBytes (fmt : Nat) : Nat := 16 * fmtBits fmt

/-- Bytes of one head in a page: 32 keys and 32 values. -/
def headBytes (fmt : Nat) : Nat := 64 * rowBytes fmt

/-! ### Descriptor and item fields -/

/-- A byte field of an item. -/
def AItem.f (i : AItem) (o n : Nat) : Nat := numAt i.bytes o n
def AItem.n (i : AItem) : Nat := i.f 56 4
def AItem.c (i : AItem) : Nat := i.f 55 1
def AItem.head (i : AItem) : Nat := i.f 54 1
def AItem.pos0 (i : AItem) : Nat := i.f 48 4
def AItem.list (i : AItem) : Nat := i.addrs.getD 0 0
def AItem.q (i : AItem) : Nat := i.addrs.getD 1 0
def AItem.qs (i : AItem) : Nat := i.addrs.getD 2 0
def AItem.out (i : AItem) : Nat := i.addrs.getD 3 0
def AItem.new_ (i : AItem) : Nat := i.addrs.getD 4 0
def AItem.stats (i : AItem) : Nat := i.addrs.getD 5 0

/-- Query heads per key/value head. -/
def Desc.hg (x : Desc) : Nat := x.f 35 1 % 32
def Desc.causal (x : Desc) : Bool := bitAt (x.f 33 1) 0
def Desc.windowed (x : Desc) : Bool := bitAt (x.f 33 1) 1
def Desc.dense (x : Desc) : Bool := bitAt (x.f 33 1) 2
def Desc.aPool (x : Desc) : Nat := x.f 34 1 % 4
def Desc.aKind (x : Desc) : Nat := fld (x.f 34 1) 3 2

/-- Is key position k visible to query position q (R181)? -/
def visible (x : Desc) (n q k : Nat) : Bool :=
  k < n && (!x.causal || k ≤ q) && (!x.windowed || q < k + x.f 48 4)

/-- The pages an item's walker fetches (R182), in order. -/
def pagesOf (x : Desc) (i : AItem) : List Nat :=
  let lo := i.pos0
  let hi := i.pos0 + i.c - 1
  (List.range (ceilDiv i.n 32)).filter fun b =>
    (!x.causal || 32 * b ≤ hi) && (!x.windowed || lo < 32 * b + 31 + x.f 48 4)

/-! ### Items end (R203) -/

/-- Keep an item: in its place, or as the newest. -/
def Core.setItem (c : Core) (i : ItemRun) : Core :=
  let same (j : ItemRun) : Bool := j.d == i.d && j.item.idx == i.item.idx
  { c with attn := { c.attn with
      items := if c.attn.items.any same then c.attn.items.map fun j => if same j then i else j
        else c.attn.items ++ [i] } }

/-- An engine. -/
def Core.eng (c : Core) (e : Nat) : AEng := KMap.getD c.attn.engs e {}

/-- Replace an engine. -/
def Core.setEng (c : Core) (e : Nat) (g : AEng) : Core :=
  { c with attn := { c.attn with engs := KMap.set c.attn.engs e g } }

/-- The event of a status. -/
def statusEvent (st : Nat) : Nat :=
  match st with
  | 2 => 0x6010
  | 3 => 0x6011
  | 4 => 0x6012
  | 5 => 0x6013
  | 6 => 0x6014
  | _ => 0x6015

/-- An item's event, with its tensor's layer, role and work kind and, as the count, the context index of its bytes 52
and 53 (Table 6.7). (log 160: DESIGN CHOICE) -/
def Core.itemEvent (c : Core) (i : ItemRun) (code : Nat) : Core :=
  let detail := match c.desc? i.d with
    | some x => detail6 (x.f 40 2) 5 x.aKind (i.item.f 52 2)
    | none => 0
  c.raiseOnce i.d { code := code, source := srcOf 0x03 i.engine, fmt := 6, detail := detail }

/-- An item ends with a status, written as its last act. The handshakes its engine and walker spent waiting have no
stated length: free values (log 21: DESIGN CHOICE); so is how many words of its slots, query buffer and running state
were corrected meanwhile (R205, log 141: DESIGN CHOICE). -/
def Core.endItem (c : Core) (i : ItemRun) (st : Nat) : Core :=
  let kept (u : TxnUse) : Bool := match u with
    | .page e w _ => !(e == i.engine && w == i.walker)
    | _ => true
  let c := { c with
    attn := { c.attn with items := c.attn.items.filter fun j => !(j.d == i.d && j.item.idx == i.item.idx) }
    links := { c.links with
      txns := c.links.txns.filter (fun p => kept p.2.use)
      tagWaits := c.links.tagWaits.filter (fun t => kept t.use) } }
  let c := c.setEng i.engine ((c.eng i.engine).without (· == i.walker))
  let c := c.serveWaits c.links.tagWaits.length
  match c.attn.runs.find? (fun r => r.d == i.d) with
  | none => c
  | some r =>
    let c := (c.lput (r.base + 64 * i.item.idx + 60) (toLE 1 st)).owe c (.desc i.d)
    let c := if st = 1 then c.bump 0x6880 1 1 else (c.bump 0x6880 0x10 1).itemEvent i (statusEvent st)
    let (idle, c) := c.draw (2 ^ 32)
    let (full, c) := c.draw (2 ^ 32)
    let (fixed, c) := c.draw (2 ^ 32)
    let c := ((c.bump 0x6880 0xC idle).bump 0x6880 0xD full).bump 0x6880 0x12 fixed
    if !c.live i.d then c
    else if r.left ≤ 1 then
      ({ c with attn := { c.attn with runs := c.attn.runs.filter (·.d != i.d) } }).workDone i.d
    else
      { c with attn := { c.attn with
          runs := c.attn.runs.map fun (q : AttnRun) => if q.d = i.d then { q with left := q.left - 1 } else q } }

/-! ### New rows (R186, R188) -/

/-- One request of the allocator for a list entry: the page, an item status, a wait for a page, or an access that
rejects its descriptor (R318, R325). -/
inductive Alloc where
  | page (p : Nat)
  | fails (status : Nat)
  | waits
  | access (e : Nat × Nat)
  deriving DecidableEq, Repr

/-- The allocator's answer for an entry, which it reads, with the tag of the page it names (R188); a page it gives is
held from generation g on. (log 45: DEDUCED) -/
def Core.allocEntry (c : Core) (list l b pool fmt g : Nat) : Alloc × Core :=
  match c.lfetch (c.entAddr list l b) 16 with
  | (c, some e) => (.access e, c)
  | (c, none) =>
    let e := c.pent list l b
    if e.pageNew = noPage then
      match c.takePage pool with
      | (none, c) => (.waits, c)
      | (some p, c) =>
        let c := c.put (c.slotAddr pool p) (slotHeader fmt (c.obj (0x6100 + pool) 7) b l pool c.step)
        (.page p, (c.setPent list l b (.held p g)).bump 0x6880 9 1)
    else if e.locNew ≠ locLocal then (.fails 8, c)
    else
      match c.lfetch (c.slotAddr pool e.pageNew) 64 with
      | (c, some e) => (.access e, c)
      | (c, none) => if c.num (c.slotAddr pool e.pageNew + 4) 1 ≠ fmt then (.fails 7, c) else (.page e.pageNew, c)

/-- Pages for blocks b, b + 1, …: the pages, or the block that stopped and how. -/
def Core.allocAll (c : Core) (list l pool fmt g : Nat) : Nat → Nat → List Nat → Except (Nat × Alloc) (List Nat) × Core
  | _, 0, acc => (.ok acc.reverse, c)
  | b, k + 1, acc =>
    match c.allocEntry list l b pool fmt g with
    | (.page p, c) => c.allocAll list l pool fmt g (b + 1) k (p :: acc)
    | (a, c) => (.error (b, a), c)

/-- The CACHE spans of an item's new rows, one for each page it writes (R148, R186): each row's four key blocks and four
value blocks at its position, their scale words in the head's lines, whose stamps carry 256h + 30j (R184). -/
def Core.cacheSpans (c : Core) (x : Desc) (lat : Latch) (i : ItemRun) (b0 : Nat) (pages : List Nat) : List Span :=
  let it := i.item
  let fmt := x.f 32 1
  let n := rowBytes fmt
  let tgt : Target :=
    { fmt := fmt, rmode := fld (x.f 33 1) 5 4, nfp := x.nfp, scale := 0, key := c.convKey x.tag (x.f 40 2), role := 5
      tag := 5, blocks := if (blkOfCode fmt).isSome then 256 else 0, seq := 256 * it.head }
  (pages.zipIdx).map fun (p : Nat × Nat) =>
    let base := c.pageAddr x.aPool p.1 + it.head * headBytes fmt
    let ks := (List.range it.c).filter fun k => (it.pos0 + k) / 32 == b0 + p.2
    { d := i.d, die := if i.engine < 8 then 0 else 1, lat := lat, act := false, src := none, conv := none
      item := some it.idx
      tgt := { tgt with scale := c.slotAddr x.aPool p.1 + 576 * it.head }
      blks := ks.flatMap fun k =>
        let pos := (it.pos0 + k) % 32
        let row (a : Nat) : List Num := (unpack 16 128 (c.lread a 256)).map bf16
        let vals := row (it.new_ + 256 * k) ++ row (it.new_ + 256 * (it.c + k))
        (List.range 8).map fun j =>
          { data := base + (if j < 4 then 0 else 32 * n) + pos * n + j % 4 * (n / 4), blk := 8 * pos + j
            elem := p.1 * 2 ^ 17 + it.head * 2 ^ 13 + pos * 256 + 32 * j, vals := (vals.drop (32 * j)).take 32 } }

/-! ### One page of the pass (R178 to R180, R185) -/

/-- A block's elements without its exponent, and the exponent: 127 where there is none (R178); a zero block has zeros, a
non-finite one NaNs or zeros (R34). -/
def bareBlk (f : BlkFmt) (word : Nat) (data : List Byte) (nfp : Bool) : Nat × List Num :=
  let e := word % 256
  if e = 0 ∨ e = 255 then (127, decodeBlk f word data nfp 0 none 32)
  else (e, decodeBlk f (word - e + 127) data nfp 0 none 32)

/-- 128 BF16 elements as four blocks. -/
def bareBf16 (bs : List Byte) : List (Nat × List Num) :=
  let vs := (unpack 16 128 bs).map bf16
  (List.range 4).map fun k => (127, (vs.drop (32 * k)).take 32)

/-- The score of a query row and a key before masking. -/
def score (scale : Num) (q k : List (Nat × List Num)) : Num :=
  let s := (q.zip k).foldl
    (fun s p =>
      let dot := (p.1.2.zip p.2.2).foldl (fun a e => ffma e.1 e.2 a) (.zero false)
      fadd s (rnd32 (dot.scale ((p.1.1 : Int) + p.2.1 - 254)))) (.zero false)
  fmul scale s

/-- narrow() in FP8 mode and in BF16 mode (R179), and whether a nonzero probability became zero. -/
def narrowPr (fp8 : Bool) (pr : Num) : Num × Bool :=
  if fp8 then
    let c := (Elem.flt fmtE4M3).conv true .rne (pr.scale 8)
    ((fmtE4M3.decode c.code).scale (-8), !pr.isZero && c.zeroed)
  else
    let q := toBf16 pr
    (q, !pr.isZero && q.isZero)

/-- One slice of key positions for one row: positions not visible stay out of the products (log 25: DEDUCED). -/
def sliceRow (scale : Num) (fp8 : Bool) (q : List (Nat × List Num))
    (kv : List (List (Nat × List Num) × List (Nat × List Num))) (st : RowState) : RowState × Nat :=
  if kv.isEmpty then (st, 0)
  else
    let ss := kv.map fun p => score scale q p.1
    let mn := ss.foldl Num.max st.m
    let a := if mn = st.m then .ofNat 1 else fexp (fsub st.m mn)
    let prs := ss.map fun s => fexp (fsub s mn)
    let ns := prs.map (narrowPr fp8)
    let l := fadd (fmul a st.l) (prs.foldl fadd (.zero false))
    let o := (st.o.zipIdx).map fun (x, e) =>
      let t := ((kv.zip ns)).foldl
        (fun t p =>
          let b := (p.1.2.getD (e / 32) (127, []))
          fadd t (rnd32 ((p.2.1.mul (b.2.getD (e % 32) (.zero false))).scale ((b.1 : Int) - 127)))) (.zero false)
      fadd (fmul a x) t
    ({ m := mn, l := l, o := o }, (ns.filter (·.2)).length)

/-- Padded rows of an item (R175). -/
def paddedRows (r : Nat) : Nat := if r ≤ 16 then 16 else if r ≤ 32 then 32 else if r ≤ 64 then 64 else 128

/-- Key positions per handshake (Table 6.1). -/
def keysPer (rows : Nat) (fp8 : Bool) : Nat := (if fp8 then 256 else 128) / paddedRows rows

/-- A page through the engine for all rows: positions are 32 * b on. -/
def passPage (x : Desc) (i : AItem) (qs : List (List (Nat × List Num))) (b : Nat) (kv : PageKV) (fp8 : Bool)
    (st : List RowState) : List RowState × Nat :=
  let k := keysPer qs.length fp8
  let scale := f32 (x.f 44 4)
  (List.range (32 / k)).foldl
    (fun (acc : List RowState × Nat) s =>
      let rows := ((acc.1.zip qs).zipIdx).map fun p =>
        let q := i.pos0 + p.2 / x.hg
        let sl := ((List.range k).map (s * k + ·)).filter fun j => visible x i.n q (32 * b + j)
        sliceRow scale fp8 p.1.2 (sl.map fun j => (kv.key.getD j [], kv.val.getD j [])) p.1.1
      (rows.map (·.1), acc.2 + (rows.map (·.2)).sum)) (st, 0)

/-- Do the page's and the query's formats run in FP8 mode (R185)? -/
def fp8Mode (qfmt kfmt : Nat) : Bool := qfmt != 0x08 && kfmt != 0x08

/-! ### Reading pages -/

/-- Where a page lies that is 32 rows of a DENSE tensor. -/
def locDense : Nat := 0x10000

/-- What the entries of a walk say: its pages, a status, or the need to restart. -/
inductive Walk where
  | pages (ps : List PageAt)
  | ends (status : Nat)
  | stale
  deriving DecidableEq, Repr

/-- vis of R193. -/
def genVisible (g x : Nat) : Bool := (g + 65536 - x) % 65536 < 32768

/-- The entries of a walk under a snapshot (R193, R197). (log 46: DEDUCED) -/
def Core.walkEntries (c : Core) (list l g : Nat) : List Nat → List PageAt → Walk
  | [], acc => .pages acc.reverse
  | b :: bs, acc =>
    let e := c.pent list l b
    let pick : Option (Nat × Nat) :=
      if genVisible g e.genNew then some (e.pageNew, e.locNew)
      else if genVisible g e.genOld then some (e.pageOld, e.locOld) else none
    match pick with
    | none => .stale
    | some (page, loc) =>
      if page = noPage then .ends 8
      else if loc = locParked then .ends 3
      else if loc ≠ locLocal ∧ 256 ≤ loc then .ends 5
      else c.walkEntries list l g bs ({ b := b, page := page, loc := loc } :: acc)

/-- How an item's reading of its list ends: its pages found, a status, or an access that rejects its descriptor. -/
inductive WalkEnd where
  | found (i : ItemRun)
  | ends (status : Nat)
  | access (e : Nat × Nat)
  deriving DecidableEq, Repr

/-- Read the entries of the pages an item needs, a run of one layer's entries, with restarts up to the limit, each on
the list header read again (R191, R193). (log 46: DEDUCED) -/
def Core.walk (x : Desc) (bs : List Nat) : Nat → Core → ItemRun → WalkEnd × Core
  | n, c, i =>
    let list := i.item.list
    let l := x.f 40 2
    match c.lfetch (c.entAddr list l (bs.headD 0)) (16 * bs.length) with
    | (c, some e) => (.access e, c)
    | (c, none) =>
      match c.walkEntries list l i.gen bs [], n with
      | .pages ps, _ => (.found { i with pages := ps, walked := true }, c)
      | .ends st, _ => (.ends st, c)
      | .stale, 0 => (.ends 6, c)
      | .stale, n + 1 =>
        match (c.bump 0x6880 8 1).lfetch list 64 with
        | (c, some e) => (.access e, c)
        | (c, none) => Core.walk x bs n c { i with gen := c.listGen list, restarts := i.restarts + 1 }

/-- Parts of a remote page: (part, address, bytes). A BF16 page has no scale lines. (log 44: DEDUCED) -/
def Core.pageParts (c : Core) (x : Desc) (head page : Nat) (fmt : Nat) : List (Nat × Nat × Nat) :=
  let slot := c.slotAddr x.aPool page
  [(0, slot, 64)] ++ (if fmt = 0x08 then [] else [(1, slot + 64 + 576 * head, 576)]) ++
    [(2, c.pageAddr x.aPool page + head * headBytes fmt, headBytes fmt)]

/-- A local page's parts, keyed as a remote page's. -/
def Core.localPage (c : Core) (x : Desc) (head b page : Nat) : KMap (List Byte) :=
  let fmt := c.num (c.slotAddr x.aPool page + 4) 1
  (c.pageParts x head page fmt).map fun p => (4 * b + p.1, c.bytes p.2.1 p.2.2)

/-- A page's keys and values from its parts, joined (R160, R184): the first failing stamp, or the page. Lines are
checked that carry a position below n (log 25: DEDUCED). -/
def pageKV (got : KMap (List Byte)) (b head n : Nat) (nfp : Bool) : Except (Nat × Nat × Nat × Nat) (PageKV × Seen) :=
  let hdr := KMap.getD got (4 * b) []
  let lines := KMap.getD got (4 * b + 1) []
  let data := KMap.getD got (4 * b + 2) []
  let fmt := numAt hdr 4 1
  let live := min 32 (n - 32 * b)
  match blkOfCode fmt with
  | none =>
    let row (o : Nat) : List (Nat × List Num) := bareBf16 (bytesAt data o 256)
    let ks := (List.range 32).map fun p => row (256 * p)
    let vs := (List.range 32).map fun p => row (8192 + 256 * p)
    let bad := ((ks.take live ++ vs.take live).map fun r => (r.map fun q => (q.2.filter Num.nonFinite).length).sum).sum
    .ok ({ fmt := fmt, key := ks, val := vs }, { nonfin := bad })
  | some f =>
    let need := ceilDiv (8 * live) 30
    let badLine := (List.range need).find? fun j =>
      numAt lines (64 * j) 4 != (256 * head + 30 * j) % 2 ^ 24 + 5 * 2 ^ 24
    match badLine with
    | some j =>
      let s := numAt lines (64 * j) 4
      .error ((256 * head + 30 * j) % 2 ^ 24, s % 2 ^ 24, s / 2 ^ 24, 30 * j)
    | none =>
      let word (w : Nat) : Nat := numAt lines (64 * (w / 30) + 4 + 2 * (w % 30)) 2
      let blk (p k : Nat) : Nat × List Num :=
        let o := (if k < 4 then 0 else 32 * rowBytes fmt) + p * rowBytes fmt + k % 4 * f.bytes
        bareBlk f (word (8 * p + k)) (bytesAt data o f.bytes) nfp
      let ws := (List.range live).flatMap fun p => (List.range 8).map fun k => (word (8 * p + k), blk p k)
      let seen := ws.foldl
        (fun (s : Seen) q =>
          let nf : Bool := q.1 % 256 == 255
          s.add { nonfin := if nf then 32 else (q.2.2.filter Num.nonFinite).length
                  nfZero := if nf && !nfp then 1 else 0, rsvd := if q.1 / 256 ≠ 0 then 1 else 0 }) {}
      .ok ({ fmt := fmt, key := (List.range 32).map fun p => (List.range 4).map (blk p)
             val := (List.range 32).map fun p => (List.range 4).map fun k => blk p (4 + k) }, seen)

/-- Bytes an item's local fetch reads, as checked ranges. (log 25: DEDUCED) -/
def Core.pageRanges (c : Core) (x : Desc) (head page : Nat) : List (Nat × Nat × Nat) :=
  (c.pageParts x head page (c.num (c.slotAddr x.aPool page + 4) 1)).map fun p => (0xFFFF, p.2.1, p.2.2)

/-! ### The query and the results -/

/-- The query rows as bare blocks, with what reading met. -/
def Core.queryRows (c : Core) (x : Desc) (i : AItem) (hdr : List Byte) : Except (Nat × Nat × Nat × Nat)
    (List (List (Nat × List Num)) × Seen) :=
  let rows := x.hg * i.c
  if x.f 30 1 = 0x08 then
    let qs := (List.range rows).map fun r => bareBf16 (c.lread (i.q + 256 * r) 256)
    .ok (qs, { nonfin := (qs.map fun r => (r.map fun q => (q.2.filter Num.nonFinite).length).sum).sum })
  else
    let o : Opnd := { addr := i.q, scale := i.qs, fmt := 0x82, rows := rows, cols := 128 }
    let reads := (List.range (4 * rows)).map fun b => (b, c.readBlk o hdr x.nfp b 32)
    let seen := reads.foldl (fun (s : Seen) r => s.add r.2.seen) {}
    match seen.skew with
    | some e => .error e
    | none =>
      let blk (b : Nat) : Nat × List Num :=
        let w := ((reads.getD b (0, { word := 0, vals := [], seen := {} })).2).word
        bareBlk .b8m w (c.lread (i.q + 32 * b) 32) x.nfp
      .ok ((List.range rows).map fun r => (List.range 4).map fun k => blk (4 * r + k), seen)

/-- Write an item's outputs and statistics (R178, R180): each stored as FP32 or in its format, examined and saturated as
any stored element (R33, R34). -/
def Core.itemResult (c : Core) (i : ItemRun) (x : Desc) (st : List RowState) : Core :=
  let src := srcOf 0x03 i.engine
  let empty := (st.filter fun r => r.l.isZero).length
  let c := c.bump 0x6880 0xF empty
  let c := if empty = 0 then c else c.itemEvent i 0x6016
  let outs := st.flatMap fun r => if r.l.isZero then r.o.map fun _ => .zero false else r.o.map fun v => fdiv v r.l
  let t : Elem := if x.f 31 1 = 0x08 then .flt fmtBF16 else .flt fmtFP32
  let w := t.width / 8
  let wantStats := bitAt (x.f 33 1) 3 && i.item.stats != 0
  let ml := if wantStats then st.flatMap fun r => if r.l.isZero then [] else [r.m, flnv r.l] else []
  let single (v : Num) : Conv := (Elem.flt fmtFP32).conv x.nfp .rne v
  let stats := st.flatMap fun r =>
    if r.l.isZero then toLE 4 (f32Code (.inf true)) ++ toLE 4 (f32Code (.inf true))
    else toLE 4 (single r.m).code ++ toLE 4 (single (flnv r.l)).code
  if !c.live i.d then c
  else
    match c.lbad i.item.out (outs.length * w) with
    | some e => c.rejectAccess i.d src 0xFFFF e
    | none =>
      match (if wantStats then c.lbad i.item.stats stats.length else none) with
      | some e => c.rejectAccess i.d src 0xFFFF e
      | none =>
        let cs := outs.map fun v => t.conv x.nfp .rne v
        let c := (c.countConv (elemTally outs cs)).countConv (elemTally ml (ml.map single))
        let c := c.countSeen i.d src { nonfin := ((outs ++ ml).filter Num.nonFinite).length }
        if !c.live i.d then c
        else
          let c := c.outPut i.d i.item.out (cs.flatMap fun q => toLE w q.code)
          let c := if wantStats then c.outPut i.d i.item.stats stats else c
          c.endItem i 1

/-- Read the query into the engine's slot, with its header where it is B8m (R174); then go on. -/
def Core.withQuery (c : Core) (i : ItemRun) (x : Desc) (k : Core → Core) : Core :=
  let src := srcOf 0x03 i.engine
  let rows := x.hg * i.item.c
  let o : Opnd := { addr := i.item.q, scale := i.item.qs, fmt := x.f 30 1, rows := rows, cols := 128 }
  c.headersOk i.d src none [(0xFFFF, o, false, fun _ => none)] [] fun hs c =>
    match c.fetchAll (o.ranges 0xFFFF 0xFFFF (hs.getD 0 [])) with
    | (c, some (off, e)) => c.rejectAccess i.d src off e
    | (c, none) =>
      match c.queryRows x i.item (hs.getD 0 []) with
      | .error e => c.rejectSkew i.d src 0 e
      | .ok (qs, seen) =>
        let c := c.countSeen i.d src seen
        let g := c.eng i.engine
        if c.live i.d then k (c.setEng i.engine { g with q := KMap.set g.q i.walker qs }) else c

/-! ### The walk's pages -/

/-- The source field of an item's walker. -/
def ItemRun.src (i : ItemRun) : Nat := srcOf 0x07 (2 * i.engine + i.walker)

/-- Is the header of a page what the item expects (R197)? -/
def Core.headOk (c : Core) (x : Desc) (p : PageAt) (h : List Byte) : Bool :=
  slotOk h (x.f 40 2) p.b x.aPool (c.obj (0x6100 + x.aPool) 7)

/-- Does a page come from a member? -/
def PageAt.remote (p : PageAt) : Bool := p.loc < 256

/-- Is a remote page in: its header fails the check, or every part of it is there? -/
def Core.pageHas (c : Core) (i : ItemRun) (x : Desc) (p : PageAt) : Bool :=
  match KMap.get? i.got (4 * p.b) with
  | none => false
  | some h => !c.headOk x p h ||
      ((c.pageParts x i.item.head p.page (numAt h 4 1)).all fun q => (KMap.get? i.got (4 * p.b + q.1)).isSome)

/-- Has a part been asked for? -/
def ItemRun.asked (i : ItemRun) (key : Nat) : Bool := i.need.contains key || (KMap.get? i.got key).isSome

/-- Pages of a walk that are in flight: at most 64 (Table 6.5). -/
def ItemRun.inFlight (i : ItemRun) : Nat := (i.pages.filter fun p => i.asked (4 * p.b)).length

/-- Ask members for the parts of remote pages not asked for yet (R198): the header, then, where it passes the check, the
rest. A missing route ends the item; without a tag the walker waits, as it does with 64 pages in flight. `none`: the
item fails. (log 44: DEDUCED) -/
def Core.askParts (c : Core) (i : ItemRun) (x : Desc) : List PageAt → Option (ItemRun × Core)
  | [] => some (i, c)
  | p :: ps =>
    let parts := match KMap.get? i.got (4 * p.b) with
      | none => [(0, c.slotAddr x.aPool p.page, 64)]
      | some h => if c.headOk x p h then c.pageParts x i.item.head p.page (numAt h 4 1) else []
    let step := (parts.filter fun q => !i.asked (4 * p.b + q.1)).foldl
      (fun (acc : Option (ItemRun × Core)) q =>
        match acc with
        | none => none
        | some (i, c) =>
          if c.route p.loc = .none then none
          else if q.1 = 0 ∧ 64 ≤ i.inFlight then some (i, c)
          else
            match c.sendRd 2 p.loc q.2.1 q.2.2 (.page i.engine i.walker (4 * p.b + q.1)) with
            | some c => some ({ i with need := i.need ++ [4 * p.b + q.1] }, c)
            | none => none) (some (i, c))
    match step with
    | none => none
    | some (i, c) => c.askParts i x ps

/-- A page for the engine, joined, goes into a free slot; an uncorrectable error there discards it, and the walker
fetches it again (R205). -/
def Core.slotTake (c : Core) (i : ItemRun) (x : Desc) (p : PageAt) (kv : PageKV) (seen : Seen) : Core :=
  let src := srcOf 0x03 i.engine
  let c := c.countSeen i.d src seen
  if !c.live i.d then c
  else
    match c.injectIf 0x0A i.engine (if p.loc = locDense then 0 else c.pageAddr x.aPool p.page) (fun q => !bitAt q 0) with
    | (some _, c) =>
      let c := c.raise { code := 0x6020, source := src, d := some i.d, inj := true }
      if c.live i.d then c.setItem { i with got := i.got.filter fun q => q.1 / 4 != p.b } else c
    | (none, c) =>
      let g := c.eng i.engine
      (c.setEng i.engine { g with slots := g.slots ++ [{ walker := i.walker, b := p.b, kv := kv }] }).setItem
        { i with pages := i.pages.drop 1, got := i.got.filter fun q => q.1 / 4 != p.b }

/-- DENSE rows of one tensor for a page of positions: bare blocks by position (R201). (log 24: DEDUCED) -/
def Core.denseRows (c : Core) (o : Opnd) (h : List Byte) (nfp : Bool) (row0 head n : Nat) :
    List (List (Nat × List Num)) × Seen :=
  (List.range n).foldl
    (fun (acc : List (List (Nat × List Num)) × Seen) p =>
      let row := row0 + p
      if o.fmt = 0x08 then
        let r := bareBf16 (c.lread (o.addr + (row * o.cols + 128 * head) * 2) 256)
        (acc.1 ++ [r], acc.2.add { nonfin := (r.map fun q => (q.2.filter Num.nonFinite).length).sum })
      else
        match blkOfCode o.fmt with
        | none => acc
        | some f =>
          let bs := (List.range 4).map fun k =>
            let b := row * o.bpr + 4 * head + k
            let r := c.readBlk o h nfp b 32
            (bareBlk f r.word (c.lread (o.addr + b * f.bytes) f.bytes) nfp, r.seen)
          (acc.1 ++ [bs.map (·.1)], bs.foldl (fun (s : Seen) q => s.add q.2) acc.2)) ([], {})

/-- The bytes a DENSE item reads of a tensor: rows [row0, row0 + n) of a head. -/
def denseRanges (off soff : Nat) (o : Opnd) (row0 head n : Nat) : List (Nat × Nat × Nat) :=
  (List.range n).flatMap fun p =>
    let row := row0 + p
    if o.fmt = 0x08 then [(off, o.addr + (row * o.cols + 128 * head) * 2, 256)]
    else
      let b := row * o.bpr + 4 * head
      let w := 4 * fmtBits o.fmt
      [(off, o.addr + b * w, 4 * w), (soff, o.scale + 64 + 64 * (b / 30), 64 * ((b + 3) / 30 + 1 - b / 30))]

/-- A page of a DENSE item: 32 rows of the K and V tensors (R201). -/
def Core.deliverDense (c : Core) (i : ItemRun) (x : Desc) (r : AttnRun) (p : PageAt) : Core :=
  let src := srcOf 0x03 i.engine
  let it := i.item
  let live := min 32 (it.n - 32 * p.b)
  let row0 := it.list + 32 * p.b
  match c.fetchAll (denseRanges 96 104 r.k row0 it.head live ++ denseRanges 112 120 r.v row0 it.head live) with
  | (c, some (off, e)) => c.rejectAccess i.d src off e
  | (c, none) =>
    let ks := c.denseRows r.k r.kHdr x.nfp row0 it.head live
    let vs := c.denseRows r.v r.vHdr x.nfp row0 it.head live
    let kv : PageKV :=
      { fmt := if r.k.fmt = 0x08 ∨ r.v.fmt = 0x08 then 0x08 else max r.k.fmt r.v.fmt, key := ks.1, val := vs.1 }
    let seen := ks.2.add vs.2
    match seen.skew with
    | some e => c.rejectSkew i.d src 1 e
    | none => c.slotTake i x p kv seen

/-- The next page of an item is fetched, checked, joined and delivered (Table 6.5, R197). -/
def Core.deliverPage (c : Core) (i : ItemRun) (x : Desc) (r : AttnRun) (p : PageAt) : Core :=
  if p.loc = locDense then c.deliverDense i x r p
  else
    let join (c : Core) (got : KMap (List Byte)) : Core :=
      let c := c.bump 0x6880 (if p.remote then 4 else 3) 1
      if !c.headOk x p (KMap.getD got (4 * p.b) []) then c.endItem i 5
      else
        match pageKV got p.b i.item.head i.item.n x.nfp with
        | .error e => c.rejectSkew i.d i.src 0 e
        | .ok (kv, seen) => c.slotTake i x p kv seen
    if p.remote then join c i.got
    else
      match c.fetchAll (c.pageRanges x i.item.head p.page) with
      | (c, some (off, e)) => c.rejectAccess i.d i.src off e
      | (c, none) => join c (c.localPage x i.item.head p.b p.page)

/-! ### The engine (R174, R178) -/

/-- The item of an engine and walker. -/
def Core.itemOf (c : Core) (engine walker : Nat) : Option ItemRun :=
  c.attn.items.find? fun i => i.engine == engine && i.walker == walker

/-- The running item takes its oldest page slot. -/
def Core.passSlot (c : Core) (i : ItemRun) (x : Desc) (g : AEng) (sl : PageSlot) : Core :=
  let qs := KMap.getD g.q i.walker []
  let qf := x.f 30 1
  let fp8 := fp8Mode qf sl.kv.fmt
  let st := passPage x i.item qs sl.b sl.kv fp8 g.rows
  let wide : Bool := if fp8 then sl.kv.fmt == 0x81 else sl.kv.fmt != 0x08
  let qwide : Bool := qf != 0x08 && sl.kv.fmt == 0x08
  let c := c.setEng i.engine { g with rows := st.1, slots := g.slots.erase sl }
  (((c.bump 0x6880 2 (32 / keysPer qs.length fp8)).bump 0x6880 6 (if wide then 1 else 0)).bump 0x6880 7
    (if qwide then 1 else 0)).bump 0x6880 0xE st.2

/-- The running item has no page left: 8 handshakes more, and its result (R175), unless its query buffer or its running
state was lost (R205). -/
def Core.itemFinish (c : Core) (i : ItemRun) (x : Desc) (rows : List RowState) : Core :=
  match c.injectIf 0x0A i.engine 0 (fun q => bitAt q 0) with
  | (some _, c) => c.raise { code := 0x6021, own := 1, source := srcOf 0x03 i.engine, d := some i.d, inj := true }
  | (none, c) => (c.bump 0x6880 2 8).itemResult i x rows

/-- May a walker put its next page into a slot: the page is at hand, and a slot is free that the running item does not
need (log 142: DEDUCED)? -/
def Core.canDeliver (c : Core) (g : AEng) (i : ItemRun) : Bool :=
  i.walked && g.slots.length < (if g.run.isNone || g.run == some i.walker then 8 else 7) &&
    match i.pages, c.desc? i.d with
    | p :: _, some x => !p.remote || c.pageHas i x p
    | _, _ => false

/-- One thing an engine and its walkers can do as things stand: deliver a page, begin an item, take a page, finish the
item. (log 142: DEDUCED) -/
def Core.engineStep (c : Core) (e : Nat) : Option Core :=
  let g := c.eng e
  let mine := c.attn.items.filter fun i => i.engine == e && i.walked
  match mine.find? fun i => c.canDeliver g i with
  | some i =>
    match i.pages, c.desc? i.d, c.attn.runs.find? (fun r => r.d == i.d) with
    | p :: _, some x, some r => some (c.deliverPage i x r p)
    | _, _, _ => none
  | none =>
    match g.run with
    | none =>
      match mine with
      | [] => none
      | i :: _ =>
        let init : RowState := { m := .inf true, l := .zero false, o := List.replicate 128 (.zero false) }
        some (c.setEng e { g with run := some i.walker, rows := (KMap.getD g.q i.walker []).map fun _ => init })
    | some w =>
      match c.itemOf e w with
      | none => none
      | some i =>
        match c.desc? i.d, g.slots.find? (fun sl => sl.walker == w) with
        | some x, some sl => some (c.passSlot i x g sl)
        | some x, none => if i.walked && i.pages.isEmpty then some (c.itemFinish i x g.rows) else none
        | none, _ => none

/-- An engine goes on as far as it can. (log 42: DEDUCED) -/
def Core.engineGo : Nat → Core → Nat → Core
  | 0, c, _ => c
  | n + 1, c, e =>
    match c.engineStep e with
    | some c => Core.engineGo n c e
    | none => c

/-- The steps an engine's items can take: each page is delivered and taken, each item begins and ends, and each
injection slot makes one page come again. -/
def Core.engineWork (c : Core) (e : Nat) : Nat :=
  ((c.attn.items.filter fun i => i.engine == e).map fun i => 2 * i.pages.length + 4).sum + (c.eng e).slots.length + 16

/-- An engine goes on with what it has: also when an item that ran on it has ended. -/
def Core.engineOn (c : Core) (e : Nat) : Core := Core.engineGo (c.engineWork e) c e

/-- A walked item's remote pages are asked for, and its engine goes on. -/
def Core.itemGo (c : Core) (i : ItemRun) (x : Desc) : Core :=
  match c.askParts i x (i.pages.filter PageAt.remote) with
  | none => (c.endItem i 4).engineOn i.engine
  | some (i, c) => (c.setItem i).engineOn i.engine

/-- An item whose pages are known reads its query and goes on. -/
def Core.itemFound (c : Core) (i : ItemRun) (x : Desc) : Core := c.withQuery i x fun c => c.itemGo i x

/-- An item's walk (R193, R196): it starts now, on the snapshot last read. (log 43: DEDUCED) -/
def Core.itemWalk (c : Core) (i : ItemRun) (x : Desc) : Core :=
  let bs := pagesOf x i.item
  let i := { i with walkAt := some c.now, pageWait := none, writing := false }
  match Core.walk x bs (c.obj 0x6004 0) (c.bump 0x6880 5 (ceilDiv i.item.n 32 - bs.length)) i with
  | (.access e, c) => c.rejectAccess i.d i.src 0xFFFF e
  | (.ends st, c) => c.endItem i st
  | (.found i, c) => c.itemFound i x

/-! ### Items start (R203) -/

/-- Does an item fail its range before its walk (status 0x08)? -/
def Core.itemRange (c : Core) (x : Desc) (i : AItem) : Bool :=
  i.c == 0 || 128 < x.hg * i.c || 2 ^ 20 < i.n || (i.new_ != 0 && i.n < i.pos0 + i.c) ||
  (!x.dense && (c.listCap i.list * 32 < i.n || c.listLayers i.list ≤ x.f 40 2))

/-- The item's new rows (R186, R188): their pages, then their spans, which wait for converters; the walk follows once
they are written. A page wait keeps the item where it stands (R190), with one eviction for each page sought (R221).
(log 45: DEDUCED) -/
def Core.itemRows (c : Core) (i : ItemRun) (x : Desc) (r : AttnRun) : Core :=
  let it := i.item
  let b0 := it.pos0 / 32
  let (pages, c') := c.allocAll it.list (x.f 40 2) x.aPool (x.f 32 1) i.gen b0 ((it.pos0 + it.c - 1) / 32 + 1 - b0) []
  match pages, c'.owe c (.desc i.d) with
  | .error (_, .fails st), c => c.endItem i st
  | .error (_, .access e), c => c.rejectAccess i.d (srcOf 0x16 0) 0xFFFF e
  | .error (b, _), c =>
    let c := if i.sought.isSome then c else c.bump 0x6880 0xB 1
    if i.sought = some b then c.setItem i
    else (c.pfxPressure x.aPool).setItem { i with pageWait := some c.now, sought := some b }
  | .ok pages, c =>
    c.fetched i.d (srcOf 0x03 i.engine) [(0xFFFF, it.new_, 512 * it.c)] fun c =>
      (c.addSpans (c.cacheSpans x r.lat i b0 pages)).setItem { i with pageWait := none, writing := true }

/-- An item starts: its list header, its range, then its new rows or its walk; a DENSE item has its pages at once. The
next item goes to the other walker (R196). (log 42: DEDUCED) (log 45: DEDUCED) -/
def Core.itemStart (c : Core) (i : ItemRun) (x : Desc) (r : AttnRun) : Core :=
  let src := srcOf 0x03 i.engine
  let c := c.setEng i.engine { c.eng i.engine with next := 1 - i.walker }
  if x.dense then
    let bs := pagesOf x i.item
    if c.itemRange x i.item then c.endItem i 8
    else (c.bump 0x6880 5 (ceilDiv i.item.n 32 - bs.length)).itemFound
      { i with walked := true, pages := bs.map fun b => { b := b, page := 0, loc := locDense } } x
  else if i.item.c = 0 ∨ 128 < x.hg * i.item.c then c.endItem i 8
  else
    c.fetched i.d src [(0xFFFF, i.item.list, 64)] fun c =>
      let i := { i with gen := c.listGen i.item.list }
      if c.itemRange x i.item then c.endItem i 8
      else if i.item.new_ = 0 then c.itemWalk i x
      else c.itemRows i x r

/-- An item that waits goes on: to its walk, on the header as it stands, once its rows are written; else with its
pages. -/
def Core.itemResume (c : Core) (i : ItemRun) : Core :=
  match c.desc? i.d, c.attn.runs.find? (fun r => r.d == i.d) with
  | some x, some r =>
    if i.walked then c.itemGo i x
    else if i.writing then
      c.fetched i.d i.src [(0xFFFF, i.item.list, 64)] fun c => c.itemWalk { i with gen := c.listGen i.item.list } x
    else c.itemRows i x r
  | _, _ => c

/-- Are an item's new rows written and acknowledged (R186, R312)? -/
def Core.rowsWritten (c : Core) (i : ItemRun) : Bool :=
  !(c.fwd.spans.any fun s => s.d == i.d && s.item == some i.item.idx) &&
  !(c.mem.entryWaits.any fun w => w.part == 4 && c.entryWaiting w)

/-- Can a waiting item of an engine go on: a page is free, its rows are written, or a remote read is not yet asked
for? -/
def Core.canResume (c : Core) (i : ItemRun) : Bool :=
  match c.desc? i.d with
  | none => false
  | some x =>
    if i.walked then i.need.isEmpty && i.pages.any PageAt.remote
    else if i.writing then c.rowsWritten i
    else c.freePages x.aPool != 0 || (c.pool x.aPool).broken

/-- The walker of an engine that takes the next item: the other than took the last, else one that is free and available
(R196, R203; log 142: DEDUCED). -/
def Core.freeWalker (c : Core) (e : Nat) : Option Nat :=
  let w := (c.eng e).next % 2
  [w, 1 - w].find? fun w => bitAt (c.obj 0x6002 0) (2 * e + w) &&
    !(c.attn.items.any fun i => i.engine == e && i.walker == w)

/-- A part of a remote page arrives. -/
def Core.pageArrived (c : Core) (engine walker key : Nat) (bs : List Byte) : Core :=
  match c.itemOf engine walker with
  | none => c
  | some i =>
    let i := { i with need := i.need.filter (· != key), got := KMap.set i.got key bs }
    (c.setItem i).itemResume i

/-- A remote read is refused (R198). -/
def Core.pageRefused (c : Core) (engine walker : Nat) : Core :=
  match c.itemOf engine walker with
  | none => c
  | some i => (c.endItem i 4).engineOn engine

/-! ### Type 0x40 (R201, R202) -/

/-- The engines of a descriptor that are available. -/
def Core.engines (c : Core) (x : Desc) : List Nat :=
  (List.range 16).filter fun e => bitAt (x.f 42 2) e && bitAt (c.obj 0x6001 0) e

def attnSrc (x : Desc) : Nat := srcOf 0x03 (((List.range 16).find? fun e => bitAt (x.f 42 2) e).getD 0)

def Core.attnDoms (c : Core) (x : Desc) : List Nat :=
  (if (c.engines x).any (· < 8) then [1] else []) ++ (if (c.engines x).any (8 ≤ ·) then [3] else [])

/-- A pool's largest element fits the cache format (R202). (log 118: DEDUCED) -/
def Core.poolFits (c : Core) (n fmt : Nat) : Bool := fmtBits fmt ≤ fmtBits (c.obj (0x6100 + n) 8)

/-- The checks of R202 in order. (log 118: DEDUCED) -/
def Core.attnChecks (c : Core) (x : Desc) : List (Bool × Nat × Nat × Nat) :=
  let fl := x.f 33 1
  let dense := x.dense
  let zero (o n : Nat) : Bool := (bytesAt x.bytes o n).all (· == 0)
  let w := x.f 48 4
  let scale := f32 (x.f 44 4)
  let df := x.f 29 1
  let cf := x.f 32 1
  fmtChecks ((if df = 0 then [] else [(29, df)]) ++ [(30, x.f 30 1), (31, x.f 31 1)] ++
    (if cf = 0 ∧ dense then [] else [(32, cf)])) ++
  rndChecks [(33, fld fl 5 4)] ++
  [(zero 24 5, 0x6001, 24, x.f 24 4), (fl / 64 == 0, 0x6001, 33, fl), (x.f 34 1 / 16 == 0, 0x6001, 34, x.f 34 1),
   (x.aKind == 1 || x.aKind == 2, 0x6001, 34, x.f 34 1),
   (x.f 35 1 / 32 == 0 && 1 ≤ x.hg && x.hg ≤ 16, 0x6001, 35, x.f 35 1),
   (1 ≤ x.f 36 4 && x.f 36 4 ≤ 65536, 0x6001, 36, x.f 36 4),
   (Num.lt (.zero false) scale && !scale.nonFinite, 0x6001, 44, x.f 44 4),
   ((if x.windowed then 1 ≤ w && w ≤ 2 ^ 20 else w == 0), 0x6001, 48, w),
   (zero 52 44, 0x6001, 52, x.f 52 4),
   ((if dense then x.f 96 8 != 0 && x.f 112 8 != 0 else zero 96 32), 0x6001, 96, x.f 96 4),
   (!dense || ((x.f 104 8 != 0) == (df != 0x08) && (x.f 120 8 != 0) == (df != 0x08)), 0x6001, 104, x.f 104 4),
   (x.f 16 8 % 64 == 0, 0x6001, 16, x.f 16 4),
   (x.f 30 1 == 0x08 || x.f 30 1 == 0x82, 0x6002, 30, x.f 30 1),
   (x.f 31 1 == 0x08 || x.f 31 1 == 0x0A, 0x6002, 31, x.f 31 1),
   ((if dense then cf == 0 else [0x81, 0x82, 0x83, 0x08].contains cf), 0x6002, 32, cf),
   ((if dense then df == 0 || df == 0x08 else df == 0), 0x6002, 29, df),
   (dense || (c.poolOn x.aPool && c.poolFits x.aPool cf), 0x6003, 34, x.f 34 1),
   (!(c.engines x).isEmpty, 0x6004, 42, x.f 42 2)]

/-- A DENSE tensor: its format from its header, or BF16 with no scale address. The row length of a BF16 tensor stands
nowhere in the manual: it is that of the other tensor, else a free value (log 24: DEDUCED). -/
def Core.denseOpnd (c : Core) (d src off addr scale : Nat) (k : Opnd → List Byte → Core → Core) : Core :=
  if scale = 0 then k { addr := addr, scale := 0, fmt := 0x08, rows := 0, cols := 0 } [] c
  else
    match c.lfetch scale 64 with
    | (c, some e) => c.rejectAccess d src off e
    | (c, none) =>
      let h := c.lread scale 64
      let f := numAt h 4 1
      if headerBad h then c.reject d 0x3003 src off (numAt h 0 4)
      else if !([0x81, 0x82, 0x83].contains f) then c.reject d 0x6002 src off f
      else k { addr := addr, scale := scale, fmt := f, rows := numAt h 20 4, cols := 32 * numAt h 16 4 } h c

/-- The run begins. -/
def Core.attnBegin (c : Core) (d src : Nat) (x : Desc) (base : Nat) (k v : Opnd) (kh vh : List Byte) : Core :=
  let n := x.f 36 4
  let raw := (List.range n).map fun j => bytesAt (c.lread (base + 64 * j) 64) 0 64
  let off : List Nat := [0, 8, 16, 24, 32, 40]
  let addrs (b : List Byte) : Except (Nat × Nat) (List Nat) :=
    c.resolveAll (x.aKind == 2) (off.map fun o => (0xFFFF, if x.dense && o == 0 then 0 else numAt b o 8))
  let items := (raw.zipIdx).map fun (b, j) => (b, j, addrs b)
  match items.findSome? fun q => match q.2.2 with
      | .error e => some e
      | .ok _ => none with
  | some e => c.reject d 0x7004 src e.1 (e.2 % 2 ^ 32)
  | none =>
    let its : List AItem := items.map fun q =>
      { idx := q.2.1, bytes := q.1
        addrs := match q.2.2 with
          | .ok as => if x.dense then numAt q.1 0 8 :: as.drop 1 else as
          | .error _ => [] }
    let cf := x.f 32 1
    let layer := x.f 40 2
    let (lat, c) := if !x.dense && (blkOfCode cf).isSome then c.latch layer x.aKind 5 cf
      else (c.noLatch layer x.aKind 5 0, c)
    let (heads, c) := if x.dense && k.cols == 0 && v.cols == 0 then c.draw 16 else (0, c)
    let width := if k.cols ≠ 0 then k.cols else if v.cols ≠ 0 then v.cols else 128 * (heads + 1)
    let fix (o : Opnd) : Opnd := if o.cols = 0 then { o with cols := width } else o
    let run : AttnRun :=
      { d := d, base := base, waiting := its, left := n, lat := lat, k := fix k, v := fix v, kHdr := kh, vHdr := vh }
    { c with attn := { c.attn with runs := c.attn.runs ++ [run] } }

/-- Type 0x40. -/
def execAttention (d : Nat) : State → Res :=
  lift fun dev c =>
    c.issue dev d [0x40] c.attnDoms fun x c =>
      let src := attnSrc x
      c.checked d src (c.attnChecks x) fun c =>
        c.rcGate d src x (x.aKind == 2) fun c =>
          c.resolved d src (x.aKind == 2) [(16, x.f 16 8), (96, x.f 96 8), (104, x.f 104 8), (112, x.f 112 8),
              (120, x.f 120 8)] fun as c =>
            c.fetched d src [(16, as.getD 0 0, 64 * x.f 36 4)] fun c =>
              if x.dense then
                c.denseOpnd d src 104 (as.getD 1 0) (as.getD 2 0) fun k kh c =>
                  c.denseOpnd d src 120 (as.getD 3 0) (as.getD 4 0) fun v vh c =>
                    c.attnBegin d src x (as.getD 0 0) k v kh vh
              else
                let none_ : Opnd := { addr := 0, scale := 0, fmt := 0, rows := 0, cols := 0 }
                c.attnBegin d src x (as.getD 0 0) none_ none_ [] []

/-! ### Pools from outside (R189) -/

/-- A write to 0x6100+n:0B. (log 7: DEDUCED) -/
def poolFreePage (src : Src) (n page : Nat) (dev : Dev) (c : Core) : Core :=
  let o := 0x6100 + n
  if 4 ≤ n then c.answer src o 0xB stNoObject
  else if !c.reach dev src o 0xB true then c.answer src o 0xB stDenied
  else if 65536 ≤ c.attn.quarantine.length then (c.bump 0x6880 0x13 1).answer src o 0xB stBusy
  else (c.freePage n page).answer src o 0xB stOk

def execPoolFreePage (src : Src) (pool page : Nat) : State → Res := lift (poolFreePage src pool page)

/-- Pages whose older walks have retired return to their rings. -/
def execQuarantineRelease : State → Res := lift fun _ c => c.releasePages

end Sys2Proof.Machine
end

