-- ==== Sys2Proof/Machine/Contexts.lean ====
section
/-! DEFINITION. Rollout contexts (chapter 7): records, lifecycle, prefix sharing, parking, decode-step opens, the
readers and hold of a bank. -/

namespace Sys2Proof.Machine

/-! ### Records (R208) -/

/-- The record of a context; FREE records are not kept. -/
def Core.ctx (c : Core) (n : Nat) : Ctx := KMap.getD c.roll.ctxs n {}

/-- A record as its 256 bytes (Table 7.1). -/
def Ctx.bytes (x : Ctx) : List Byte :=
  let stop (i : Nat) : List Byte := toLE 4 (x.stops.getD i 0)
  toLE 1 x.state ++ toLE 1 x.endReason ++
  toLE 1 ((if x.pin then 1 else 0) + (if x.forced then 2 else 0) + (if x.changed then 4 else 0)) ++
  toLE 1 x.cMax ++ toLE 1 x.pool ++ toLE 1 x.fmt ++ toLE 1 x.stopCount ++ toLE 1 0 ++ toLE 8 x.list ++
  toLE 8 x.prompt ++ toLE 4 x.promptLen ++ toLE 4 x.pos ++ toLE 4 x.limit ++ toLE 4 x.last ++ toLE 4 x.inUse ++
  toLE 4 x.startVer ++ toLE 4 x.node ++ toLE 4 x.shared ++ toLE 4 x.temp ++ toLE 4 x.topP ++ toLE 4 x.minP ++
  toLE 2 x.topK ++ toLE 2 0 ++ ((List.range 8).flatMap stop) ++ toLE 8 x.seed ++ toLE 8 x.ledBase ++
  toLE 4 x.ledCap ++ toLE 4 x.ledCount ++ toLE 8 x.parkBase ++ toLE 4 x.parked ++ toLE 4 x.steps ++
  toLE 4 x.proposed ++ toLE 4 x.accepted ++ toLE 8 x.openTime ++ bytesAt x.tag 0 32 ++ List.replicate 64 0

/-- The fields of an image that are yours (R208). -/
def Ctx.ofImage (b : List Byte) : Ctx :=
  let f (o n : Nat) : Nat := numAt b o n
  { pin := bitAt (f 2 1) 0, cMax := f 3 1, pool := f 4 1, fmt := f 5 1, stopCount := f 6 1, list := f 8 8
    prompt := f 16 8, promptLen := f 24 4, limit := f 32 4, temp := f 56 4, topP := f 60 4, minP := f 64 4
    topK := f 68 2, stops := (List.range 8).map fun i => f (72 + 4 * i) 4, seed := f 104 8, ledBase := f 112 8
    ledCap := f 120 4, parkBase := f 128 8, tag := bytesAt b 160 32 }

/-- Write a record in one write (R214). An injected error of detector 0x0B shows at the write: one bit is corrected, two
make the record BROKEN (R234). -/
def Core.setCtx (c : Core) (n : Nat) (x : Ctx) : Core :=
  let put (c : Core) (x : Ctx) : Core :=
    { c with roll := { c.roll with
        ctxs := if x.state = 0 then KMap.erase c.roll.ctxs n else KMap.set c.roll.ctxs n x } }
  match c.inject 0x0B n 0 with
  | (none, c) => put c x
  | (some p, c) =>
    if singleBit p then (put c x).bump 0x6890 0x13 1
    else (put c { x with state := 6 }).raise { code := 0x6040, source := srcOf 0x15 0, inj := true }

/-- Write a TARGET result (R231). -/
def Core.sampleResult (c : Core) (a last pos n acc st : Nat) : Core :=
  c.lput a (toLE 4 last ++ toLE 4 pos ++ toLE 1 n ++ toLE 1 acc ++ toLE 1 st ++ toLE 5 0)

/-- The ledger entries of a sampled context are acknowledged: its record in one write, then its result (R214). A context
that stopped STEPPING meanwhile keeps its record. (log 163: DESIGN CHOICE) -/
def Core.finishSample (c : Core) (e : SampleEnd) : Core :=
  let x := c.ctx e.ctx
  let y := e.next
  let c' := if x.state ≠ 2 then c
    else c.setCtx e.ctx { x with
      state := y.state, endReason := y.endReason, changed := y.changed, pos := y.pos, last := y.last
      ledCount := y.ledCount, steps := y.steps, proposed := y.proposed, accepted := y.accepted }
  let st := if x.state ≠ 2 ∨ (c'.ctx e.ctx).state = 6 then 0x10 else if y.endReason = 0 then 1 else 2
  if c'.live e.d == c.live e.d then (c'.sampleResult e.res y.last y.pos e.emitted e.accepted st).owe c (.desc e.d) else c'

/-- Samples whose ledger entries have been acknowledged go on (R214). -/
def Core.finishSamples (c : Core) : Core :=
  let ready (e : SampleEnd) : Bool := c.acknowledged (.desc e.d)
  (c.roll.ends.filter ready).foldl Core.finishSample
    { c with roll := { c.roll with ends := c.roll.ends.filter fun e => !ready e } }

/-- The address of a context record in the tile store (Table 10.8). -/
def ctxAddr (n : Nat) : Nat := tsBase + 0x05000000 + 256 * n

/-- A record is read: a poisoned word of it makes it BROKEN, a FREE one too (R234, R333). (log 143: DEDUCED) -/
def Core.ctxRead (c : Core) (n : Nat) : Core :=
  if c.poisoned (ctxAddr n) 256 then
    ({ c with roll := { c.roll with ctxs := KMap.set c.roll.ctxs n { c.ctx n with state := 6 } } }.clearPoison
      (ctxAddr n) 256).raise { code := 0x6040, source := srcOf 0x15 0 }
  else c

/-- Is a context in the middle of a PARK or RESUME? -/
def Core.ctxHeld (c : Core) (n : Nat) : Bool :=
  c.roll.parks.any (fun p => p.2 == n) || c.roll.resumes.any (fun r => r.ctx == n && c.live r.d)

/-- Must a descriptor that passes issue now wait for one that passed it earlier and has not yet acted on the record: a
PARK or RESUME under way, or an op that waits for the step to close (R211)? -/
def Core.ctxBusy (c : Core) (n : Nat) : Bool := c.ctxHeld n || c.roll.waits.any (fun w => w.ctx == n)

/-! ### Banks' readers and the hold (R215, R216) -/

def Core.bank (c : Core) (b : Nat) : Bank := KMap.getD c.stp.banks b {}

def Core.setBank (c : Core) (b : Nat) (x : Bank) : Core :=
  { c with stp := { c.stp with banks := KMap.set c.stp.banks b x } }

/-- The NEWEST bank. -/
def Core.newest (c : Core) : Option Nat := [0, 1].find? fun b => (c.bank b).state == 1

/-- How often a context counts as a reader of a bank: once in each of the two groups it is in (R215). -/
def Core.reads (c : Core) (b : Nat) (x : Ctx) : Nat :=
  (if x.state == 2 && x.bank == b then 1 else 0) +
  (if x.pin && (1 ≤ x.state && x.state ≤ 4) && (c.bank b).holds && x.startVer == (c.bank b).version then 1 else 0)

/-- The reader count of a bank. -/
def Core.readers (c : Core) (b : Nat) : Nat := (c.roll.ctxs.map fun p => c.reads b p.2).sum

/-- The bank's PIN contexts follow from now on (R216). -/
def Core.forceFollow (c : Core) (b : Nat) : Core :=
  let v := (c.bank b).version
  let hit (x : Ctx) : Bool := x.pin && x.startVer == v
  let n := (c.roll.ctxs.filter fun p => hit p.2).length
  let c := { c with
    roll := { c.roll with ctxs := c.roll.ctxs.map fun (p : Nat × Ctx) =>
      (p.1, if hit p.2 then { p.2 with pin := false, forced := true } else p.2) }
    stp := { c.stp with tail := c.stp.tail.map fun (s : StepSlot) => { s with forced := s.forced + n } } }
  (c.bump 0x6890 0xE n).raise { code := 0x6033, source := srcOf 0x15 0 }

/-- The hold limit passes (R216). -/
def execHoldLimitExpiry : State → Res :=
  lift fun _ c =>
    match c.roll.hold with
    | some (b, t, false) =>
      if c.readers b = 0 then c
      else ({ c with roll := { c.roll with hold := some (b, t, true) } }).forceFollow b
    | _ => c

/-- A bank request that finds readers starts the hold; a limit of 0 forces at once. -/
def Core.startHold (c : Core) (b : Nat) : Core :=
  if c.readers b = 0 then c
  else if c.obj 0x6230 0 = 0 then ({ c with roll := { c.roll with hold := some (b, c.now, true) } }).forceFollow b
  else { c with roll := { c.roll with hold := some (b, c.now, false) } }

/-! ### Context ops (R211, R231, R232) -/

def ctxSrc : Nat := srcOf 0x15 0

def Desc.ctxNo (x : Desc) : Nat := x.f 16 2
def Desc.op (x : Desc) : Nat := x.f 18 1

/-- The checks of R232 for type 0x61. -/
def ctxChecks (x : Desc) : List (Bool × Nat × Nat × Nat) :=
  let op := x.op
  [(x.f 19 1 == 0, 0x6030, 19, x.f 19 1),
   ((bytesAt x.bytes 40 24).all (· == 0), 0x6030, 40, x.f 40 4),
   (1 ≤ op && op ≤ 9, 0x6030, 18, op),
   (if op = 9 then x.ctxNo == 0 else decide (x.ctxNo < 16384), 0x6030, 16, x.ctxNo),
   (op == 7 || x.f 20 4 == 0, 0x6030, 20, x.f 20 4),
   (if op = 1 then x.f 24 8 % 64 == 0 else x.f 24 8 == 0, 0x6030, 24, x.f 24 4),
   (x.f 32 8 != 0 && x.f 32 8 % 16 == 0, 0x6030, 32, x.f 32 4)]

/-- An op ends: its result is written (R231); a refusal is logged (R232). (log 49: DEDUCED) -/
def Core.opEnds (c : Core) (d status value : Nat) : Core :=
  match c.desc? d with
  | none => c
  | some x =>
    let st := if x.op = 9 then 0 else (c.ctx x.ctxNo).state
    let a := x.f 32 8
    match c.lbad a 16 with
    | some e => c.rejectAccess d ctxSrc 32 e
    | none =>
      let c := c.lput a (toLE 1 status ++ toLE 1 st ++ toLE 2 0 ++ toLE 4 value ++ toLE 8 c.now)
      let c := if (0x20 ≤ status ∧ status ≤ 0x23) ∨ status = 0x26 then
          c.raise { code := 0x6038, source := ctxSrc, d := some d }
        else c
      c.workDone d

/-- An op that returns no value: the field's value stands nowhere in the manual, a free value (log 4: DESIGN CHOICE). -/
def Core.opDone (c : Core) (d status : Nat) : Core :=
  let (v, c) := c.draw (2 ^ 32)
  c.opEnds d status v

/-- May an op on a context pass issue: nothing that passed earlier is still to act, save that ABORT_STEP ends the step
that ops wait for, and FLUSH_PREFIX acts on no record (R211). -/
def Core.ctxTurn (c : Core) (op n : Nat) : Bool :=
  if op = 9 then true
  else if op = 8 ∧ (c.ctx n).state = 2 then !c.ctxHeld n else !c.ctxBusy n

/-- Issue an op; `ready` says whether it need not wait. The record is read as it passes. -/
def Core.ctxIssue (c : Core) (dev : Dev) (d op : Nat) (ready : Desc → Bool) (body : Desc → Core → Core) : Core :=
  match c.desc? d with
  | none => c
  | some x =>
    let mine := x.op == op || (op == 1 && !(1 ≤ x.op && x.op ≤ 9))
    if mine ∧ ready x ∧ c.ctxTurn x.op x.ctxNo then
      c.issue dev d [0x61] (fun _ => []) fun x c =>
        c.checked d ctxSrc (ctxChecks x) fun c => body x (if x.op = 9 then c else c.ctxRead x.ctxNo)
    else c

/-! ### OPEN (R209, R219) -/

/-- Are the image's own fields acceptable (status 0x21 otherwise)? Bytes of fields that are not yours are ignored
(R208). -/
def Core.imageFields (c : Core) (b : List Byte) : Bool :=
  let x := Ctx.ofImage b
  let t := f32 x.temp
  let p := f32 x.topP
  let mp := f32 x.minP
  let one : Num := .ofNat 1
  x.pool ≤ 3 &&
  1 ≤ x.cMax && x.cMax ≤ 8 && [0x81, 0x82, 0x83, 0x08].contains x.fmt && x.stopCount ≤ 8 &&
  1 ≤ x.promptLen && x.promptLen < x.limit && x.limit ≤ 1048576 &&
  !t.nonFinite && !(Num.lt t (.zero false)) &&
  !p.nonFinite && Num.lt (.zero false) p && !(Num.lt one p) && (!(Num.lt p one) || 1 ≤ x.topK) &&
  !mp.nonFinite && !(Num.lt mp (.zero false)) && Num.lt mp one && x.topK ≤ 1024 &&
  x.ledBase % 16 == 0 && 1 ≤ x.ledCap && c.inPart 8 x.ledBase (16 * x.ledCap) && x.parkBase % 4096 == 0 &&
  (x.stops.take x.stopCount).all (· < 2 ^ 18) && c.poolOn x.pool && c.poolFits x.pool x.fmt

/-- Is the image acceptable with what it points to: its list's capacity and its final prompt token? -/
def Core.imageOk (c : Core) (b : List Byte) : Bool :=
  let x := Ctx.ofImage b
  c.imageFields b && x.limit ≤ c.listCap x.list * 32 && c.lnum (x.prompt + 4 * (x.promptLen - 1)) 4 < 2 ^ 18

/-- The tokens of a prompt block. -/
def Core.promptBlk (c : Core) (prompt b : Nat) : List Nat := (List.range 32).map fun i => c.lnum (prompt + 128 * b + 4 * i) 4

/-- What the lookup has matched so far: blocks, the deepest entry, and its hash. -/
structure Match where
  n : Nat
  node : Nat
  hash : Nat
  deriving DecidableEq, Repr

/-- The place of a hash's set: 8 entries, one granule. -/
def Core.pfxSet (c : Core) (h : Nat) : Nat := c.pfxAddr (h % 2 ^ 17 * 8)

/-- The lookup of R219, block by block; a read of the table that meets poison rejects the descriptor. -/
def Core.pfxLookup (c : Core) (d : Nat) (x : Ctx) (g : Nat) : Nat → Match → Match × Core
  | 0, m => (m, c)
  | k + 1, m =>
    let h := blockHash m.hash (c.promptBlk x.prompt m.n)
    match c.fetchAll [(24, c.pfxSet h, 256), (24, c.entAddr x.list 0 m.n, 16)] with
    | (c, some (off, e)) => (m, c.rejectAccess d ctxSrc off e)
    | (c, none) =>
    match c.pfxFind h m.n x.pool m.node with
    | none => (m, c)
    | some e =>
    match c.readPfxRow e with
    | (c, some bad) => (m, c.rejectAccess d ctxSrc 24 bad)
    | (c, none) =>
      let c := c.pfxTake e
      let c := (List.range (c.obj 0x6300 4)).foldl
        (fun c l => c.setPent x.list l m.n (.held (c.num (c.pfxRow e + 4 * l) 4) g)) c
      c.pfxLookup d x g k { n := m.n + 1, node := e, hash := h }

/-- The newest published version; without one the start version stands nowhere in the manual: a free value
(log 4: DESIGN CHOICE). (log 47: DEDUCED) -/
def Core.newestVersion (c : Core) : Nat × Core :=
  match c.newest with
  | some b => ((c.bank b).version, c)
  | none => c.draw (2 ^ 32)

/-- A FREE record takes an image that passed. (log 47: DEDUCED) -/
def Core.ctxTake (c : Core) (d n : Nat) (b : List Byte) : Core :=
  let x := Ctx.ofImage b
  let (v, c) := c.newestVersion
  let use := c.pfxOn && c.listLayers x.list == c.obj 0x6300 4
  let root : Match := { n := 0, node := noEntry, hash := pfxRoot (c.obj 0x6300 5) v x.pool }
  let (m, c) := if use then c.pfxLookup d x (c.listGen x.list) ((x.promptLen - 1) / 32) root else (root, c)
  let c := c.bump 0x6890 8 m.n
  if !c.live d then c
  else
    let c := (c.bump 0x6890 1 1).setCtx n { x with
      state := 1, pos := x.promptLen - 1, last := c.lnum (x.prompt + 4 * (x.promptLen - 1)) 4, inUse := v, startVer := v
      node := m.node, shared := m.n, openTime := c.now }
    c.opDone d 1

def execCtxOpen (d : Nat) : State → Res :=
  lift fun dev c =>
    c.ctxIssue dev d 1 (fun _ => !(c.pfxOn && c.roll.clearing)) fun x c =>
      if (c.ctx x.ctxNo).state ≠ 0 then c.opDone d 0x20
      else
        let im := x.f 24 8
        c.fetched d ctxSrc [(24, im, 256)] fun c =>
          let b := c.lread im 256
          let y := Ctx.ofImage b
          if !c.imageFields b then c.opDone d 0x21
          else
            c.fetched d ctxSrc [(24, y.list, 64), (24, y.prompt, 4 * y.promptLen)] fun c =>
              if c.imageOk b then c.ctxTake d x.ctxNo b else c.opDone d 0x21

/-! ### CLOSE, HOLD, RELEASE, ABORT_STEP (R210 to R212) -/

/-- The local pages of a context's list from a block on: layer, block, entry. -/
def Core.localPages (c : Core) (list b0 b1 : Nat) : List (Nat × Nat × PEnt) :=
  (List.range (c.listLayers list)).flatMap fun l =>
    (List.range (b1 - b0)).filterMap fun k =>
      let e := c.pent list l (b0 + k)
      if e.pageNew ≠ noPage ∧ e.locNew = locLocal then some (l, b0 + k, e) else none

/-- The ranges of the entries of every layer of a list, blocks [b0, b1). -/
def Core.listRanges (c : Core) (list b0 b1 : Nat) : List (Nat × Nat × Nat) :=
  (List.range (c.listLayers list)).map fun l => (0xFFFF, c.entAddr list l b0, 16 * (b1 - b0))

/-- A context op reads its list: the header, then the entries of every layer that it needs (R309, R318, R325). -/
def Core.withList (c : Core) (d list : Nat) (b0 : Nat) (b1 : Core → Nat) (k : Core → Core) : Core :=
  c.fetched d ctxSrc [(0xFFFF, list, 64)] fun c => c.fetched d ctxSrc (c.listRanges list b0 (b1 c)) k

/-- CLOSE (R212). -/
def Core.ctxCloseNow (c : Core) (d n : Nat) : Core :=
  let x := c.ctx n
  let free (c : Core) : Core := ((c.setCtx n {}).bump 0x6890 2 1).opDone d 1
  if x.state = 6 then free (c.bump 0x6890 0x15 1)
  else
    c.withList d x.list x.shared (fun c => c.listCap x.list) fun c =>
      let c := c.pfxDropChain x.shared x.node
      free ((c.localPages x.list x.shared (c.listCap x.list)).foldl (fun c p => c.freePage x.pool p.2.2.pageNew) c)

/-- The block after the last that holds a position below P. -/
def Ctx.parkEnd (x : Ctx) : Nat := if x.pos = 0 then x.shared else (x.pos - 1) / 32 + 1

/-- Where the pages a PARK moves go: (layer, block, entry, image index). -/
def Core.parkList (c : Core) (x : Ctx) : List (Nat × Nat × PEnt × Nat) :=
  let b1 := x.parkEnd
  let nb := b1 - x.shared
  (c.localPages x.list x.shared b1).map fun p => (p.1, p.2.1, p.2.2, p.1 * nb + (p.2.1 - x.shared))

/-- The stride of a park image (R229). -/
def Core.parkStride (c : Core) (pool : Nat) : Nat := roundUp (c.pageBytes pool + c.slotBytes pool) 4096

/-- PARK copies its pages to the host (R229). -/
def Core.ctxParkNow (c : Core) (d n : Nat) : Core :=
  let x := c.ctx n
  if x.parkBase = 0 then c.opDone d 0x21
  else
    match c.desc? d with
    | none => c
    | some y =>
      let fn := c.queueFn y.queue
      c.withList d x.list x.shared (fun _ => x.parkEnd) fun c =>
        let place (p : Nat × Nat × PEnt × Nat) : List (Nat × Nat × Nat) :=
          [(0xFFFF, c.pageAddr x.pool p.2.2.1.pageNew, c.pageBytes x.pool),
           (0xFFFF, c.slotAddr x.pool p.2.2.1.pageNew, c.slotBytes x.pool)]
        c.fetched d ctxSrc ((c.parkList x).flatMap place) fun c =>
          let c := (c.parkList x).foldl
            (fun c p =>
              let bs := (place p).flatMap fun r => c.bytes r.2.1 r.2.2
              c.hostStore fn (x.parkBase + p.2.2.2 * c.parkStride x.pool) bs) c
          { c with roll := { c.roll with parks := c.roll.parks ++ [(d, n)] } }

/-- The state an op leaves from, or its refusal; HOLD, PARK and CLOSE wait for a step to close (R211). -/
def Core.ctxAct (c : Core) (d n op : Nat) : Core :=
  let x := c.ctx n
  match op with
  | 2 => if x.state = 0 then c.opDone d 0x20 else c.ctxCloseNow d n
  | 3 => if x.state = 1 then (c.setCtx n { x with state := 3 }).opDone d 1 else c.opDone d 0x20
  | _ => if x.state = 1 ∨ x.state = 3 ∨ x.state = 5 then c.ctxParkNow d n else c.opDone d 0x20

/-- An op that waits while its context is STEPPING, else acts. -/
def Core.ctxActOrWait (c : Core) (d n op : Nat) : Core :=
  if (c.ctx n).state = 2 then
    let w : CtxWait := { d := d, ctx := n, op := op }
    { c with roll := { c.roll with waits := c.roll.waits ++ [w] } }
  else c.ctxAct d n op

def execCtxClose (d : Nat) : State → Res :=
  lift fun dev c =>
    c.ctxIssue dev d 2 (fun x => !((c.ctx x.ctxNo).shared != 0 && c.roll.clearing)) fun x c => c.ctxActOrWait d x.ctxNo 2

def execCtxHold (d : Nat) : State → Res :=
  lift fun dev c => c.ctxIssue dev d 3 (fun _ => true) fun x c => c.ctxActOrWait d x.ctxNo 3

def execCtxRelease (d : Nat) : State → Res :=
  lift fun dev c =>
    c.ctxIssue dev d 4 (fun _ => true) fun x c =>
      let y := c.ctx x.ctxNo
      if y.state = 3 then (c.setCtx x.ctxNo { y with state := 1 }).opDone d 1 else c.opDone d 0x20

def execCtxPark (d : Nat) : State → Res :=
  lift fun dev c => c.ctxIssue dev d 5 (fun _ => true) fun x c => c.ctxActOrWait d x.ctxNo 5

def execAbortStep (d : Nat) : State → Res :=
  lift fun dev c =>
    c.ctxIssue dev d 8 (fun _ => true) fun x c =>
      let y := c.ctx x.ctxNo
      if y.state = 2 then (c.setCtx x.ctxNo { y with state := 1 }).opDone d 1 else c.opDone d 0x20

/-- The oldest op that waited on a context acts on the state its step left (R211). -/
def execDeferredContextOp (ctx : Nat) : State → Res :=
  lift fun dev c =>
    if !runsWork dev || (c.ctx ctx).state == 2 || c.ctxHeld ctx then c
    else
      match c.roll.waits.find? (fun w => w.ctx == ctx) with
      | none => c
      | some w =>
        ((({ c with roll := { c.roll with waits := c.roll.waits.erase w } }).ctxRead ctx).ctxAct w.d ctx w.op).owe c
          (.desc w.d)

/-- A PARK's pages are in the host's memory: the list is edited under R194, the displaced pages freed. -/
def Core.parkEnds (c : Core) (d ctx : Nat) (x : Ctx) : Core :=
      let g := c.listGen x.list
      let moved := c.parkList x
      let b1 := max x.shared x.parkEnd
      let drafts := (List.range (c.listLayers x.list)).flatMap fun l =>
        (List.range (c.listCap x.list - b1)).filterMap fun k =>
          let e := c.pent x.list l (b1 + k)
          if e.pageNew ≠ noPage then some (l, b1 + k, e) else none
      let c := moved.foldl (fun c q => c.setPent x.list q.1 q.2.1 (q.2.2.1.edit g q.2.2.2 locParked)) c
      let c := drafts.foldl (fun c q => c.setPent x.list q.1 q.2.1 (q.2.2.edit g noPage locLocal)) c
      let c := c.setGen x.list (g + 1)
      let c := moved.foldl (fun c q => c.freePage x.pool q.2.2.1.pageNew) c
      let c := drafts.foldl (fun c q => if q.2.2.locNew = locLocal then c.freePage x.pool q.2.2.pageNew else c) c
      ((c.setCtx ctx { x with state := 4, parked := moved.length }).bump 0x6890 0x14 moved.length).opEnds d 1
        moved.length

/-- The host has acknowledged every page of a PARK (R229). A record found BROKEN meanwhile leaves that state by CLOSE
only (Table 7.2): the op ends with 0x20. (log 143: DEDUCED) -/
def execParkPagesAcknowledged (ctx : Nat) : State → Res :=
  lift fun dev c =>
    match (if runsWork dev then c.roll.parks.find? (fun p => p.2 == ctx) else none) with
    | none => c
    | some p =>
      let c' := ({ c with roll := { c.roll with parks := c.roll.parks.erase p } }).ctxRead ctx
      let x := c'.ctx ctx
      (if x.state = 6 then c'.opDone p.1 0x20
        else c'.withList p.1 x.list x.shared (fun c => c.listCap x.list) fun c => c.parkEnds p.1 ctx x).owe c (.desc p.1)

/-! ### RESUME (R230) -/

/-- The parked entries of a context's list: layer, block, image index. -/
def Core.parkedEntries (c : Core) (x : Ctx) : List (Nat × Nat × Nat) :=
  (List.range (c.listLayers x.list)).flatMap fun l =>
    (List.range (c.listCap x.list)).filterMap fun b =>
      let e := c.pent x.list l b
      if e.pageNew ≠ noPage ∧ e.locNew = locParked then some (l, b, e.pageNew) else none

/-- Change the RESUMEs in progress. -/
def Core.setResume (c : Core) (d : Nat) (r : Option ResumeRun) : Core :=
  { c with roll := { c.roll with resumes := c.roll.resumes.filter (fun q => q.d != d) ++ r.toList } }

/-- Take pages for the entries left, as far as the ring gives them. -/
def Core.takePages (c : Core) (pool : Nat) : List (Nat × Nat × Nat) → List (Nat × Nat × Nat) →
    (List (Nat × Nat × Nat) × List (Nat × Nat × Nat)) × Core
  | [], taken => (([], taken), c)
  | t :: ts, taken =>
    match c.takePage pool with
    | (none, c) => ((t :: ts, taken), c)
    | (some p, c) => (c.bump 0x6880 9 1).takePages pool ts (taken ++ [(t.1, t.2.1, p)])

/-- A RESUME ends without its context: it frees the pages it took (R230). -/
def Core.resumeStops (c : Core) (d pool status : Nat) (taken : List (Nat × Nat × Nat)) : Core :=
  (taken.foldl (fun c t => c.freePage pool t.2.2) (c.setResume d none)).opDone d status

/-- Every page is there: the image comes back and the entries are edited under R194. A record found BROKEN meanwhile
stays so: the op ends with 0x20. (log 143: DEDUCED) -/
def Core.resumeEnds (c : Core) (d n : Nat) (taken : List (Nat × Nat × Nat)) : Core :=
  match c.desc? d with
  | none => c
  | some y =>
    let c := c.ctxRead n
    let x := c.ctx n
    if x.state = 6 then c.resumeStops d x.pool 0x20 taken
    else
    let fn := c.queueFn y.queue
    let g := c.listGen x.list
    let c := taken.foldl
      (fun c t =>
        let e := c.pent x.list t.1 t.2.1
        let a := x.parkBase + e.pageNew * c.parkStride x.pool
        let c := c.put (c.pageAddr x.pool t.2.2) (c.hostRead fn a (c.pageBytes x.pool))
        let c := c.put (c.slotAddr x.pool t.2.2) (c.hostRead fn (a + c.pageBytes x.pool) (c.slotBytes x.pool))
        c.setPent x.list t.1 t.2.1 (e.edit g t.2.2 locLocal)) c
    let c := (c.setGen x.list (g + 1)).setResume d none
    (c.setCtx n { x with state := if x.endReason = 0 then 1 else 5, parked := 0 }).opDone d 1

/-- Go on with a RESUME; the first page it finds missing starts its wait, with an eviction (R190, R221). -/
def Core.resumeGo (c : Core) (d n : Nat) (todo taken : List (Nat × Nat × Nat)) (fresh : Bool) : Core :=
  let x := c.ctx n
  let ((todo', taken'), c) := c.takePages x.pool todo taken
  if todo'.isEmpty then c.resumeEnds d n taken'
  else
    let c := if fresh || todo' != todo then c.pfxPressure x.pool else c
    c.setResume d (some { d := d, ctx := n, todo := todo', taken := taken' })

/-- RESUME; while it waits for pages, the command takes it up again. -/
def execCtxResume (d : Nat) : State → Res :=
  lift fun dev c =>
    match c.roll.resumes.find? (fun r => r.d == d && c.live d) with
    | some r => if runsWork dev then (c.resumeGo d r.ctx r.todo r.taken false).owe c (.desc d) else c
    | none =>
      c.ctxIssue dev d 6 (fun _ => !(c.pfxOn && c.roll.clearing)) fun x c =>
        let y := c.ctx x.ctxNo
        if y.state ≠ 4 then c.opDone d 0x20
        else
          c.withList d y.list 0 (fun c => c.listCap y.list) fun c => c.resumeGo d x.ctxNo (c.parkedEntries y) [] true

/-- A RESUME finds no page in time: it frees the pages it took (R230). -/
def Core.resumeFails (c : Core) : Core :=
  match c.roll.resumes.find? (fun r => c.live r.d) with
  | none => c
  | some r => (c.resumeStops r.d (c.ctx r.ctx).pool 0x22 r.taken).owe c (.desc r.d)

/-- STEPPING contexts return to ACTIVE (R11, R233); answers how many there were. -/
def Core.abortStepping (c : Core) : Nat × Core :=
  let n := (c.roll.ctxs.filter fun p => p.2.state == 2).length
  (n, { c with roll := { c.roll with ctxs := c.roll.ctxs.map fun (p : Nat × Ctx) =>
    (p.1, if p.2.state = 2 then { p.2 with state := 1 } else p.2) } })

/-- Pages that interrupted RESUMEs took are freed (R233). -/
def Core.freeResumes (c : Core) : Core :=
  let c' := c.roll.resumes.foldl (fun c r => r.taken.foldl (fun c t => c.freePage (c.ctx r.ctx).pool t.2.2) c) c
  { c' with roll := { c'.roll with resumes := [] } }

/-! ### INSERT and FLUSH_PREFIX (R220, R221) -/

/-- The way an inserted block takes: a free one, else the coldest without references (evicted), else none. -/
def Core.pfxWay (c : Core) (h : Nat) : Except (Nat × Nat) (Option Nat) × Core :=
  let ways := pfxWays h
  match ways.find? (fun e => !(c.pfx e).valid) with
  | some e => (.ok (some e), c)
  | none =>
    let age (e : Nat) : Nat := (fld c.now 51 20 + 2 ^ 32 - (c.pfx e).cold) % 2 ^ 32
    let old := (ways.filter fun e => (c.pfx e).refs == 0).foldl
      (fun b e => match b with
        | none => some e
        | some f => if age f < age e then some e else some f) none
    match old with
    | none => (.ok none, c)
    | some e =>
      match c.pfxEvict e with
      | (c, none) => (.ok (some e), c.bump 0x6890 0xC 1)
      | (c, some bad) => (.error bad, c)

/-- Are all of a block's entries local pages? -/
def Core.blockLocal (c : Core) (list b : Nat) : Bool :=
  (List.range (c.listLayers list)).all fun l =>
    let e := c.pent list l b
    e.pageNew != noPage && e.locNew == locLocal

/-- Insert blocks from the context's shared blocks on: the status and how many went in. (log 49: DEDUCED) -/
def Core.insertBlocks (c : Core) (d n : Nat) : Nat → Nat → Nat → (Nat × Nat) × Core
  | 0, _, k => ((1, k), c)
  | f + 1, hash, k =>
    let x := c.ctx n
    let b := x.shared
    let h := blockHash hash (c.promptBlk x.prompt b)
    match c.fetchAll [(0xFFFF, c.pfxSet h, 256)] with
    | (c, some (off, e)) => ((1, k), c.rejectAccess d ctxSrc off e)
    | (c, none) =>
    if (c.pfxFind h b x.pool x.node).isSome then ((0x24, k), c.bump 0x6890 0xA 1)
    else
      match c.pfxWay h with
      | (.error bad, c) => ((1, k), c.rejectAccess d ctxSrc 0xFFFF bad)
      | (.ok none, c) => ((0x25, k), (c.bump 0x6890 0xB 1).raise { code := 0x6034, source := ctxSrc, d := some d })
      | (.ok (some e), c) =>
        if !c.blockLocal x.list b then ((0x26, k), c)
        else
          let c := (List.range (c.obj 0x6300 4)).foldl
            (fun c l => c.put (c.pfxRow e + 4 * l) (toLE 4 (c.pent x.list l b).pageNew)) c
          let ent : Pfx :=
            { hash := h, refs := 1, parent := x.node, prev := noEntry, next := noEntry, cold := 0, block := b
              valid := true, pool := x.pool }
          let c := c.setPfx e ent
          let c := { c with roll := { c.roll with valid := c.roll.valid + 1 } }
          let c := (c.setCtx n { x with shared := b + 1, node := e }).bump 0x6890 9 1
          c.insertBlocks d n f h (k + 1)

def execCtxInsert (d : Nat) : State → Res :=
  lift fun dev c =>
    c.ctxIssue dev d 7 (fun _ => !(c.pfxOn && c.roll.clearing)) fun x c =>
      let n := x.f 20 4
      let y := c.ctx x.ctxNo
      if y.state = 0 ∨ y.state = 6 then c.opDone d 0x20
      else
        c.fetched d ctxSrc [(0xFFFF, y.list, 64)] fun c =>
          if !c.pfxOn || c.listLayers y.list != c.obj 0x6300 4 then c.opEnds d 0x23 0
          else if y.steps = 0 ∨ y.inUse ≠ y.startVer ∨ y.promptLen / 32 < n then c.opEnds d 0x26 0
          else c.fetched d ctxSrc (c.listRanges y.list y.shared (max n y.shared)) fun c =>
            let h := if y.node = noEntry then pfxRoot (c.obj 0x6300 5) y.startVer y.pool else (c.pfx y.node).hash
            let ((st, k), c) := c.insertBlocks d x.ctxNo (n - y.shared) h 0
            c.opEnds d st k

/-- Evict from the head of the cold list until it is empty; a row that cannot be read rejects the descriptor. -/
def Core.flushCold (c : Core) (d : Nat) : Nat → Core
  | 0 => c
  | f + 1 =>
    if c.roll.coldHead = noEntry then c
    else
      match c.pfxEvict c.roll.coldHead with
      | (c, none) => (c.bump 0x6890 0xD 1).flushCold d f
      | (c, some bad) => c.rejectAccess d ctxSrc 0xFFFF bad

def execFlushPrefix (d : Nat) : State → Res :=
  lift fun dev c =>
    c.ctxIssue dev d 9 (fun _ => !(c.pfxOn && c.roll.clearing)) fun _ c =>
      if !c.pfxOn then c.opDone d 0x23 else (c.flushCold d c.roll.cold).opDone d 1

/-! ### Decode-step opens (R213) -/

/-- The number of entries of a batch list. -/
def Core.batch (c : Core) (list n : Nat) : List Nat := (List.range n).map fun i => c.lnum (list + 4 * i) 4

def openChecks (x : Desc) : List (Bool × Nat × Nat × Nat) :=
  let n := x.f 24 4
  [(x.f 28 4 == 0, 0x6031, 28, x.f 28 4),
   (x.f 32 1 / 2 == 0, 0x6031, 32, x.f 32 1),
   ((bytesAt x.bytes 33 31).all (· == 0), 0x6031, 33, x.f 33 4),
   (1 ≤ n && n ≤ 16384, 0x6031, 24, n),
   (x.f 16 8 % 64 == 0, 0x6031, 16, x.f 16 4)]

/-- The status of one batch entry on a bank that holds version v (R213); `seen` are the contexts before it.
(log 48: DEDUCED) -/
def Core.entryStatus (c : Core) (v e : Nat) (seen : List Nat) : Nat :=
  let n := e % 65536
  let k := fld e 23 16
  let x := c.ctx n
  let newest := match c.newest with
    | some b => (c.bank b).version == v
    | none => false
  if seen.contains n then 0x14
  else if x.state ≠ 1 then 0x10
  else if !(if x.pin then v == x.startVer else newest) then 0x11
  else if k = 0 ∨ x.cMax < k ∨ (x.steps = 0 ∧ k ≠ 1) then 0x13
  else 1

/-- Open the entries in list order. -/
def Core.openEntries (c : Core) (list b : Nat) : List Nat → Nat → List Nat → Core
  | [], _, _ => c
  | e :: es, i, seen =>
    let bk := c.bank b
    let n := e % 65536
    let c := c.ctxRead n
    let st := if !bk.holds ∨ bk.state = 4 then 0x12 else c.entryStatus bk.version e seen
    let c := if st = 1 then
        let x := c.ctx n
        c.setCtx n { x with
          state := 2, bank := b, inUse := bk.version, changed := x.changed || x.inUse != bk.version }
      else c
    let st := if st = 1 ∧ (c.ctx n).state = 6 then 0x10 else st
    let c := (c.lput (list + 4 * i + 3) (toLE 1 st)).bump 0x6890 7 (if st = 1 then 0 else 1)
    c.openEntries list b es (i + 1) (n :: seen)

def execDecodeStepOpen (d : Nat) : State → Res :=
  lift fun dev c =>
    let busy := match c.desc? d with
      | some x => (c.batch (x.f 16 8) (min (x.f 24 4) 16384)).any fun e => c.ctxBusy (e % 65536)
      | none => true
    if busy then c
    else
      c.issue dev d [0x62] (fun _ => []) fun x c =>
        c.checked d ctxSrc (openChecks x) fun c =>
          let list := x.f 16 8
          let n := x.f 24 4
          c.fetched d ctxSrc [(16, list, 4 * n)] fun c =>
            let es := c.batch list n
            match es.find? (fun e => 16384 ≤ e % 65536) with
            | some e => c.reject d 0x6031 ctxSrc 16 e
            | none => (c.openEntries list (x.f 32 1 % 2) es 0 []).workDone d

/-- The table's clearing ends (R235). -/
def execPrefixClearingEnds : State → Res := lift fun _ c => { c with roll := { c.roll with clearing := false } }

end Sys2Proof.Machine
end

