-- ==== Sys2Proof/Machine/Memory.lean ====
section
/-! DEFINITION. The memory system's own work (chapter 10): slots and regulators, aged entries, patrol scrub, repair. -/

namespace Sys2Proof.Machine

/-! ### Regulators (R319 to R321)

Tokens count in units of 1/8,000 byte: a rate of R MB/s adds R of them each ns to a stack's bucket. -/

def Core.partRate (c : Core) (p : Nat) : Nat := c.obj (0x9100 + p) 3
def Core.rateSum (c : Core) : Nat := ((List.range 16).map c.partRate).sum

/-- A partition's rate under the scaling of R321. (log 78: DESIGN CHOICE) -/
def Core.scaledRate (c : Core) (p t : Nat) : Nat :=
  if c.mem.scaling then c.partRate p * t * c.obj 0x9003 0 / c.rateSum else c.partRate p * t

/-- A bucket is full at B/8 bytes. (log 78: DESIGN CHOICE) -/
def Core.bucketFull (c : Core) (p : Nat) : Int := (c.obj (0x9100 + p) 4 * 1000 : Nat)

/-- Tokens of a partition in a stack, as they stand; a bucket never touched is full. (log 78: DESIGN CHOICE) -/
def Core.tokens (c : Core) (stack p : Nat) : Int :=
  let k := stack * 16 + p
  let full := c.bucketFull p
  let t0 := KMap.getD c.mem.tokensAt k c.now
  min full (KMap.getD c.mem.tokens k full + (c.scaledRate p (c.now - t0) : Nat))

/-- Spend one slot of 256 B for a partition in a stack: the tokens fall below zero by one slot's cost at most.
(log 78: DESIGN CHOICE) -/
def Core.spend (c : Core) (stack p : Nat) : Core :=
  let k := stack * 16 + p
  let v := max (c.tokens stack p - 2048000) (-2048000)
  { c with mem := { c.mem with
      tokens := KMap.set c.mem.tokens k v, tokensAt := KMap.set c.mem.tokensAt k c.now } }

/-- The tokens of every bucket as they stand, those never spent from among them. (log 78: DESIGN CHOICE) -/
def Core.settleTokens (c : Core) : Core :=
  { c with mem := { c.mem with
      tokens := (List.range 128).map fun k => (k, c.tokens (k / 16) (k % 16))
      tokensAt := (List.range 128).map fun k => (k, c.now) } }

/-- Whether the rates fit the guaranteeable rate now; scaling begins with event 0x9016 (R321). -/
def Core.rescale (c : Core) : Core :=
  let g := c.obj 0x9003 0
  let s := c.rateSum
  if g < s then
    let was := c.mem.scaling
    let c := ({ c with mem := { c.mem with scaling := true } }).setObj 0x9004 0
      (f32Code (fdiv (.ofNat g) (.ofNat s)))
    if was then c else c.raise { code := 0x9016, source := srcOf 0x09 0 }
  else ({ c with mem := { c.mem with scaling := false } }).setObj 0x9004 0 0x3F800000

/-! ### A slot (R309, R320) -/

/-- How far a partition stands behind the one served last, in round robin. (log 79: DEDUCED) -/
def robin (last p : Nat) : Nat := (p + 15 - last) % 16

/-- The pseudo-channel a repair target names (R308). (log 14: DESIGN CHOICE) -/
def targetPc (target : Nat) : Nat := target / 2 ^ 61 + fld target 55 55 * 8 + fld target 60 56 * 16

/-- Does a lane repair hold a pseudo-channel (R328)? -/
def Core.retraining (c : Core) (pc : Nat) : Bool :=
  match c.mem.repairRun with
  | some (t, k) => k == 2 && targetPc t == pc
  | none => false

/-- The request a pseudo-channel serves, and whether the slot is spare. The round robin of each class goes on from the
partition it served last; a partition with rate 0 has no tokens. (log 79: DEDUCED) -/
def Core.pickReq (c : Core) (pc : Nat) : Option (HbmReq × Bool) :=
  let mine := if c.retraining pc then [] else c.mem.reqs.filter fun r => r.pc == pc
  let paid := mine.filter fun r => 0 < c.partRate r.part && 0 < c.tokens (pc % 8) r.part
  let spare := mine.filter fun r => c.flag (0x9100 + r.part) 6
  let (cand, sp) := if paid.isEmpty then (spare, true) else (paid, false)
  let cls (r : HbmReq) : Nat := c.obj (0x9100 + r.part) 5
  let rank (r : HbmReq) : Nat := cls r * 16 + robin (KMap.getD c.mem.lastPart (pc * 4 + cls r) 15) r.part
  (cand.foldl (fun b r => match b with
    | none => some r
    | some x => if rank r < rank x then some r else some x) none).map fun r => (r, sp)

/-- One pseudo-channel's slot: it serves one pending request; what waited for it goes on. (log 79: DEDUCED) -/
def execHbmSlot (pc : Nat) : State → Res :=
  lift fun _ c =>
    match c.pickReq pc with
    | none => c
    | some (r, sp) =>
      let c := { c with mem := { c.mem with
        reqs := c.mem.reqs.erase r
        lastPart := KMap.set c.mem.lastPart (pc * 4 + c.obj (0x9100 + r.part) 5) r.part } }
      let c := c.spend (pc % 8) r.part
      let c := c.bump (0x9180 + r.part) (if r.kind = 0 then 1 else 2) 1
      let c := c.bump (0x9180 + r.part) 3 (c.now - r.at_)
      let c := if r.kind = 2 then c.bump 0x9880 0xA 1 else c
      ((if sp then c.bump (0x9180 + r.part) 4 1 else c).settleEntries).finishSamples

/-- An entry untouched for 0x9300:01 ns is written back (R313): the entry of that number in its stack. -/
def execWcbAgeWriteback (stack entry : Nat) : State → Res :=
  lift fun _ c =>
    match (c.mem.wcb.filter fun e => e.stack == stack)[entry]? with
    | some e => c.writeBack e
    | none => c

/-! ### Patrol (R323, R326, R333) -/

/-- Does patrol scrub run in a state (R334)? -/
def patrols (dev : Dev) : Bool :=
  dev == .ready || dev == .run || dev == .drain || dev == .faultStop || dev == .rejoin

/-- Patrol reads one sector, a granule's four with one slot of P0's (R309, R326), which holds `symbols` bad symbols of
its own, or those injected into it. A pass ends when every sector has been read: the core dies' counts are read, a
free value (log 4: DESIGN CHOICE). (log 80: DESIGN CHOICE) -/
def execHbmPatrolScrub (addr symbols : Nat) : State → Res :=
  lift fun dev c =>
    let u := addr / 64 * 64
    if !patrols dev ∨ c.hbmBytes ≤ u then c
    else
      let c := if u % 256 = 0 then (c.spend (stackOf u) 0).bump 0x9180 1 1 else c
      let c := match KMap.get? c.mem.injSyms u with
        | some n => c.readSector u n
        | none => if symbols = 0 ∨ c.mem.poison.contains u then c else c.readSymbols u symbols false
      let n := c.mem.patrolled + 1
      if n < c.hbmBytes / 64 then { c with mem := { c.mem with patrolled := n } }
      else
        let (k, c) := c.draw (2 ^ 32)
        (({ c with mem := { c.mem with patrolled := 0 } }).bump 0x9880 0xD 1).bump 0x9880 2 k

/-- Patrol reads one tile-store word, in which `flips` names the bits found flipped, or those injected into it. An
uncorrectable word is poisoned; what comes of it is its reader's outcome (R170, R234, R325, R333). (log 81: DEDUCED) -/
def execTileStoreScrub (addr flips : Nat) : State → Res :=
  lift fun dev c =>
    let u := addr / 8 * 8
    if !patrols dev ∨ u < tsBase ∨ tsBase + tsBytes ≤ u then c
    else
      match KMap.get? c.mem.tsFlips u with
      | some f => c.readWord u f
      | none =>
        if flips % 2 ^ 64 = 0 ∨ c.mem.poison.contains u then c
        else c.readFlips u (flips % 2 ^ 64) false

/-! ### Repair (R328) -/

/-- Spare rows left in a stack (0x9801). -/
def Core.spareRows (c : Core) (stack : Nat) : Nat :=
  64 * 32 * c.coreDies * 2 - (c.mem.repairs.filter fun r => r.2 == 1 && r.1 / 2 ^ 61 == stack).length

/-- A repair ends with a status: 1 applied, else nothing changed. (log 82: DESIGN CHOICE) -/
def Core.repairEnds (c : Core) (status target : Nat) : Core :=
  (c.setObj 0x9800 4 status).raise
    { code := if status = 1 then 0x9030 else 0x9031,
      source := srcOf 0x09 (target / 2 ^ 61 * 32 + fld target 60 56) }

/-- Writing 1 to 0x9800:03 (R328). (log 82: DESIGN CHOICE) -/
def Core.startRepair (c : Core) (dev : Dev) : Core :=
  let t := c.obj 0x9800 1
  let k := c.obj 0x9800 2
  if dev ≠ .ready then c.repairEnds 3 t
  else if c.mem.repairRun.isSome then c.repairEnds 5 t
  else if !c.repairTargetOk t k then c.repairEnds 4 t
  else if !c.spareLeft t k then c.repairEnds 2 t
  else
    let c := (c.mem.wcb.filter fun e => e.pc == targetPc t).foldl Core.writeBack c
    { c with mem := { c.mem with repairRun := some (t, k) } }

/-- A running repair finishes. Which status a repair that fails on the way takes of 2 to 5 the manual does not say: a
free value (log 4: DESIGN CHOICE). (log 82: DESIGN CHOICE) -/
def execServiceRepairCompletes (ok : Bool) : State → Res :=
  lift fun _ c =>
    match c.mem.repairRun with
    | none => c
    | some (t, k) =>
      let c := { c with mem := { c.mem with repairRun := none } }
      if ok then ({ c with mem := { c.mem with repairs := c.mem.repairs ++ [(t, k)] } }).repairEnds 1 t
      else
        let (n, c) := c.draw 4
        c.repairEnds (2 + n) t

end Sys2Proof.Machine
end

