-- ==== Sys2Proof/Machine/Power.lean ====
section
/-! DEFINITION. Power, temperature and clocks (chapter 13). Voltages in mV, powers in mW, temperatures in thousandths
of a degree, rates in millions of handshakes a second. -/

namespace Sys2Proof.Machine

/-- The state of the governor changes. -/
def Core.modPow (c : Core) (f : Power → Power) : Core := { c with pow := f c.pow }

/-- Thousandths as an FP32 pattern. -/
def milli (n : Nat) : Nat := f32Code (fdiv (.ofNat n) (.ofNat 1000))
def milliI (n : Int) : Nat := f32Code (fdiv (.ofScaled n 0) (.ofNat 1000))

/-- An FP32 pattern in thousandths, to the nearest. -/
def ofMilli (c : Nat) : Int :=
  match (f32 c).mul (.ofNat 1000) with
  | .fin s m e => let n : Int := roundAt .rne m e 0; if s then -n else n
  | _ => 0

/-! ### Speed (R400) -/

/-- Rates of Table 13.1 at a temperature column, by voltage. -/
def rateColumn : Nat → List (Nat × Nat)
  | 0 => [(620, 1420), (700, 1790), (750, 2000), (800, 2190), (850, 2340)]
  | 1 => [(620, 1350), (700, 1700), (750, 1900), (800, 2080), (850, 2220)]
  | _ => [(620, 1310), (700, 1650), (750, 1840), (800, 2010), (850, 2150)]

/-- Linear in voltage between the rows, times 400. -/
def colRate (col v : Nat) : Nat :=
  let rec go : List (Nat × Nat) → Nat
    | (v0, r0) :: (v1, r1) :: rest =>
      if v ≤ v1 ∨ rest.isEmpty then 400 * r0 + 400 * (r1 - r0) * (v - v0) / (v1 - v0) else go ((v1, r1) :: rest)
    | _ => 0
  go (rateColumn col)

/-- Linear in temperature between the columns, times 400: at 45 °C below it, at 105 °C above it. (log 85: DEDUCED) -/
def tableRate (v : Nat) (mc : Int) : Nat :=
  let lin (a b : Nat) (t0 t1 t : Int) : Nat := ((a : Int) - ((a : Int) - b) * (t - t0) / (t1 - t0)).toNat
  if mc ≤ 45000 then colRate 0 v
  else if mc ≤ 85000 then lin (colRate 0 v) (colRate 1 v) 45000 85000 mc
  else if mc ≤ 105000 then lin (colRate 1 v) (colRate 2 v) 85000 105000 mc
  else colRate 2 v

/-! ### Estimate and stage (R404, R409) -/

def Core.capMw (c : Core) : Nat := c.obj 0x2001 0 * 1000
def Core.vMin (c : Core) : Nat := (ofMilli (c.obj 0x2011 1)).toNat
def Core.vMax (c : Core) : Nat := (ofMilli (c.obj 0x2011 2)).toNat

/-- The corrected estimate. (log 84: DESIGN CHOICE) -/
def Core.inputMw (c : Core) : Nat := ((c.pow.estimate : Int) + c.pow.correction).toNat

/-- Every 1 µs (R404): the estimate, which closes the 1 ms window that ends with it. (log 12: DESIGN CHOICE)
(log 83: DEDUCED) (log 84: DESIGN CHOICE) -/
def execPowerEstimate (mw : Nat) : State → Res :=
  lift fun _ c =>
    let c := c.modPow fun p => { p with estimate := mw }
    let e := c.inputMw
    let c := c.setObj 0x2020 1 (milli e)
    let (v, c) := c.draw (2 ^ 32)
    let c := (c.setObj 0x2020 4 v).modPow fun p => { p with recent := (e :: p.recent).take 1000 }
    if c.pow.recent.length = 1000 ∧ 1000 * c.capMw < c.pow.recent.sum then c.bump 0x2880 5 1 else c

def powEv (code own inst reading limit status : Nat) : Ev :=
  { code := code, own := own, source := srcOf 0x11 inst, fmt := 5, detail := detail5 reading limit status }

/-- Every 1 ms (R404, R409): what the stage reports, and the correction. (log 12: DESIGN CHOICE) -/
def execStagePoll (r : StageReport) : State → Res :=
  lift fun _ c =>
    let c := c.modPow fun p => { p with correction := (r.inMw : Int) - p.estimate, guard := false }
    let st := r.status % 65536
    let c := ((((c.setObj 0x2020 1 (milli c.inputMw)).setObj 0x2020 2 (milli r.inMv)).setObj 0x2020 3
      (milli r.inMa)).setObj 0x2021 1 (milliI r.tempMc)).setObj 0x2021 2 st
    let c := if r.warning then c.raise { powEv 0x2020 0 0 0 0 st with source := srcOf 0x00 0 } else c
    let c := if r.inMv < 40000 ∨ 60000 < r.inMv then
        c.raise { powEv 0x2023 0 0 (milli r.inMv) (milli (if r.inMv < 40000 then 40000 else 60000)) st with
          source := srcOf 0x00 0 }
      else c
    if r.fault then c.raise { powEv 0x2021 3 0 0 0 st with source := srcOf 0x00 0 } else c

/-- The stage has not answered for 10 ms (R409): the estimate rests on the regulator currents alone, without the
stage's correction. (log 87: DEDUCED) -/
def execStageSilent : State → Res :=
  lift fun _ c =>
    (c.modPow fun p => { p with guard := true, correction := 0 }).raise
      { powEv 0x2022 0 0 0 0 0 with source := srcOf 0x00 0 }

/-! ### The governor (R403 to R408, R417) -/

/-- A domain stands at a voltage. -/
def Core.setVolt (c : Core) (d mv : Nat) : Core :=
  (c.modPow fun p => { p with volts := KMap.set p.volts d mv }).setObj (0x2100 + d) 1 (milli mv)

/-- The voltages of the 5 mV grid within the limits, rising; the maximum where there is none. (log 85: DEDUCED) -/
def Core.grid (c : Core) : List Nat :=
  let g := ((List.range 47).map fun i => 620 + 5 * i).filter fun v => c.vMin ≤ v && v ≤ c.vMax
  if g.isEmpty then [c.vMax] else g

/-- The temperature of a domain's die. -/
def Core.domTemp (c : Core) (d : Nat) : Int :=
  ofMilli (c.obj 0x2200 (match d with
    | 0 | 1 => 1
    | 2 | 3 => 2
    | 4 => 3
    | _ => 4))

/-- Does a domain that measures `mhs` at its present voltage reach the rate target at v (R400, R403)?
(log 85: DEDUCED) -/
def Core.reachesTarget (c : Core) (d mhs v : Nat) : Bool :=
  let t := c.domTemp d
  let now := tableRate (KMap.getD c.pow.volts d 750) t
  !Num.lt (.ofNat (mhs * tableRate v t)) ((f32 (c.obj 0x2010 0)).mul (.ofNat (1000 * now)))

/-- The highest voltage whose estimated input fits the cap less 1 %, with the 5 % guard where it holds; the minimum
where none fits. -/
def Core.vCap (c : Core) (mws : List Nat) : Nat :=
  let cap := c.capMw * 99 / 100
  let cap := if c.pow.guard then cap * 95 / 100 else cap
  (c.grid.filter fun v => mws.getD ((v - 620) / 5) 0 ≤ cap).foldl max c.vMin

/-- What holds a domain: its voltage wanted, and the reason (0x2100+d:04). (log 85: DEDUCED) -/
def Core.domWants (c : Core) (dev : Dev) (d vRate cap th : Nat) (short : Bool) : Nat × Nat :=
  if dev = .standby then (if d < 4 then 0 else 620, 4)
  else if c.pow.limited then (620, 2)
  else if dev = .faultStop ∧ d < 4 then (620, 4)
  else if c.pow.idle.contains d then (620, 4)
  else
    let v := max (min (min vRate cap) (min th c.vMax)) c.vMin
    (v, if v = vRate ∧ short then 3 else if th ≤ cap ∧ th < vRate then 2 else if cap < vRate then 1 else 0)

/-- The lowest voltage at which a domain reaches the rate target (R403), where there is one. -/
def Core.rateVolt (c : Core) (d mhs : Nat) : Option Nat := c.grid.find? fun v => c.reachesTarget d mhs v

/-- One domain's part of a cycle: at most 50 mV in 10 µs, but for the junction limit, and for a domain that goes off.
(log 84: DESIGN CHOICE) (log 85: DEDUCED) -/
def Core.governDomain (c : Core) (dev : Dev) (d mhs cap : Nat) : Core :=
  let found := c.rateVolt d mhs
  let vRate := found.getD c.vMax
  let (v, why) := c.domWants dev d vRate cap c.pow.thermal found.isNone
  let now := KMap.getD c.pow.volts d 750
  let next := if v = 0 ∨ c.pow.limited then v else if now < v then min v (now + 50) else max v (now - 50)
  let (w, c) := c.draw (2 ^ 32)
  let c := ((c.modPow fun p => { p with targets := KMap.set p.targets d v }).setVolt d next).setObj (0x2100 + d) 2
    (milli mhs)
  let c := (c.setObj (0x2100 + d) 3 w).setObj (0x2100 + d) 4 why
  if found.isNone ∧ c.vMax ≤ next then c.raiseOnceRun (powEv 0x2004 0 d (milli mhs) (c.obj 0x2010 0) 0) else c

/-- Every 10 µs (R405): the measured rates of the domains, and the input estimated at each voltage from 0.62 V in 5 mV
steps. (log 12: DESIGN CHOICE) -/
def execGovernorCycle (ratesMhs mwAtVoltage : List Nat) : State → Res :=
  lift fun dev c =>
    if dev = .boot then c
    else
      let cap := if dev = .standby then c.vMax else c.vCap mwAtVoltage
      let found := (List.range 6).map fun d => c.rateVolt d (ratesMhs.getD d 0)
      let wants := found.map fun v => v.getD c.vMax
      let th := c.pow.thermal
      let c := (List.range 6).foldl (fun c d => c.governDomain dev d (ratesMhs.getD d 0) cap) c
      let c := (c.modPow fun p => { p with wanted := wants }).bump 0x2880 1 1
      let short (d : Nat) : Bool := (found.getD d none).isNone && c.vMax ≤ KMap.getD c.pow.volts d 750
      let c := if (List.range 6).any short then c.bump 0x2880 4 10000 else c
      let c := if wants.any (cap < ·) then c.bump 0x2880 2 10000 else c
      let c := if wants.any (th < ·) then c.bump 0x2880 3 10000 else c
      if c.capMw < c.inputMw ∧ (List.range 6).all (fun d => KMap.getD c.pow.volts d 750 ≤ c.vMin) then
        c.raiseOnceRun { powEv 0x2005 0 0 (milli c.inputMw) (milli c.capMw) 0 with source := srcOf 0x00 0 }
      else c

/-- Have a domain's blocks issued no descriptor for 0x2012:00 ns (R408)? -/
def Core.idleDue (c : Core) (dom : Nat) : Bool := decide (KMap.getD c.pow.idleSince dom 0 + c.obj 0x2012 0 ≤ c.now)

/-- A domain has issued no descriptor for 0x2012:00 ns (R408). (log 86: DEDUCED) -/
def execIdleDrop (dom : Nat) : State → Res :=
  lift fun dev c =>
    if 6 ≤ dom ∨ !(dev = .ready ∨ dev = .run ∨ dev = .drain ∨ dev = .rejoin) ∨ c.pow.idle.contains dom ∨ !c.idleDue dom then c
    else
      (c.modPow fun p => { p with idle := dom :: p.idle, targets := KMap.set p.targets dom 620 }).setObj
        (0x2100 + dom) 4 4

/-! ### Rails (R407) -/

/-- The fixed rails by instance of class 0x11: VPER0, VPER1 at 0.75 V; VPHY0, VPHY1, of which a sample names the 0.90 V
part as 8 and 9 and the 1.20 V part as 18 and 19; VSTK0 to VSTK7, whose voltage is free.
(log 87: DEDUCED) (log 161: DESIGN CHOICE) -/
def fixedMv (rail : Nat) : Nat :=
  match rail with
  | 6 | 7 => 750
  | 8 | 9 => 900
  | 18 | 19 => 1200
  | _ => Config.stackMv (rail - 10)

/-- A count of consecutive samples; whether it has just reached 200 ns. (log 87: DEDUCED) -/
def runOf (m : KMap Nat) (rail : Nat) (hit : Bool) : KMap Nat × Bool :=
  let n := if hit then KMap.getD m rail 0 + 1 else 0
  (KMap.set m rail n, n == 20)

/-- Detector 0x16 forces a rail's readings for 300 ns: the reading a sample takes, and whether it is forced.
(log 87: DEDUCED) -/
def Core.forceRail (c : Core) (rail inst mv low high : Nat) : Nat × Bool × Core :=
  let start (c : Core) : Core :=
    match c.inject 0x16 inst 0 with
    | (none, c) => c
    | (some p, c) => c.modPow fun w => { w with forced := KMap.set w.forced rail (2 * 30 + p % 2) }
  let c := if c.armed 0x16 then start c else c
  let f := KMap.getD c.pow.forced rail 0
  if f < 2 then (mv, false, c)
  else
    (if f % 2 = 0 then low - 1 else high + 1, true,
      c.modPow fun w => { w with forced := KMap.set w.forced rail (f - 2) })

/-- A rail that PWR_GOOD watches is in range at this sample, or is not: the fixed rails, VC4 and VC5 (R464).
(log 87: DEDUCED) -/
def Core.noteRail (c : Core) (rail : Nat) (bad : Bool) : Core :=
  if rail < 4 then c
  else
    let rest := c.pins.low.filter (· != rail)
    { c with pins := { c.pins with low := if bad then rail :: rest else rest } }

/-- Every 10 ns. An injected reading never moves a pin (R459). (log 87: DEDUCED) -/
def execRailMonitorSample (rail mv : Nat) : State → Res :=
  lift fun dev c =>
    let gov := decide (rail < 6)
    if 20 ≤ rail ∨ (dev = .standby ∧ rail < 4) then c
    else
      let lowLim := if gov then 560 else fixedMv rail * 92 / 100
      let highLim := if gov then 900 else fixedMv rail * 108 / 100
      let inst := if 18 ≤ rail then rail - 10 else rail
      let c := c.noteRail rail (decide (mv < lowLim) || decide (highLim < mv))
      let (mv, inj, c) := c.forceRail rail inst mv lowLim highLim
      let (u, under) := runOf c.pow.underFor rail (mv < lowLim)
      let (o, excess) := runOf c.pow.overFor rail (highLim < mv)
      let was := KMap.getD c.pow.droopFor rail 0
      let drooping := gov && decide (mv < 600)
      let c := c.modPow fun p => { p with
        underFor := u, overFor := o, droopFor := KMap.set p.droopFor rail (if drooping then was + 1 else 0) }
      let c := if !drooping ∧ 0 < was ∧ was < 20 then c.bump 0x2880 6 1 else c
      let ev (code lim : Nat) : Ev := { powEv code 3 inst (milli mv) (milli lim) 0 with inj := inj }
      if under then c.raise (ev (if gov then 0x2012 else 0x2014) lowLim)
      else if excess then c.raise (ev (if gov then 0x2013 else 0x2015) highLim)
      else c

/-! ### Temperature (R411 to R413)

Readings are listed in one order: 32 sensors of BD0, 32 of BD1, 16 of MD0, 16 of MD1, 4 of each stack base die, then the
core dies' own reports, stack by stack. (log 88: DEDUCED) -/

/-- The sensor number of a reading, where a stack has `dies` core dies: core die j of stack s is 128 + 16s + j. -/
def sensorNo (dies k : Nat) : Nat := if k < 128 then k else 128 + (k - 128) / dies * 16 + (k - 128) % dies

/-- The die or stack a reading belongs to: 0 to 3 for BD0, BD1, MD0, MD1, then S0 to S7. -/
def sensorDie (dies k : Nat) : Nat :=
  if k < 64 then k / 32 else if k < 96 then 2 + (k - 64) / 16 else if k < 128 then 4 + (k - 96) / 4 else 4 + (k - 128) / dies

/-- The temperature at which a reading throttles (R412). -/
def Core.throttleAt (c : Core) (k : Nat) : Int := if k < 96 then ofMilli (c.obj 0x2201 0) else 95000

/-- The largest of readings. -/
def maxInt (xs : List Int) : Int := xs.tail.foldl max (xs.headD 0)

/-- The first of the hottest readings among those that a test picks: its place. -/
def hottest (rs : List Int) (p : Nat → Int → Bool) : Option Nat :=
  ((rs.zipIdx).foldl
    (fun (b : Option (Int × Nat)) r =>
      if !p r.2 r.1 then b
      else match b with
        | none => some r
        | some q => if q.1 < r.1 then some r else b) none).map (·.2)

/-- Does a thermal voltage bind: is it below some domain's v_rate (R405)? -/
def Core.binds (c : Core) (th : Nat) : Bool := c.pow.wanted.any (th < ·)

/-- Throttling (R412): the thermal voltage goes 5 mV down, or up while it binds, by the readings themselves; the event
is of the readings as injections leave them, and names the hottest sensor that throttles. (log 88: DEDUCED) -/
def Core.throttle (c : Core) (read seen : List Int) (inj : Nat → Bool) : Core :=
  let hot (rs : List Int) : Option Nat := hottest rs fun k v => decide (c.throttleAt k ≤ v)
  let cool (rs : List Int) : Bool := (rs.zipIdx).all fun r => decide (r.1 ≤ c.throttleAt r.2 - 2000)
  let was := c.pow.throttling
  let c :=
    if (hot read).isSome then c.modPow fun p => { p with thermal := max 620 (p.thermal - 5) }
    else if cool read && c.binds c.pow.thermal then c.modPow fun p => { p with thermal := min 850 (p.thermal + 5) }
    else c
  match hot seen with
  | none => if cool seen then c.modPow fun p => { p with throttling := was && c.binds p.thermal } else c
  | some k =>
    let c := c.modPow fun p => { p with throttling := true }
    if was then c
    else
      c.raiseOnceRun { powEv 0x2030 0 0 (milliI (seen.getD k 0)) (milliI (c.throttleAt k)) 0 with
        source := srcOf 0x12 (sensorNo c.coreDies k), inj := inj k }

/-- Has a reading been at or above 105 °C since a time: none, where it is not now. -/
def hotSince (now : Nat) (since : Option Nat) (top : Int) : Option Nat :=
  if 105000 ≤ top then some (since.getD now) else none

/-- Do readings trip (R413): 110 °C, or 105 °C for 10 ms? -/
def trips (now : Nat) (since : Option Nat) (top : Int) : Bool :=
  decide (110000 ≤ top) || (match since with
    | some t => decide (t + 10000000 ≤ now)
    | none => false)

/-- The junction limit and the trip (R413), with the hottest sensor's number. The readings themselves move the rails and
the thermal-trip output; those that injections made raise events only (R459). (log 88: DEDUCED) -/
def Core.junction (c : Core) (read seen : List Int) (inj : Nat → Bool) : Core :=
  let k := (hottest seen fun _ _ => true).getD 0
  let top := seen.getD k 0
  let ev (code own : Nat) : Ev :=
    { code := code, own := own, source := srcOf 0x12 (sensorNo c.coreDies k), fmt := 5
      detail := detail5 (milliI top) (c.obj 0x2202 0) 0, inj := inj k }
  let was := c.pow.limited || c.pow.hotSince.isSome
  let below := decide (maxInt read < ofMilli (c.obj 0x2201 0))
  let c := c.modPow fun p => { p with
    hotSince := hotSince c.now p.hotSince top, realSince := hotSince c.now p.realSince (maxInt read)
    limited := decide (105000 ≤ maxInt read) || p.limited && !below }
  let c :=
    if maxInt read < 105000 then c
    else
      (List.range 6).foldl
        (fun c d => if KMap.getD c.pow.volts d 750 = 0 then c
          else (c.modPow fun p => { p with targets := KMap.set p.targets d 620 }).setVolt d 620) c
  let c := if 105000 ≤ top && !was then c.raise (ev 0x2031 0) else c
  if !trips c.now c.pow.hotSince top || c.pins.thermTrip then c
  else
    let real := trips c.now c.pow.realSince (maxInt read)
    ({ c with pins := { c.pins with thermTrip := real } } : Core).raise (ev 0x2032 3)

/-- The sensors as detector 0x17 leaves them: its degrees added to the one it names; and which it changed. -/
def Core.injectTemps (c : Core) (mc : List Int) : List Int × List Nat × Core :=
  if !c.armed 0x17 then (mc, [], c)
  else
    (mc.zipIdx).foldl
      (fun (acc : List Int × List Nat × Core) (p : Int × Nat) =>
        match acc.2.2.inject 0x17 p.2 0 with
        | (none, c) => (acc.1 ++ [p.1], acc.2.1, c)
        | (some q, c) => (acc.1 ++ [p.1 + 1000 * toInt 16 (q % 65536)], p.2 :: acc.2.1, c)) ([], [], c)

/-- Every 100 µs the 128 sensors are read; on the reads, one each ms, that take them, the core dies' reports too, which
stand until the next. (log 88: DEDUCED) -/
def execTemperatureRead (mc cores : List Int) : State → Res :=
  lift fun _ c =>
    let n := 8 * c.coreDies
    if mc.length ≠ 128 ∨ (cores.length ≠ 0 ∧ cores.length ≠ n) then c
    else
      let c := if cores.isEmpty then c else c.modPow fun p => { p with cores := cores }
      let (sensed, changed, c) := c.injectTemps mc
      let read := mc ++ c.pow.cores
      let seen := sensed ++ c.pow.cores
      let dies := (List.range 12).map fun e =>
        maxInt ((seen.zipIdx).filterMap fun r => if sensorDie c.coreDies r.2 = e then some r.1 else none)
      let c := (dies.zipIdx).foldl (fun c (p : Int × Nat) => c.setObj 0x2200 (p.2 + 1) (milliI p.1)) c
      let c := c.setObj 0x2200 0xD (milliI (maxInt seen))
      let inj (k : Nat) : Bool := changed.contains k
      let c := (c.throttle read seen inj).junction read seen inj
      let warm := (dies.drop 4).any (85000 < ·)
      (c.settleTokens.setObj 0x9003 0 (if warm then 26247168 else 27131904)).rescale

/-! ### Clocks (R416) -/

/-- A clocked domain loses lock, or its reference (R416). The PLL of a link relocks; that of an injected indication has
not lost its lock. -/
def Core.lockLost (c : Core) (k : Nat) : Core :=
  let link := k < 2 ∨ (10 ≤ k ∧ k < 16)
  let (inj, c) := c.inject 0x19 k 0
  let c := (c.bump (0x2300 + k) 3 1).setObj (0x2300 + k) 1 (if link ∨ inj.isSome then 1 else 0)
  let c := c.raise { code := 0x2040, own := if link then 0 else 3, source := srcOf 0x12 (0x200 + k), fmt := 5,
                     detail := detail5 0 0 0, inj := inj.isSome }
  if k < 2 then c.pcieDown
  else if link ∧ ((c.port (k - 10)).state = 3 ∨ (c.port (k - 10)).state = 4) then c.portDown (k - 10)
  else c

/-- The domains that use a reference of Table 13.5: 34 the PCIe reference, 35 the 100 MHz crystal, 36 the link
reference, 37 the ring reference, 38 the 25 MHz crystal (log 152: DESIGN CHOICE). -/
def refDomains (r : Nat) : List Nat :=
  match r with
  | 34 => [0, 1]
  | 35 => [2, 3, 4, 5, 6, 7, 8, 9, 20, 21, 22, 23, 24, 25, 26, 27, 28, 30, 31, 32, 33]
  | 36 => [10, 11, 12, 13, 14, 15]
  | 37 => [16, 17, 18]
  | 38 => [19, 29]
  | _ => []

/-- The PLL of clocked domain k (the rows of Table 13.5 in order) loses lock, or a reference is lost for every domain
that uses it. (log 152: DESIGN CHOICE) -/
def execPllLockLoss (k : Nat) : State → Res :=
  lift fun _ c =>
    if k < 34 then c.lockLost k else (refDomains k).foldl Core.lockLost c

end Sys2Proof.Machine
end

