-- ==== Sys2Proof/Machine/Errors.lean ====
section
/-! DEFINITION. The event unit's writes, clearing a fault, watchdogs (R447 to R456). -/

namespace Sys2Proof.Machine

/-- The event unit writes the oldest record of a die's FIFO into the log and the mirror, counts it and notifies (R448 to
R450). (log 121: DEDUCED) -/
def execEventLogWrite (die : Nat) : State → Res :=
  lift fun _ c =>
    match KMap.getD c.log.fifo die [] with
    | [] => c
    | e :: rest =>
      let c := { c with log := { c.log with
        fifo := KMap.set c.log.fifo die rest, recs := (e :: c.log.recs).take 65536, written := c.log.written + 1 } }
      let c := c.countEvent e
      if c.obj 0xB020 2 ≤ e.cls then c.msix 0 (c.obj 0xB020 1) else c

/-- A FIFO that dropped records has room: one event in it carries their number (R447). (log 121: DEDUCED) -/
def execEventsDropped (die : Nat) : State → Res :=
  lift fun _ c =>
    let n := KMap.getD c.log.dropped die 0
    if n = 0 ∨ 512 ≤ (KMap.getD c.log.fifo die []).length then c
    else
      ({ c with log := { c.log with dropped := KMap.set c.log.dropped die 0 } } : Core).noteAt die
        { code := 0xB011, source := srcOf 0x00 0, fmt := 6, detail := detail6 0 0 0 n }

/-- Does the condition behind a fault cause persist (R454)? (log 94: DEDUCED) -/
def Core.persists (c : Core) (code : Nat) : Bool :=
  match code with
  | 0x2030 => c.pow.throttling
  | 0x2031 => c.pow.limited
  | 0x2032 => c.pow.hotSince.isSome
  | 0x2012 | 0x2014 => c.pow.underFor.any fun p => p.2 != 0
  | 0x2013 | 0x2015 => c.pow.overFor.any fun p => p.2 != 0
  | 0x2040 => (List.range 34).any fun k => !c.flag (0x2300 + k) 1
  | 0x9014 | 0x9015 => c.obj 0x9002 0 != 255
  | _ => false

/-- Is the kept cause clearable (R454)? What an injection did to the stack's link (0x9014) or said of a lock (0x2040) is
no condition that persists: any injected event can be cleared. (log 94: DEDUCED) -/
def Core.clearable (c : Core) : Bool :=
  match c.log.cause with
  | none => false
  | some e =>
    (decide (c.log.causeOwn < 3) || [0x8031, 0x8033, 0x8034, 0x8035, 0x8041].contains e.code || e.inj) &&
      !(c.persists e.code && !(e.inj && (e.code == 0x9014 || e.code == 0x2040)))

/-- Writing 1 to 0xB031:00 (R454). (log 94: DEDUCED) -/
def faultClearOp (value : Nat) (dev : Dev) (c : Core) : Nat × Core :=
  if value ≠ 1 then (stType, c)
  else if dev ≠ .faultStop ∨ !c.clearable then (stDenied, c)
  else (stOk, { c with log := { c.log with cause := none, cleared := true } })

def execFaultClear (src : Src) : State → Res :=
  lift fun dev c => c.gated dev src 0xB031 0 (faultClearOp 1 dev)

/-- A self-timed stage completes no handshake for 0xB300:01 ns (R455). (log 13: DESIGN CHOICE) -/
def execStageStall (w : Nat) : State → Res :=
  lift fun _ c =>
    if 16384 ≤ w then c
    else
      let (inj, c) := c.inject 0x15 w 0
      c.raise { code := 0xB001, own := 3, source := Config.watchSource w % 65536, fmt := 8,
                detail := detail8 w (c.obj 0xB300 1), inj := inj.isSome }

/-- A kick is missed (R456): 0 and 1 the ringmaster clusters, 2 the security engine. The watchdogs arm when kind 1
starts at step 4 of BOOT, where alone a kick can be missed in BOOT; in SERVICE_STANDBY the images are halted (R433). The
security engine detects the first two, the ringmaster on MD0 the third (R476). -/
def execRingmasterWatchdog (target : Nat) : State → Res :=
  lift fun dev c =>
    if dev = .standby ∨ 2 < target then c
    else
      let (inj, c) := c.inject 0x18 target 0
      c.raise { code := if target = 2 then 0xB003 else 0xB002, own := 3
                source := if target = 2 then srcOf 0x0F 0 else srcOf 0x10 0, fmt := 8
                detail := detail8 target (c.obj 0xB310 1), inj := inj.isSome }

end Sys2Proof.Machine
end

