-- ==== Sys2Proof/Machine/Security.lean ====
section
/-! DEFINITION. The security engine (chapter 14): unlock, quotes, SPDM, firmware update, blobs and records. -/

namespace Sys2Proof.Machine

def secEv (code : Nat) : Ev := { code := code, source := srcOf 0x10 0 }

/-- The security engine's state changes. -/
def Core.modSec (c : Core) (f : Sec → Sec) : Core := { c with sec := f c.sec }

/-! ### Unlock (R439, R440) -/

/-- Writing 1 to 0xC100:01: a nonce from the random source, 32 free bytes. -/
def challengeOp (src : Src) (value : Nat) (c : Core) : Nat × Core :=
  if !ringOrPf src || c.sec.locked then (stDenied, c)
  else if value ≠ 1 then (stType, c)
  else
    let (n, c) := c.drawBytes 32
    (stOk, c.modSec fun s => { s with challenge := some n, challengeAt := c.now })

def execChallengeRequest (src : Src) : State → Res :=
  lift fun dev c => c.gated dev src 0xC100 1 (challengeOp src 1)

/-- The challenge has lived 60 s (R439); before that nothing happens. -/
def execChallengeExpiry : State → Res :=
  lift fun _ c => if c.liveChallenge.isNone then c.modSec fun s => { s with challenge := none } else c

/-- A response is refused (R440). -/
def Core.refuseUnlock (c : Core) : Core :=
  let c := ((c.modSec fun s => { s with challenge := none }).bump 0xC100 5 1).raise (secEv 0xC011)
  if c.obj 0xC100 5 = 8 ∧ !c.sec.locked then (c.modSec fun s => { s with locked := true }).raise (secEv 0xC012) else c

/-- The module serial number in 8 bytes. -/
def Core.serialBytes (c : Core) : List Byte := toLE 8 c.module_.serial

/-- The 72 B answer (R439). (log 89: DEDUCED) -/
def responseOp (src : Src) (data : List Byte) (c : Core) : Nat × Core :=
  let level := numAt data 0 1
  let key := numAt data 1 1
  if !ringOrPf src then (stDenied, c)
  else if data.length ≠ 72 ∨ level < 1 ∨ 3 < level ∨ 1 < key ∨ numAt data 2 6 ≠ 0 then (stType, c)
  else
    let may := if key = 0 then c.obj 0xC043 0 else 2
    let pubs := if key = 0 then c.sec.debugKeys else c.sec.ownerDebugKeys
    match c.liveChallenge with
    | none => (stOk, c.refuseUnlock)
    | some n =>
      if may < level ∨ !sigAny pubs (n ++ c.serialBytes ++ toLE 1 level) (bytesAt data 8 64) then (stOk, c.refuseUnlock)
      else (stOk, (c.modSec fun s => { s with challenge := none, level := max s.level level }).raise (secEv 0xC010))

/-- (log 89: DEDUCED) -/
def execResponse (src : Src) (data : List Byte) : State → Res :=
  lift fun dev c => c.gated dev src 0xC100 3 (responseOp src data)

/-! ### Quotes (R437) -/

/-- The flags of a quote. -/
def Core.quoteFlags (c : Core) : Nat :=
  (if c.sec.overrideBoot then 1 else 0) + (if c.sec.owner.isEmpty then 0 else 2) + (if c.flag 0x1030 4 then 4 else 0) +
  (if c.sec.olderCopy then 8 else 0)

def Core.ownerDigest (c : Core) : List Byte :=
  if c.sec.owner.isEmpty then List.replicate 64 0 else sha512 c.sec.owner

/-- A quote over a nonce (Table 14.6). -/
def Core.quote (c : Core) (nonce : List Byte) : List Byte :=
  let kinds := [1, 2, 3, 4]
  let b := toLE 4 (magic 0x51 0x55 0x4F 0x54) ++ toLE 1 1 ++ toLE 1 c.sec.bank ++ toLE 1 c.sec.level ++
    toLE 1 c.quoteFlags ++ c.serialBytes ++ toLE 2 c.module_.hwRev ++ toLE 2 c.sec.blobDigests.length ++
    toLE 4 c.sec.configSeq ++ toLE 8 c.now ++ nonce ++ kinds.flatMap (fun k => toLE 4 (c.obj (0xC020 + k) 1)) ++
    kinds.flatMap (fun k => toLE 4 (c.obj 0xC030 k)) ++
    kinds.flatMap (fun k => bytesAt (KMap.getD c.sec.digests k []) 0 64) ++ c.ownerDigest ++
    c.sec.blobDigests.flatMap (fun p => bytesAt p.2 0 64)
  b ++ edSign (identitySeed c.module_) (sha512 b)

def quoteOp (data : List Byte) (c : Core) : Nat × Core :=
  if !c.sec.identity then (stDenied, c)
  else if data.length ≠ 32 then (stType, c)
  else (stOk, c.modSec fun s => { s with nonce := some data })

def execQuoteNonce (src : Src) (data : List Byte) : State → Res :=
  lift fun dev c => c.gated dev src 0xC200 1 (quoteOp data)

/-- The quote is signed. -/
def execQuoteReady : State → Res :=
  lift fun _ c =>
    match c.sec.nonce with
    | none => c
    | some n => (c.modSec fun s => { s with nonce := none, quote := c.quote n }).bump 0xC880 1 1

/-! ### SPDM (R438)

The manual names SPDM 1.3 and gives no message bytes: they are those of the DMTF's SPDM 1.3 (log 29: PRESUMED). -/

/-- Answer an SPDM request. (log 29: PRESUMED) -/
def Core.spdmAnswer (c : Core) (version code p1 p2 : Nat) (body : List Byte) : Core :=
  (c.modSec fun s => { s with doe := toLE 1 version ++ toLE 1 code ++ toLE 1 p1 ++ toLE 1 p2 ++ body }).bump 0xC880 2 1

/-- ERROR with a code. -/
def Core.spdmError (c : Core) (err data : Nat) : Core := c.spdmAnswer 0x13 0x7F err data []

/-- Serve a request over the PF's Data Object Exchange, a configuration request: with no link none arrives, in BOOT it
is answered with Request Retry Status (R431), and without the device key every answer is an error (R436). (log 29:
PRESUMED) -/
def spdm (f : Core → Core) : State → Res :=
  lift fun dev c =>
    if !c.pins.perstN then c
    else if dev = .boot then c.retry
    else if !c.sec.identity then c.spdmError 0x05 0
    else f c

def execGetVersion : State → Res := spdm fun c => c.spdmAnswer 0x10 0x04 0 0 (toLE 1 0 ++ toLE 1 1 ++ toLE 2 0x1300)

/-- Certificates, challenge and signed measurements are supported; chunking, key exchange and the rest are not. The time
a signature takes and the size of the buffer are free. (log 29: PRESUMED) -/
def execGetCapabilities : State → Res :=
  spdm fun c =>
    let (ct, c) := c.draw 256
    let (size, c) := c.draw (2 ^ 32)
    c.spdmAnswer 0x13 0x61 0 0 (toLE 1 0 ++ toLE 1 ct ++ toLE 2 0 ++ toLE 4 0x16 ++ toLE 4 size ++ toLE 4 size)

/-- The body of ALGORITHMS: DMTF measurements, with Ed25519 and SHA-512 selected or none. (log 29: PRESUMED) -/
def algorithmsBody (ok : Bool) : List Byte :=
  let sel (b : Nat) : List Byte := toLE 4 (if ok then b else 0)
  toLE 2 36 ++ toLE 1 1 ++ toLE 1 0 ++ sel 8 ++ sel 0x400 ++ sel 4 ++ List.replicate 16 0

/-- An algorithm as it is offered: 1 is EdDSA Ed25519 with SHA-512. -/
def execNegotiateAlgorithms (algs : List Nat) : State → Res :=
  spdm fun c =>
    let ok := algs.contains 1
    (c.modSec fun s => { s with spdmAlgs := ok }).spdmAnswer 0x13 0x63 0 0 (algorithmsBody ok)

/-- Requests after the negotiation; before it they are unexpected. -/
def spdmAfter (f : Core → Core) : State → Res := spdm fun c => if c.sec.spdmAlgs then f c else c.spdmError 0x04 0

/-- The first certificate of a DER chain, the root's. -/
def rootCert (chain : List Byte) : List Byte :=
  chain.take (4 + 256 * numAt chain 2 1 + numAt chain 3 1)

/-- Slot 0's certificate chain: its length, the digest of the root certificate, the chain of R436.
(log 29: PRESUMED) -/
def Core.certChain (c : Core) : List Byte :=
  let chain := c.blob 0xC041 0
  toLE 2 (68 + chain.length) ++ toLE 2 0 ++ sha512 (rootCert chain) ++ chain

def execGetDigests : State → Res := spdmAfter fun c => c.spdmAnswer 0x13 0x01 1 1 (sha512 c.certChain)

def execGetCertificate (slot off len : Nat) : State → Res :=
  spdmAfter fun c =>
    let chain := c.certChain
    if slot ≠ 0 ∨ chain.length < off then c.spdmError 0x01 0
    else
      let part := (chain.drop off).take len
      c.spdmAnswer 0x13 0x02 0 0 (toLE 2 part.length ++ toLE 2 (chain.length - off - part.length) ++ part)

/-- A digest that a measurement block holds; none for an index that is not used. -/
def Core.measurement (c : Core) (i : Nat) : Option (List Byte) :=
  if 1 ≤ i ∧ i ≤ 4 then some (bytesAt (KMap.getD c.sec.digests i []) 0 64)
  else if 16 ≤ i ∧ i ≤ 18 then some (bytesAt (KMap.getD c.sec.blobDigests (i - 15) []) 0 64)
  else if i = 32 then some c.ownerDigest
  else if i = 33 then some (sha512 (toLE 1 c.sec.bank ++ toLE 1 c.sec.level ++ toLE 1 c.quoteFlags))
  else none

def measured : List Nat := [1, 2, 3, 4, 16, 17, 18, 32, 33]

/-- A measurement block: a digest of firmware (1) or of firmware configuration (3). (log 29: PRESUMED) -/
def measurementBlock (i : Nat) (digest : List Byte) : List Byte :=
  toLE 1 i ++ toLE 1 1 ++ toLE 2 67 ++ toLE 1 (if i ≤ 4 then 1 else 3) ++ toLE 2 64 ++ digest

/-- A signed answer: the head of its body, the responder's nonce, a measurement record's or no tail; no opaque data; the
requester's context; and the identity key's signature (R436) over the digest of a transcript whose bytes the manual does
not give, 64 free bytes. (log 29: PRESUMED) -/
def Core.spdmSigned (c : Core) (code p1 p2 : Nat) (head : List Byte) : Core :=
  let (nonce, c) := c.drawBytes 32
  let (ctx, c) := c.drawBytes 8
  let (digest, c) := c.drawBytes 64
  c.spdmAnswer 0x13 code p1 p2 (head ++ nonce ++ toLE 2 0 ++ ctx ++ edSign (identitySeed c.module_) digest)

def execChallenge (slot : Nat) (nonce : List Byte) : State → Res :=
  spdmAfter fun c =>
    if slot ≠ 0 ∨ nonce.length ≠ 32 then c.spdmError 0x01 0
    else c.spdmSigned 0x03 0 1 (sha512 c.certChain)

def execGetMeasurements (index : Nat) (nonce : List Byte) : State → Res :=
  spdmAfter fun c =>
    let blk (i : Nat) : List Byte := measurementBlock i ((c.measurement i).getD [])
    let blocks (is : List Nat) : List Byte := toLE 1 is.length ++ toLE 3 (71 * is.length) ++ is.flatMap blk
    if nonce.length ≠ 32 then c.spdmError 0x01 0
    else if index = 0 then c.spdmSigned 0x60 measured.length 0 (blocks [])
    else if index = 0xFF then c.spdmSigned 0x60 0 0 (blocks measured)
    else if (c.measurement index).isNone then c.spdmError 0x01 0
    else c.spdmSigned 0x60 0 0 (blocks [index])

/-- Any other request: ERROR, UnsupportedRequest. -/
def execSpdmUnsupported (code : Nat) : State → Res := spdm fun c => c.spdmError 0x07 (code % 256)

/-! ### Firmware update (R441) -/

/-- A status of 0xC300:03; 3 to 8 log 0xC020, 7 also 0xC030. -/
def Core.updStatus (c : Core) (st : Nat) : Core :=
  let c := c.setObj 0xC300 3 st
  let c := if 3 ≤ st then c.raise (secEv 0xC020) else c
  if st = 7 then c.raise (secEv 0xC030) else c

/-- A command starts: it ends with `final` unless the flash fails. (log 90: DEDUCED) -/
def Core.updStart (c : Core) (run final : Nat) : Core :=
  (c.modSec fun s => { s with updRun := some run, updFinal := final }).setObj 0xC300 3 1

/-- The bank that 0xC300:01 names. -/
def Core.updTargetBank (c : Core) : Nat := c.obj 0xC300 1

/-- What refuses a command on the target: 8 no bank named, 6 the booted bank. -/
def Core.updTarget (c : Core) : Nat := if 1 < c.updTargetBank then 8 else if c.updTargetBank = c.sec.bank then 6 else 0

/-- Has the bank named reached a stage of Table 14.7: it is the bank that was erased, and no other (R441)? -/
def Core.updAt (c : Core) (stage : Nat → Bool) : Bool := c.updTargetBank == c.sec.updBank && stage c.sec.updStage

/-- The verdict on the target bank (R427, R428): the status verify ends with. (log 91: DEDUCED) -/
def Core.updVerdict (c : Core) : Nat :=
  let m := c.module_
  let k := c.keys
  let f := m.flash c.updTargetBank
  let mins := (List.range 4).map fun i => c.obj 0xC030 (i + 1)
  match ([4, 1, 3, 2].map (imageCheck k mins f)).find? (· != 0) with
  | some st => st
  | none => if (startAll m k f [4, 1, 3, 2] [] false).1.isSome then 4 else 2

/-- Does a write of the boot control record run, which nothing abandons (R426, R441)? -/
def Core.ctlRuns (c : Core) : Bool := c.sec.updRun == some 3 || c.sec.updRun == some 4

/-- A value written to 0xC300:02: 1 erase, 2 verify, 3 commit, 4 confirm, 5 abandon, which ends steps 2 to 4.
(log 90: DEDUCED) -/
def updateOp (value : Nat) (dev : Dev) (c : Core) : Nat × Core :=
  if value < 1 ∨ 5 < value then (stType, c)
  else if (value == 5 && c.ctlRuns) || (value != 5 && c.sec.updRun.isSome) then (stBusy, c)
  else if value = 5 then
    (stOk, (c.modSec fun s => { s with updRun := none, updStage := 0, updBuf := [] }).updStatus 2)
  else if value = 4 then
    if dev ≠ .ready then (stDenied, c)
    else if c.obj 0xC010 0 ≠ c.sec.bank then (stOk, c.updStatus 8)
    else (stOk, c.updStart 4 2)
  else if c.updTarget ≠ 0 then (stOk, c.updStatus c.updTarget)
  else if value = 1 then
    (stOk, ((c.modSec fun s => { s with updStage := 0, updBank := c.updTargetBank }).setObj 0xC300 4 0).updStart 1 2)
  else if value = 2 then
    if c.updAt (· ≠ 0) then (stOk, c.updStart 2 c.updVerdict) else (stOk, c.updStatus 8)
  else if c.updAt (· == 2) then (stOk, c.updStart 3 2)
  else (stOk, c.updStatus 8)

def execUpdateErase (src : Src) : State → Res := lift fun dev c => c.gated dev src 0xC300 2 (updateOp 1 dev)
def execUpdateVerify (src : Src) : State → Res := lift fun dev c => c.gated dev src 0xC300 2 (updateOp 2 dev)
def execUpdateCommit (src : Src) : State → Res := lift fun dev c => c.gated dev src 0xC300 2 (updateOp 3 dev)
def execUpdateConfirm (src : Src) : State → Res := lift fun dev c => c.gated dev src 0xC300 2 (updateOp 4 dev)
def execUpdateAbandon (src : Src) : State → Res := lift fun dev c => c.gated dev src 0xC300 2 (updateOp 5 dev)

/-- The region of the manifests (kind 0) or of an image kind: flash offset and size. -/
def updRegion (kind : Nat) : Nat × Nat := if kind = 0 then (0x10000, 0x40000) else (imageOff kind, imageLen kind)

/-- A segment of a region (R372, R441): gathered in order for its source; the last one starts the programming.
(log 90: DEDUCED) -/
def regionOp (src : Src) (kind offset : Nat) (data : List Byte) (c : Core) : Nat × Core :=
  let key := okey (0xC310 + kind) 0
  let mine (g : Segs) : Bool := g.src == src && g.key == key
  let got := match c.dict.gathers.find? mine with
    | some g => g.data
    | none => []
  let others := c.dict.gathers.filter fun g => !mine g
  let size := (updRegion kind).2
  let setG (gs : List Segs) : Core := { c with dict := { c.dict with gathers := gs } }
  if 4 < kind then (stNoObject, c)
  else if c.sec.updRun.isSome then (stBusy, c)
  else if !c.updAt (· == 1) ∨ c.updTarget ≠ 0 then (stDenied, c)
  else
    let got := if offset = 0 then [] else got
    if offset ≠ got.length ∨ data.isEmpty ∨ size < offset + data.length then (stType, setG others)
    else if offset + data.length < size then
      (stOk, setG (others ++ [{ src := src, key := key, time := c.now, data := got ++ data }]))
    else
      let c := setG others
      (stOk, (c.modSec fun s => { s with updBuf := got ++ data }).updStart (16 + kind) 2)

def execUpdateImageWrite (src : Src) (kind offset : Nat) (data : List Byte) : State → Res :=
  lift fun dev c => c.gated dev src (0xC310 + kind) 0 (regionOp src kind offset data)

/-- Change the module. -/
def Core.modModule (c : Core) (f : Module → Module) : Core := { c with module_ := f c.module_ }

/-- Bytes programmed into flash (0xC880:03). -/
def Core.flashed (c : Core) (n : Nat) : Core := c.bump 0xC880 3 n

/-- Both copies of the boot control record stand (R426). -/
def Core.writeCtl (c : Core) (b : List Byte) : Core :=
  (c.modModule fun m => { ((m.put 0 bootCtlOff b).put 1 bootCtlOff b) with shippedCtl := false }).flashed (2 * b.length)

/-- Bytes programmed into the bank that was erased. -/
def Core.program (c : Core) (off : Nat) (d : List Byte) : Core :=
  (c.modModule fun m => (m.put c.sec.updBank off d).unship c.sec.updBank).flashed d.length

/-- What a command that took time has done when it ends well. With the manifests, which the directory precedes, the U9
writes the bank's directory. (log 15: DESIGN CHOICE) (log 90: DEDUCED) -/
def Core.updEffect (c : Core) (run : Nat) : Core :=
  let bank := c.sec.updBank
  match run with
  | 1 =>
    (c.modModule fun m => (m.setFlash bank (Flash.erase (m.flash bank) 0 0x1050000)).unship bank).modSec
      fun s => { s with updStage := 1 }
  | 2 => c.modSec fun s => { s with updStage := if s.updFinal = 2 then 2 else s.updStage }
  | 3 =>
    (((c.writeCtl (c.updRecord 3)).setObj 0xC010 0 bank).modSec fun s => { s with updStage := 3 }).raise (secEv 0xC021)
  | 4 =>
    let mins := c.bootedSvns
    let c := c.writeCtl (c.updRecord 4)
    ((mins.zipIdx).foldl (fun c (p : Nat × Nat) => c.setObj 0xC030 (p.2 + 1) p.1) c).raise (secEv 0xC022)
  | r =>
    let d := c.sec.updBuf
    let c := if r = 16 then c.program 0 (directoryBytes bank) else c
    ((c.program (updRegion (r - 16)).1 d).bump 0xC300 4 d.length).modSec fun s => { s with updBuf := [] }

/-- What a flash that fails leaves of a write of the boot control record: the copy in hand is torn, the first or the
second, a free value. (log 154: DESIGN CHOICE) -/
def Core.updFails (c : Core) (run : Nat) : Core :=
  if run = 3 ∨ run = 4 then
    let (v, c) := c.draw 2
    c.cutCtl (v + 1) (c.updRecord run)
  else c

/-- A command that took time ends. (log 90: DEDUCED) -/
def execUpdateCommandEnd (flashOk : Bool) : State → Res :=
  lift fun _ c =>
    match c.sec.updRun with
    | none => c
    | some r =>
      let final := c.sec.updFinal
      let c := if flashOk then c.updEffect r else c.updFails r
      (c.modSec fun s => { s with updRun := none }).updStatus (if flashOk then final else 7)

/-! ### Blobs and records (R442) -/

/-- Refuse a write that fails its checks. -/
def Core.refuseWrite (c : Core) : Nat × Core := (stType, c.raise (secEv 0xC023))

/-- Write a record to both devices, one after the other (R426): first to that whose copy the other's valid one outlives;
the times it takes are free. (log 154: DESIGN CHOICE) -/
def Core.twoCopies (c : Core) (off : Nat) (b : List Byte) (ok : Flash → Bool) : Core :=
  let m := c.module_
  let d := firstDev (ok m.flash0) (ok m.flash1)
  let running := m.writes.filter fun w => c.now < w.second
  let start := running.foldl (fun t w => max t w.second) c.now
  let (x, c) := c.draw (2 ^ 32)
  let (y, c) := c.draw (2 ^ 32)
  let w : FlashWrite :=
    { off := off, dev := d, oldA := Flash.read (m.flash d) off b.length, oldB := Flash.read (m.flash (1 - d)) off b.length
      start := start, first := start + x, second := start + x + y, cfg := m.shippedCfg, ctl := m.shippedCtl }
  (c.modModule fun m => { ((m.put 0 off b).put 1 off b) with writes := running ++ [w] }).flashed (2 * b.length)

/-- A blob replaces the blob of its kind in the set; the sequence rises. -/
def blobOp (data : List Byte) (c : Core) : Nat × Core :=
  let m := c.module_
  if data.length < 256 ∨ data.length ≠ 256 + numAt data 24 4 ∨ !blobOk m c.keys data then c.refuseWrite
  else
    let kind := numAt data 5 1
    let (seq, old) := match (setInForce m c.keys).1 with
      | some s => (numAt s.1 4 4, s.2)
      | none => (c.obj 0xC400 0, [])
    let blobs := (old.filter fun b => numAt b 5 1 < kind) ++ [data] ++ (old.filter fun b => kind < numAt b 5 1)
    let c := c.twoCopies configOff (setBytes (seq + 1) blobs) fun f => setOk m c.keys (readSet f)
    (stOk, c.modModule fun m => { m with shippedCfg := m.shippedCfg && kind != 1 })

def execConfigBlobWrite (src : Src) (data : List Byte) : State → Res :=
  lift fun dev c => c.gated dev src 0xC401 0 (blobOp data)

/-- Where an enrolment record is written (log 15: DESIGN CHOICE): in the place of the one in force, or in the middle of
the area. -/
def enrolOff (k : Keys) (m : Module) : Nat := ((enrolInForce m k).map (·.1)).getD (identityOff + 0x80000)

def enrolOp (data : List Byte) (c : Core) : Nat × Core :=
  let off := enrolOff c.keys c.module_
  if data.length ≠ 256 ∨ !enrolOk c.keys c.module_.serial data then c.refuseWrite
  else (stOk, c.twoCopies off data fun f => enrolOk c.keys c.module_.serial (Flash.read f off 256))

def execEnrolWrite (src : Src) (data : List Byte) : State → Res :=
  lift fun dev c => c.gated dev src 0xC410 0 (enrolOp data)

/-- Is an override record signed by a debug key for this module and, where it names hardware, for its revision (R429,
R442)? (log 16: DEDUCED) -/
def overrideOk (c : Core) (r : List Byte) : Bool :=
  numAt r 0 4 == overrideMagic && numAt r 8 8 == c.module_.serial &&
    sigAny (c.sec.debugKeys ++ c.sec.ownerDebugKeys) (bytesAt r 0 192) (bytesAt r 192 64) &&
    (!(bytesAt r 80 64).all (· == 0) || numAt r 144 2 == c.module_.hwRev)

def overrideOp (data : List Byte) (c : Core) : Nat × Core :=
  if data.length ≠ 256 ∨ !overrideOk c data then c.refuseWrite
  else (stOk, c.twoCopies overrideOff data fun f => overrideOk c (Flash.read f overrideOff 256))

def execOverrideWrite (src : Src) (data : List Byte) : State → Res :=
  lift fun dev c => c.gated dev src 0xC420 0 (overrideOp data)

end Sys2Proof.Machine
end

