-- ==== Sys2Proof/Machine/Hods.lean ====
section
/-! DEFINITION. The hod table (R272), the journal (R288) and the reduced images (Table 9.3) as they stand in memory;
sets of members; effective owners (R275, R276). -/

namespace Sys2Proof.Machine

/-- The step unit and the exchange. -/
def stepSrc : Nat := srcOf 0x13 0

/-- The exchange reads memory: slots are spent (R309); poison fails the operation that reads, with 0x9011 (R325). False:
it fails, and ends without effect. -/
def Core.xRead (c : Core) (a n : Nat) : Bool × Core :=
  if n = 0 then (true, c)
  else
    let c := c.touch a n
    if c.poisoned a n then (false, c.raise { code := 0x9011, source := stepSrc, fmt := 2, detail := detail2 a 0 })
    else (true, c)

/-! ### Sets of members -/

/-- A 256-bit set of member numbers. -/
def bitmap (ms : List Nat) : Nat := ms.foldl (fun a m => a ||| 2 ^ m) 0

/-- The members of a 256-bit set, rising. -/
def membersOf (x : Nat) : List Nat := (List.range 256).filter fun m => bitAt x m

/-- Set operations on lists of members. -/
def minus (a b : List Nat) : List Nat := a.filter fun m => !b.contains m
def meets (a b : List Nat) : List Nat := a.filter fun m => b.contains m

/-- The member after m in increasing number, wrapping (R276, R284). -/
def nextOf (ms : List Nat) (m : Nat) : Option Nat :=
  match ms.find? (fun x => m < x) with
  | some x => some x
  | none => ms.head?

/-- The lowest-numbered member: the leader (R275). -/
def leaderOf (ms : List Nat) : Option Nat := ms.head?

/-- The CRC-64 of a membership, as its 32 bytes. -/
def membershipCrc (ms : List Nat) : Nat := crc64 (toLE 32 (bitmap ms))

/-- older(a, b) of R280. -/
def older (a b : Nat) : Bool := 1 ≤ (b + 2 ^ 32 - a) % 2 ^ 32 && (b + 2 ^ 32 - a) % 2 ^ 32 < 2 ^ 31

/-! ### The hod table (Table 9.1) -/

/-- A hod table entry. -/
structure HodRow where
  r : Nat
  n : Nat
  k0 : Nat
  layer : Nat
  owner : Nat
  ring : Bool
  imgOff : Nat
  ringOff : Nat
  deriving DecidableEq, Repr

/-- Hods in the table (0x8010:02). -/
def Core.hodCount (c : Core) : Nat := c.obj 0x8010 2

/-- The entry of a hod. -/
def Core.hod (c : Core) (h : Nat) : HodRow :=
  let b := c.bytes (c.obj 0x8010 1 + 32 * h) 32
  { r := numAt b 0 4, n := numAt b 4 4, k0 := numAt b 8 4, layer := numAt b 12 2, owner := numAt b 14 1
    ring := bitAt (numAt b 15 1) 0, imgOff := numAt b 16 8, ringOff := numAt b 24 4 }

/-- The entry of a hod is read. -/
def Core.readHod (c : Core) (h : Nat) : Bool × Core := c.xRead (c.obj 0x8010 1 + 32 * h) 32

/-- Elements and blocks of a hod (R272). -/
def HodRow.elems (x : HodRow) : Nat := x.r * x.n
def HodRow.blocks (x : HodRow) : Nat := x.r * x.n / 32

/-- Where an image's data begins, and an image's bytes (Table 9.3). -/
def HodRow.dataOff (x : HodRow) : Nat := 128 + roundUp (2 * x.blocks) 64
def HodRow.imgBytes (x : HodRow) : Nat := x.dataOff + 32 * x.blocks + (if x.ring then roundUp x.blocks 64 else 0)

/-- Where a hod's image lies. -/
def Core.imgAddr (c : Core) (h : Nat) : Nat := c.obj 0x8012 1 + (c.hod h).imgOff

/-- Where the agreed exponent of a ring hod's block lies. -/
def Core.ringAddr (c : Core) (h i : Nat) : Nat := c.obj 0x8012 4 + 64 * (c.hod h).ringOff + i

/-! ### The journal (Table 9.4) -/

def Core.jAddr (c : Core) (h : Nat) : Nat := c.obj 0x8012 3 + 16 * h
def Core.jFlags (c : Core) (h : Nat) : Nat := c.num (c.jAddr h) 1 % 8
def Core.jStep (c : Core) (h : Nat) : Nat := c.num (c.jAddr h + 4) 4
def Core.jFp (c : Core) (h : Nat) : Nat := c.num (c.jAddr h + 8) 8
def Core.jHeld (c : Core) (h : Nat) : Bool := bitAt (c.jFlags h) 0
def Core.jStarted (c : Core) (h : Nat) : Bool := bitAt (c.jFlags h) 1
def Core.jApplied (c : Core) (h : Nat) : Bool := bitAt (c.jFlags h) 2

/-- The whole journal is read. -/
def Core.readJournal (c : Core) : Bool × Core := c.xRead (c.obj 0x8012 3) (16 * c.hodCount)

/-- Give an entry its step and flags; the fingerprint stays. -/
def Core.setJ (c : Core) (h step flags : Nat) : Core := c.put (c.jAddr h) (toLE 4 flags ++ toLE 4 step)

/-- Store a fingerprint. -/
def Core.setFp (c : Core) (h fp : Nat) : Core := c.put (c.jAddr h + 8) (toLE 8 fp)

/-- Is the image of a step held? -/
def Core.heldFor (c : Core) (h step : Nat) : Bool := c.jHeld h && c.jStep h == step

/-- Hods started and not applied, of a step. -/
def Core.tornHods (c : Core) (step : Nat) : List Nat :=
  (List.range c.hodCount).filter fun h => c.jStep h == step && c.jStarted h && !c.jApplied h

/-- The summary of R294. -/
def Core.summaryNow (c : Core) : Nat := crc64 ((List.range c.hodCount).flatMap fun h => toLE 8 (c.jFp h))

/-! ### What the images of a step say -/

/-- Images closed at deadline (R296). -/
def Core.imgDeadlines (c : Core) (step : Nat) : Nat :=
  ((List.range c.hodCount).filter fun h => c.heldFor h step && bitAt (c.num (c.imgAddr h + 51) 1) 0).length

/-- Escalated blocks over the images of a step (R296). -/
def Core.imgEscalated (c : Core) (step : Nat) : Nat :=
  ((List.range c.hodCount).map fun h => if c.heldFor h step then c.num (c.imgAddr h + 64) 4 else 0).sum

/-- The headers of the images of a step are read: whether all are whole. -/
def Core.readImages (c : Core) (step : Nat) : Bool × Core :=
  (List.range c.hodCount).foldl
    (fun (p : Bool × Core) h =>
      if p.2.heldFor h step then
        let r := p.2.xRead (p.2.imgAddr h) 128
        (p.1 && r.1, r.2)
      else p) (true, c)

/-- G of R250: the squared norms of the images in hod-number order, FP64. -/
def Core.gradSquare (c : Core) (step : Nat) : Num :=
  (List.range c.hodCount).foldl
    (fun g h => if c.heldFor h step then dadd g (f64 (c.num (c.imgAddr h + 52) 8)) else g) (.zero false)

/-! ### Membership (R275, R276) -/

/-- The members that an ABANDON of the step before a step names silent, where that came before the open of either
(R275). -/
def Core.silentAt (c : Core) (step : Nat) : List Nat :=
  (c.xch.silent.filter fun p => (p.1 + 1) % 2 ^ 32 == step).flatMap (·.2)

/-- The membership of the open of a step: members admitted from it join, those named silent are left out. -/
def Core.membersAt (c : Core) (step : Nat) : List Nat :=
  minus ((c.xch.admits.filter fun p => p.2 == step).foldl (fun ms p => insertNat p.1 ms) c.xch.next) (c.silentAt step)

/-- The effective owner of a hod under a membership. -/
def ownerIn (ms : List Nat) (owner : Nat) : Nat :=
  if ms.contains owner then owner else (nextOf ms owner).getD owner

/-- The membership of the head step, or of the next open. (log 57: DEDUCED) -/
def Core.membersFor (c : Core) (step : Nat) : List Nat :=
  match c.stp.head, c.stp.tail with
  | some s, t =>
    if s.step = step then s.members
    else match t with
      | some u => if u.step = step then u.members else c.membersAt step
      | none => c.membersAt step
  | none, some u => if u.step = step then u.members else c.membersAt step
  | none, none => c.membersAt step

end Sys2Proof.Machine
end

