-- ==== Sys2Proof/Machine/Steps.lean ====
section
/-! DEFINITION. The training step (chapter 8): opens, the pallet and its microbatches, norms, commit and clipping,
abort, close and the step record, bank requests and grants. -/

namespace Sys2Proof.Machine

/-! ### Norm slots (Table 8.4) -/

def Norm.bytes (x : Norm) : List Byte :=
  toLE 4 x.gsq ++ toLE 4 x.gmax ++ toLE 4 x.wsq ++ toLE 4 x.dsq ++ toLE 4 x.dmax ++ toLE 4 x.wmax ++ toLE 4 x.elems ++
    toLE 4 0

/-- The slot of a layer. -/
def StepSlot.norm (s : StepSlot) (layer : Nat) : Norm := KMap.getD s.norms layer {}

/-- The FP32 sum of one field over the slots, layer by layer. -/
def StepSlot.normSum (s : StepSlot) (f : Norm → Nat) : Nat :=
  f32Code (s.norms.foldl (fun a p => fadd a (f32 (f p.2))) (.zero false))

/-- Gradient blocks of the head step: sum of squares and largest magnitude (R124, R249). -/
def Core.addGradNorm (c : Core) (layer : Nat) (sq mx : Num) : Core :=
  if 4096 ≤ layer then c
  else
    let f (s : StepSlot) : StepSlot :=
      let n := s.norm layer
      let m := f32 n.gmax
      let n := { n with gsq := f32Code (fadd (f32 n.gsq) sq), gmax := f32Code (if Num.absGt mx m then rnd32 mx.abs else m) }
      { s with norms := KMap.set s.norms layer n }
    { c with stp := { c.stp with head := c.stp.head.map f } }

/-! ### The step record (R264, Table 8.6, R296) -/

/-- Increments of a counter so far. (log 54: DEDUCED) -/
def Core.inc (c : Core) (index sub : Nat) : Nat := KMap.getD c.incs (okey index sub) 0

/-- Late contributions discarded so far (R296). -/
def Core.lateCount (c : Core) : Nat := c.inc 0x8880 5 + c.inc 0x8880 6

/-- A record as it stands: for a step that has not committed, with what the images and trackers say now.
(log 54: DEDUCED) -/
def Core.recordBytes (c : Core) (s : StepSlot) : List Byte :=
  let isHead := s.st == 1
  let bit (b : Bool) (i : Nat) : Nat := if b then 2 ^ i else 0
  let wide := if isHead then c.fwd.wideStep else s.wide
  let flags := bit wide 0 + bit s.switched 1 + bit s.force 2 + bit (Num.lt (f32 s.kappa) (.ofNat 1)) 3 +
    bit s.nonfinite 4 + bit s.published 5 + bit s.dropped 6 + bit s.torn 7
  let body := toLE 4 s.step ++ toLE 4 s.base ++ toLE 4 s.version ++ toLE 1 s.st ++ toLE 1 flags ++
    toLE 2 (if isHead then c.layersWidened 2 else s.widened) ++ toLE 2 s.n ++ toLE 2 s.full ++ toLE 2 s.firstB ++
    toLE 2 0 ++ toLE 8 s.highWater ++ toLE 8 s.reclaimed ++ toLE 8 s.gsum ++ toLE 4 s.kappa ++
    toLE 4 (s.normSum Norm.wsq) ++ toLE 4 (s.normSum Norm.dsq) ++ toLE 4 (min s.kept (2 ^ 32 - 1)) ++ toLE 8 0 ++
    toLE 8 s.tOpen ++ toLE 8 s.tFirstB ++ toLE 8 s.tLastClose ++ toLE 8 s.tCommit ++ toLE 8 s.tGrant ++
    toLE 8 s.tPublish ++ toLE 8 s.tClose ++ toLE 4 s.hods ++
    toLE 4 (if isHead then c.imgDeadlines s.step else s.deadlines) ++ toLE 4 (c.lateCount - s.late) ++
    toLE 4 (if isHead then c.imgEscalated s.step else s.escalated) ++ toLE 32 (bitmap s.commitSet) ++
    toLE 4 (c.inc 0x3880 7 - s.farOff) ++ toLE 4 (c.inc 0x3880 8 - s.replayed) ++
    toLE 4 (if isHead then 0 else c.inc 0x3008 6 - s.saturated) ++ toLE 4 s.applied ++ toLE 4 s.skipped ++
    toLE 4 s.exports ++ toLE 4 s.forced ++ List.replicate 48 0
  body ++ toLE 4 (crc32c body)

/-- Change the tail step. -/
def Core.modTail (c : Core) (f : StepSlot → StepSlot) : Core := { c with stp := { c.stp with tail := c.stp.tail.map f } }

/-- Change the head step. -/
def Core.modHead (c : Core) (f : StepSlot → StepSlot) : Core := { c with stp := { c.stp with head := c.stp.head.map f } }

/-- Write an area the step unit owns; an area no plain access reaches is skipped. (log 64: DEDUCED) -/
def Core.putArea (c : Core) (a : Nat) (bs : List Byte) : Core := if (c.plainBad a bs.length).isSome then c else c.put a bs

/-- The tail step closes: its norm slots and its record are written (R249, R264). -/
def Core.closeStep (c : Core) : Core :=
  match c.stp.tail with
  | none => c
  | some s =>
    let s := { s with st := 5, tClose := c.now }
    let bs := c.recordBytes s
    let nb := c.obj 0x7320 1
    let norms := (List.range 4096).flatMap fun l => (s.norm l).bytes
    let c := if nb = 0 then c else c.putArea (nb + s.step % c.obj 0x7320 2 * 4096 * 32) norms
    let rb := c.obj 0x7310 1
    let c := if rb = 0 then c else c.putArea (rb + s.step % c.obj 0x7310 2 * 256) bs
    ({ c with stp := { c.stp with tail := none, last := bs } }).bump 0x7880 2 1

/-! ### Opens (R239, R242) -/

/-- The checks of R239 and R265 for type 0x70. -/
def Core.openChecks (c : Core) (x : Desc) : List (Bool × Nat × Nat × Nat) :=
  let s := x.f 16 4
  let n := x.f 24 2
  let al (v : Nat) : Bool := v % 4096 == 0
  let clip := f32 (x.f 56 4)
  [(!c.stp.everOpened || s == (c.step + 1) % 2 ^ 32, 0x7001, 16, s),
   (1 ≤ n && n ≤ 16383, 0x7001, 24, n),
   (x.f 26 1 / 2 == 0, 0x7001, 26, x.f 26 1),
   (x.f 27 1 == 0, 0x7001, 27, x.f 27 1),
   (x.f 28 2 / 4096 == 0, 0x7001, 28, x.f 28 2),
   (x.f 30 2 == 0, 0x7001, 30, x.f 30 2),
   (al (x.f 32 8), 0x7001, 32, x.f 32 4),
   (al (x.f 40 8), 0x7001, 40, x.f 40 4),
   (al (x.f 48 8) && x.f 48 8 != 0, 0x7001, 48, x.f 48 4),
   (!clip.nonFinite && !Num.lt clip (.zero false), 0x7001, 56, x.f 56 4),
   (x.f 60 4 == 0, 0x7001, 60, x.f 60 4),
   (n * x.f 32 8 + x.f 48 8 ≤ c.palCap, 0x7002, 24, n)]

/-- A step open passes issue and waits to take effect. -/
def execStepOpen (d : Nat) : State → Res :=
  lift fun dev c =>
    c.issue dev d [0x70] (fun _ => []) fun x c =>
      c.checked d stepSrc (c.openChecks x) fun c => { c with stp := { c.stp with opens := c.stp.opens ++ [d] } }

/-- Do the two conditions of R239 hold for a step? -/
def Core.openReady (c : Core) (step : Nat) : Bool :=
  c.stp.head.isNone && (match c.stp.tail with
    | none => true
    | some t => (t.step + 1) % 2 ^ 32 == step)

/-- The open of a step takes effect: the step number advances, with all that R95, R140, R141, R154 and R157 tie to it.
(log 63: DEDUCED) -/
def Core.openStep (c : Core) (d : Nat) (x : Desc) : Core :=
  let s := x.f 16 4
  let n := x.f 24 2
  let b := x.f 32 8
  let r := x.f 48 8
  let force := bitAt (x.f 26 1) 0
  let ms := c.membersAt s
  let c := c.advanceTrackers c.step
  let slot : StepSlot :=
    { step := s, base := x.f 20 4, tally := x.f 28 2 % 4096, clip := x.f 56 4, n := n, force := force, members := ms
      highWater := n * b + r, tOpen := c.now, hods := c.hodCount, late := c.lateCount, farOff := c.inc 0x3880 7
      replayed := c.inc 0x3880 8 }
  let pal : Pallet := { n := n, b := b, i := x.f 40 8, r := r, force := force, tail := n * b + r }
  let c := { c with
    step := s
    log := { c.log with onceStep := [] }
    fwd := { c.fwd with seeds := [] }
    stp := { c.stp with
      isOpen := true, pal := pal, head := some slot, everOpened := true, openedSinceBoot := true, claims := []
      opens := c.stp.opens.filter (· != d) }
    xch := { c.xch with
      slots := [], closed := [], deposited := [], dropEnd := [], imgFails := [], voted := false, next := ms, last := ms
      admits := c.xch.admits.filter fun p => p.2 != s, silent := c.xch.silent.filter fun p => !older p.1 s } }
  ((c.bump 0x7880 1 1).workDone d).signalNow d

/-! ### Microbatches (R245) -/

/-- The checks of R265 and R266 for type 0x71. -/
def Core.mbChecks (c : Core) (x : Desc) : List (Bool × Nat × Nat × Nat) :=
  let m := x.f 16 2
  let mb := KMap.get? c.stp.pal.mbs m
  [(x.f 18 1 == 1 || x.f 18 1 == 2, 0x7003, 18, x.f 18 1),
   ((bytesAt x.bytes 19 5).all (· == 0), 0x7003, 19, x.f 19 4),
   (c.stp.isOpen && m < c.stp.pal.n, 0x7003, 16, m),
   (if x.f 18 1 = 1 then mb.isNone else (match mb with
      | some y => !y.closed
      | none => false), 0x7003, 16, m)]

/-- Do two claims share a byte? -/
def overlap (a b : Nat × Nat) : Bool := a.1 < b.2 && b.1 < a.2 && a.1 < a.2 && b.1 < b.2

/-- Claims of open FULL microbatches. -/
def Core.openClaims (c : Core) : List (Nat × Nat) :=
  c.stp.pal.mbs.filterMap fun p =>
    if p.2.full && !p.2.closed then some (p.2.base, p.2.base + c.stp.pal.i) else none

/-- Bytes of closed claims that a claim lands on, and the closed bytes that are left. -/
def reclaim (x : Nat × Nat) (cs : List (Nat × Nat)) : Nat × List (Nat × Nat) :=
  (((cs.filter (overlap x)).map fun c => min x.2 c.2 - max x.1 c.1).sum,
   cs.flatMap fun c =>
     if overlap x c then
       (if c.1 < x.1 then [(c.1, x.1)] else []) ++ (if x.2 < c.2 then [(x.2, c.2)] else [])
     else [c])

/-- The ring base a FULL open would claim (R245); none where there is no room. -/
def Core.ringClaim (c : Core) : Option Nat :=
  let p := c.stp.pal
  let x := if c.palCap < p.tail + p.i then p.n * p.b + p.r else p.tail
  if p.force || p.latched || c.openClaims.any (overlap (x, x + p.i)) then none else some x

/-- A microbatch opens FULL at ring base x. -/
def Core.openFull (c : Core) (m x : Nat) : Core :=
  let p := c.stp.pal
  let (n, cs) := reclaim (x, x + p.i) c.stp.claims
  let mb : Mb := { full := true, base := x, closed := false }
  let c := { c with stp := { c.stp with
    pal := { p with mbs := KMap.set p.mbs m mb, tail := x + p.i }, claims := cs } }
  (c.modHead fun (s : StepSlot) => { s with
    full := s.full + 1, reclaimed := s.reclaimed + n, highWater := max s.highWater (x + p.i) }).bump 0x7880 3 1

/-- A microbatch opens BOUNDARY, for this descriptor. -/
def Core.openBoundary (c : Core) (d m : Nat) : Core :=
  let p := c.stp.pal
  let mb : Mb := { full := false, base := 0, closed := false }
  let first := !p.force && !p.latched
  let c := { c with stp := { c.stp with
    pal := { p with mbs := KMap.set p.mbs m mb, latched := p.latched || first } } }
  let c := c.modHead fun (s : StepSlot) => { s with
    switched := s.switched || first, firstB := if s.firstB = 0xFFFF then m else s.firstB
    tFirstB := if s.firstB = 0xFFFF then c.now else s.tFirstB }
  let c := c.bump 0x7880 4 1
  if first then c.raise { code := 0x7010, source := stepSrc, d := some d } else c

/-- A type 0x71 descriptor at issue: its op is the command's; a bad op is rejected as an OPEN. -/
def Core.mbIssue (c : Core) (dev : Dev) (d op : Nat) (body : Desc → Core → Core) : Core :=
  match c.desc? d with
  | none => c
  | some x =>
    if x.f 18 1 = op ∨ (op = 1 ∧ x.f 18 1 ≠ 2) then
      c.issue dev d [0x71] (fun _ => []) fun x c =>
        c.checked d stepSrc (c.mbChecks x) fun c =>
          match c.auxBad (x.f 24 8) 8 with
          | some e => c.rejectAccess d stepSrc 24 e
          | none => body x c
    else c

def execMicrobatchOpen (d : Nat) : State → Res :=
  lift fun dev c =>
    c.mbIssue dev d 1 fun x c =>
      let m := x.f 16 2
      let (mode, c) := match c.ringClaim with
        | some b => (1, c.openFull m b)
        | none => (2, c.openBoundary d m)
      (if x.f 24 8 = 0 then c else c.put (x.f 24 8) (toLE 8 mode)).workDone d

/-- The mode a CLOSE reports. -/
def Mb.mode (m : Mb) : Nat := if m.full then 1 else 2

def execMicrobatchClose (d : Nat) : State → Res :=
  lift fun dev c =>
    c.mbIssue dev d 2 fun x c =>
      let m := x.f 16 2
      match KMap.get? c.stp.pal.mbs m with
      | none => c
      | some mb =>
        let p := c.stp.pal
        let c := { c with stp := { c.stp with
          pal := { p with mbs := KMap.set p.mbs m { mb with closed := true } }
          claims := if mb.full && p.i != 0 then c.stp.claims ++ [(mb.base, mb.base + p.i)] else c.stp.claims } }
        let c := c.modHead fun (s : StepSlot) => { s with tLastClose := c.now }
        (if x.f 24 8 = 0 then c else c.put (x.f 24 8) (toLE 8 mb.mode)).workDone d

/-! ### Banks (R258, R259, R71) -/

def Core.bankBase (c : Core) (b : Nat) : Nat := c.obj (0x7200 + b) 3
def Core.bankBytes (c : Core) (b : Nat) : Nat := c.obj (0x7200 + b) 4

/-- Weight slots whose key address is hit become stale (R71). -/
def Core.staleSlots (c : Core) (hit : Nat → Bool) : Core :=
  { c with fwd := { c.fwd with tiles := c.fwd.tiles.map fun (p : Nat × Tile) =>
      (p.1, { p.2 with slots := p.2.slots.map fun (q : Nat × WSlot) =>
        (q.1, if hit q.2.addr then { q.2 with stale := true } else q.2) }) } }

/-- The target bank: the one that is not NEWEST, or bank 0. -/
def Core.targetBank (c : Core) : Nat := if c.newest = some 0 then 1 else 0

/-- The step requests its bank; readers start the hold (R216). -/
def Core.requestBank (c : Core) : Core :=
  let b := c.targetBank
  (c.setBank b { c.bank b with state := 3, reqAt := c.now, byStep := true }).startHold b

/-- Readers and export references of a bank are zero. -/
def Core.bankFree (c : Core) (b : Nat) : Bool := c.readers b == 0 && (c.bank b).exports == 0

/-- A REQUESTED bank is granted to the tail step. -/
def execBankGrant (b : Nat) : State → Res :=
  lift fun dev c =>
    let x := c.bank b
    if runsWork dev && b < 2 && x.state == 3 && c.bankFree b then
      let c := c.setBank b { x with state := 4, holds := false }
      let c := c.staleSlots fun a =>
        (c.bankBase b ≤ a && a < c.bankBase b + c.bankBytes b) || c.inPart 1 a 1
      let c := c.modTail fun (s : StepSlot) => { s with st := 3, tGrant := c.now }
      ({ c with roll := { c.roll with hold := none } }).bump 0x7880 0xD (c.now - x.reqAt)
    else c

/-! ### Commit, abort (R240, R250, R292) -/

/-- κ of R250: min(1, c / √G) for c > 0, in FP64 and then FP32. -/
def clipFactor (clip g : Num) : Nat :=
  if clip.isZero || g.isZero then 0x3F800000
  else
    let q := ddiv clip (dsqrt g)
    if Num.lt q (.ofNat 1) then f32Code (rnd32 q) else 0x3F800000

/-- The commit of the head step with commit set `cset` (R240); where an image's header is poisoned, G is a free value
(log 52: DEDUCED). -/
def Core.commitStep (c : Core) (cset : List Nat) : Core :=
  match c.stp.head with
  | none => c
  | some s =>
    let c := c.addTally s.tally 1
    let (whole, c) := c.readImages s.step
    let (v, c) := if whole then (0, c) else c.draw (2 ^ 64)
    let g := if whole then c.gradSquare s.step else f64 v
    let s := { s with
      st := 2, commitSet := cset, dropped := cset != s.members, deadlines := c.imgDeadlines s.step
      escalated := c.imgEscalated s.step, wide := c.fwd.wideStep, widened := c.layersWidened 2, gsum := f64Code g
      nonfinite := g.nonFinite, kappa := if g.nonFinite then 0 else clipFactor (f32 s.clip) g, tCommit := c.now
      saturated := c.inc 0x3008 6 }
    let c := { c with
      stp := { c.stp with isOpen := false, pal := {}, claims := [], head := none, tail := some s }
      xch := { c.xch with fpSent := false } }
    let c := if g.nonFinite then c.raise { code := 0x7011, source := stepSrc } else c
    c.requestBank

/-- The exchange abandons the head step (Table 8.1, R292). (log 63: DEDUCED) -/
def Core.abortHead (c : Core) : Core :=
  { c with
    stp := { c.stp with isOpen := false, pal := {}, claims := [], head := none }
    xch := { c.xch with slots := [], closed := List.range c.hodCount } }

end Sys2Proof.Machine
end

