-- ==== Sys2Proof/Machine/Exchange.lean ====
section
/-! DEFINITION. The gradient exchange (chapter 9): messages, votes and commits, images, accumulator slots, closing a
hod, ring hops, deposits, and the send buffers. -/

namespace Sys2Proof.Machine

/-- The device states in which the exchange works (R301). -/
def exServes (dev : Dev) : Bool := dev == .ready || dev == .run || dev == .drain

/-- An exchange event (detail format 7). -/
def xEv (code own hod member kind : Nat) : Ev :=
  { code := code, own := own, source := stepSrc, fmt := 7, detail := detail7 hod member kind }

/-! ### Messages (Table 9.2) -/

/-- The 240 bytes of a message. -/
def msgBytes (m : XMsg) : List Byte :=
  toLE 4 m.step ++ toLE 4 m.hod ++ toLE 4 m.first ++ toLE 2 0 ++ toLE 1 m.kind ++ toLE 1 m.sender ++ toLE 1 m.count ++
    toLE 1 m.esc ++ toLE 2 m.contribs ++ toLE 4 m.sent ++ toLE 8 m.imageOff ++ bytesAt m.payload 0 204 ++ toLE 4 0

/-- A message of this member with no fields set but these. -/
def Core.xmsg (c : Core) (kind step hod : Nat) (payload : List Byte) : XMsg :=
  { step := step, hod := hod, first := 0, kind := kind, sender := c.me, count := 0, esc := 0, contribs := 0, sent := 0,
    imageOff := 0, payload := bytesAt payload 0 204 }

/-- Hand a class-0 message over: it takes a reserved tag, and waits where there is none (R364); without a route it ends
(R349). (log 23: DESIGN CHOICE) -/
def Core.handCmd (c : Core) (tgt : Nat) (m : XCmd) : Core :=
  match c.freeTag .xcmd with
  | none => { c with xch := { c.xch with waits0 := c.xch.waits0 ++ [(tgt, m)] } }
  | some t =>
    let (bs, c) := c.drawBytes 240
    let c := { c with xch := { c.xch with sent := (tgt, m) :: c.xch.sent } }
    match c.send (c.mkFlit 0 tgt 7 t bs) with
    | some c => c.openTxn t { use := .xcmd, peer := tgt, addr := 0, len := 240, got := [], at_ := c.now }
    | none => c

/-- Send a class-0 message to another member. (log 23: DESIGN CHOICE) -/
def Core.sendCmd (c : Core) (tgt : Nat) (m : XCmd) : Core := if tgt = c.me then c else c.handCmd tgt m

/-- Send a class-0 message to several members, leaving this one out. -/
def Core.sendCmds (c : Core) (tos : List Nat) (m : XCmd) : Core := tos.foldl (fun c tgt => c.sendCmd tgt m) c

/-- A message enters a send buffer of 16,384 (R278); the store path's waits at a full one have no stated length, a free
value (log 4: DESIGN CHOICE). -/
def Core.queueOut (c : Core) (die tgt : Nat) (m : XMsg) (d : Option Nat := none) : Core :=
  let o : OutMsg := { die := die, tgt := tgt, msg := m, d := d }
  let full := 16384 ≤ (c.xch.out.filter fun x => x.die == die).length
  let c := { c with xch := { c.xch with out := c.xch.out ++ [o] } }
  if full && d.isSome then
    let (n, c) := c.draw (2 ^ 32)
    c.bump 0x8880 8 n
  else c

/-- Answer a message (Table 11.6): the answer is kept, and sent as an XANS when the flit that carried the message is
found among the delivered ones; it leaves with others (R347). `bytes` are the message's own where the manual gives
them. (log 53: DEDUCED) -/
def Core.answerX (c : Core) (member code : Nat) (bytes : Option (List Byte)) : Core :=
  let c := { c with xch := { c.xch with answer := some (member, code) } }
  let hit (any : Bool) (x : Flit) : Bool := x.tkind == 7 && (any || x.src == member) && (match bytes with
    | some b => x.cls == 1 && x.payload == b
    | none => x.cls == 0)
  let sent (any : Bool) : Option (Nat × Port × Flit) := c.links.ports.findSome? fun p =>
    (p.2.delivered.find? (hit any)).map fun x => (p.1, p.2, x)
  match (sent false).or (if bytes.isNone then sent true else none) with
  | none => c
  | some (f, p, x) => (c.setPort f { p with delivered := p.delivered.erase x }).pushAnswer x.src x.cls x.tag code

/-! ### COMMIT and ABANDON at a member (R240, R291, R292) -/

/-- A COMMIT that waits takes effect once its step is OPEN and the tail slot is free (Table 9.7, step 6; R238).
(log 55: DEDUCED) -/
def Core.applyHeld (c : Core) : Core :=
  match c.xch.heldCommit, c.stp.head with
  | some k, some s =>
    if s.step = k.step ∧ c.stp.tail.isNone then
      ({ c with xch := { c.xch with heldCommit := none } }).commitStep k.c
    else c
  | _, _ => c

/-- The members and the admissions after a COMMIT (R275). (log 56: DEDUCED) -/
def Core.noteCommit (c : Core) (k : Commit) (next : List Nat) : Core :=
  { c with xch := { c.xch with
      seen := k.step :: c.xch.seen, next := next, listened := k.listeners
      admits := c.xch.admits ++ k.admitted.map fun m => (m, k.admitStep) } }

/-- A member takes a COMMIT; `own` is the leader's own copy, which it has already sent to all. (log 55: DEDUCED) -/
def Core.takeCommit (c : Core) (k : Commit) (own : Bool) : Core :=
  if c.xch.seen.contains k.step then c
  else if k.listeners.contains c.me then
    let c := (c.noteCommit k k.c).bump 0x8880 0xF 1
    ({ c with xch := { c.xch with heldCommit := some k } }).applyHeld
  else if c.xch.abandoned.contains k.step then
    ({ c with xch := { c.xch with seen := k.step :: c.xch.seen } }).raise (xEv 0x8033 3 0 c.me 0)
  else
    let ms := c.membersFor k.step
    if !ms.contains c.me || (c.stp.everOpened && older k.step c.step) then c
    else if !k.c.contains c.me then
      ({ c with xch := { c.xch with seen := k.step :: c.xch.seen } }).raise (xEv 0x8031 3 0 c.me 0)
    else
      let c := if own then c else c.sendCmds ms (.commit k.step k.c k.listeners k.admitted k.admitStep)
      let c := (c.noteCommit k (minus c.xch.next (minus ms k.c))).bump 0x8880 0xF 1
      ({ c with xch := { c.xch with heldCommit := some k } }).applyHeld

/-- The step of an ABANDON is the head step: it moves to ABORTED (R292). -/
def Core.abandonHead (c : Core) (step : Nat) (timeout : Bool) : Core :=
  match c.stp.head with
  | none => c
  | some s =>
    if s.step = step ∧ c.xch.heldCommit.all (fun k => k.step != step) then
      let c := c.abortHead
      let c := { c with xch := { c.xch with abandoned := step :: c.xch.abandoned } }
      let c := (c.bump 0x8880 0x10 1).raise (xEv 0x8030 0 0 c.me 0)
      if timeout then c.raise (xEv 0x8032 0 0 c.me 0) else c
    else c

/-- Members named silent in an ABANDON of a step leave the membership of the step after it (R275): at its open; or now,
where it is the head step already. -/
def Core.takeSilent (c : Core) (step : Nat) (silent : List Nat) : Core :=
  let c := if silent.isEmpty then c else { c with xch := { c.xch with silent := (step, silent) :: c.xch.silent } }
  match c.stp.head with
  | none => c
  | some s =>
    if s.step = (step + 1) % 2 ^ 32 then
      let f (s : StepSlot) : StepSlot := { s with members := minus s.members silent }
      let c := c.modHead f
      { c with xch := { c.xch with next := minus c.xch.next silent } }
    else c

/-- ABANDON of a step, or the timeout of R292. -/
def Core.takeAbandon (c : Core) (step : Nat) (silent : List Nat) (timeout : Bool) : Core :=
  (c.abandonHead step timeout).takeSilent step silent

/-! ### Votes (R289, R290) -/

/-- Change the leader's record. -/
def Core.setLead (c : Core) (l : Leader) : Core := { c with xch := { c.xch with lead := l } }

/-- The leader sends COMMIT for the step of its vote window, naming a member whose rejoin is done. -/
def Core.leadCommit (c : Core) (cset : List Nat) : Core :=
  let s := c.xch.lead.step
  let ls := match c.xch.back with
    | some (m, r) => if (r + 1) % 2 ^ 32 = s then [m] else []
    | none => []
  let k : Commit := { step := s, c := cset, listeners := ls, admitted := ls, admitStep := (s + 1) % 2 ^ 32 }
  let tos := c.membersFor s ++ ls
  let c := { c with xch := { c.xch with
    back := if ls.isEmpty then c.xch.back else none
    lead := { c.xch.lead with
      decided := true, ready := none
      closing := c.xch.lead.closing ++ [({ step := s, c := cset, listeners := ls } : Closing)] } } }
  (c.sendCmds tos (.commit k.step k.c k.listeners k.admitted k.admitStep)).takeCommit k true

/-- The vote window closes (R290). A COMMIT waits while a rejoin granted at the step before has not sent DONE (Table
9.7). -/
def Core.leadDecide (c : Core) : Core :=
  let l := c.xch.lead
  let ms := c.membersFor l.step
  let cset := meets ms l.votes
  if ms.length < 2 * cset.length then
    let c := c.bump 0x8880 0x11 (ms.length - cset.length)
    let waits := match c.xch.granted with
      | some (_, r) => (r + 1) % 2 ^ 32 == l.step
      | none => false
    if waits then c.setLead { l with decided := true, ready := some cset } else c.leadCommit cset
  else
    let silent := minus ms (l.votes ++ l.novotes)
    ((c.setLead { l with decided := true }).sendCmds ms (.abandon l.step silent)).takeAbandon l.step silent false

/-- Has every member of the leader's step sent VOTE or NOVOTE? -/
def Core.leadDone (c : Core) : Bool :=
  let l := c.xch.lead
  (c.membersFor l.step).all fun m => l.votes.contains m || l.novotes.contains m

/-- The leader takes a VOTE or NOVOTE of a step; one of a step before that of its window comes late.
(log 57: DEDUCED) -/
def Core.leadVote (c : Core) (step member : Nat) (novote : Bool) (hodCrc memberCrc : Nat) : Core :=
  let ms := c.membersFor step
  let l := c.xch.lead
  let late := l.windowAt.isSome && older step l.step
  let l : Leader := if l.step = step then l else { step := step, closing := l.closing }
  if late ∨ leaderOf ms ≠ some c.me ∨ !ms.contains member ∨ l.decided ∨ l.votes.contains member ∨ l.novotes.contains member then c
  else
    let bad := !novote && (hodCrc != c.obj 0x8010 3 || memberCrc != membershipCrc ms)
    let c := if bad then c.raise (xEv 0x8036 0 0 member 0) else c
    let l := { l with windowAt := some (l.windowAt.getD c.now) }
    let c := c.setLead (if novote || bad then { l with novotes := member :: l.novotes }
      else { l with votes := member :: l.votes })
    if c.leadDone then c.leadDecide else c

/-- A member sends its VOTE or NOVOTE for the head step, once (R289). (log 57: DEDUCED) -/
def Core.castVote (c : Core) (yes : Bool) : Core :=
  match c.stp.head with
  | none => c
  | some s =>
    match leaderOf s.members with
    | none => c
    | some l =>
      if c.xch.voted then c
      else
        let c := { c with xch := { c.xch with voted := true } }
        let held := ((List.range c.hodCount).filter fun h => c.heldFor h s.step).length
        let hc := c.obj 0x8010 3
        let mc := membershipCrc s.members
        if l = c.me then c.leadVote s.step c.me (!yes) hc mc
        else c.sendCmd l (if yes then .vote s.step c.me hc mc else .novote s.step c.me held)

/-- VOTE once every hod of the head step is held (R289, R274). (log 69: DEDUCED) -/
def Core.checkVote (c : Core) : Core :=
  match c.stp.head with
  | none => c
  | some s =>
    match c.readJournal with
    | (false, c) => c
    | (true, c) => if (List.range c.hodCount).all fun h => c.heldFor h s.step then c.castVote true else c

/-! ### Images (R283) -/

/-- Add a range to a list of ranges, joining those it touches. -/
def addRange (r : Nat × Nat) (rs : List (Nat × Nat)) : List (Nat × Nat) :=
  let near (q : Nat × Nat) : Bool := q.1 ≤ r.2 && r.1 ≤ q.2
  ((rs.filter near).foldl (fun a q => (min a.1 q.1, max a.2 q.2)) r) :: rs.filter fun q => !near q

/-- The tail step keeps the image of a hod not yet applied. (log 59: DEDUCED) -/
def Core.holdOff (c : Core) (h : Nat) : Bool :=
  match c.stp.tail with
  | some t => c.jStep h == t.step && !c.jApplied h
  | none => false

/-- An image with its CRC field in place. -/
def sealImage (img : List Byte) : List Byte :=
  let z := img.take 72 ++ List.replicate 8 0 ++ img.drop 80
  img.take 72 ++ toLE 8 (crc64 z) ++ img.drop 80

/-- Does an image pass the receiver's checks? -/
def imageGood (b : List Byte) (step hod blocks : Nat) : Bool :=
  numAt b 0 4 == magic 0x48 0x4F 0x44 0x52 && numAt b 4 4 == step && numAt b 8 4 == hod && numAt b 12 4 == blocks &&
    sealImage b == b

/-- The hod's image is held: its row of agreed exponents is copied (R286), an owner's slot is released (R279). -/
def Core.imageHeld (c : Core) (h step : Nat) (b : List Byte) : Core :=
  let x := c.hod h
  let c := (c.setJ h step 1).bump 0x8880 0xD 1
  let c := if x.ring then c.put (c.ringAddr h 0) (bytesAt b (x.dataOff + 32 * x.blocks) x.blocks) else c
  let c := { c with xch := { c.xch with
    imgGot := KMap.erase c.xch.imgGot h, slots := c.xch.slots.filter fun a => !(a.hod == h && a.closed) } }
  if c.stp.head.any fun s => s.step == step then c.checkVote else c

/-- A whole image has arrived: it is read and checked, held or asked for again; the third failure sends NOVOTE.
(log 59: DEDUCED) -/
def Core.imageWhole (c : Core) (h step sender : Nat) : Core :=
  let x := c.hod h
  let (ok, c) := c.xRead (c.imgAddr h) x.imgBytes
  let b := c.bytes (c.imgAddr h) x.imgBytes
  if ok && imageGood b step h x.blocks then c.imageHeld h step b
  else
    let n := KMap.getD c.xch.imgFails h 0 + 1
    let c := { c with xch := { c.xch with
      imgGot := KMap.erase c.xch.imgGot h, imgFails := KMap.set c.xch.imgFails h n } }
    let c := (c.bump 0x8880 0xE 1).sendCmd sender (.again c.me h)
    if n = 3 then
      let c := c.raise (xEv 0x8025 0 h sender 5)
      if c.stp.head.any fun s => s.step == step then c.castVote false else c
    else c

/-- Take an IMAGE message: the answer, and the state. (log 59: DEDUCED) -/
def Core.imageIn (c : Core) (m : XMsg) : Nat × Core :=
  let h := m.hod
  let (ok, c) := c.xRead (c.jAddr h) 16
  if !ok then (3, c)
  else if c.holdOff h then (2, c.bump 0x8880 0xA 1)
  else if c.heldFor h m.step then (0, c)
  else
    let c := if c.jStep h ≠ m.step ∨ (KMap.get? c.xch.imgGot h).isNone then
        let c := c.setJ h m.step 0
        { c with xch := { c.xch with imgGot := KMap.set c.xch.imgGot h [] } }
      else c
    let size := (c.hod h).imgBytes
    let n := min 204 (size - m.imageOff)
    let c := if n = 0 then c else c.put (c.imgAddr h + m.imageOff) (bytesAt m.payload 0 n)
    let rs := addRange (m.imageOff, m.imageOff + n) (KMap.getD c.xch.imgGot h [])
    let c := { c with xch := { c.xch with imgGot := KMap.set c.xch.imgGot h rs } }
    (0, if rs.any fun r => r.1 == 0 && size ≤ r.2 then c.imageWhole h m.step m.sender else c)

/-- Queue an image for a member. -/
def Core.queueImage (c : Core) (tgt h step : Nat) (img : List Byte) : Core :=
  (List.range (ceilDiv img.length 204)).foldl
    (fun c i => c.queueOut 0 tgt { c.xmsg 5 step h ((img.drop (204 * i)).take 204) with imageOff := 204 * i }) c

/-! ### Closing a hod (R281, R286) -/

/-- The slot of a hod. -/
def Core.slot? (c : Core) (h : Nat) : Option HodAcc := c.xch.slots.find? fun a => a.hod == h

/-- Replace a hod's slot. -/
def Core.setSlot (c : Core) (a : HodAcc) : Core :=
  { c with xch := { c.xch with slots := c.xch.slots.map fun x => if x.hod == a.hod then a else x } }

/-- The exchange bank's key for a step (R282), and its counter. -/
def Core.exKey (c : Core) (step : Nat) : Nat := mixN (c.obj 0x8030 0 ^^^ mixN step)
def exCtr (hod use elem : Nat) : Nat := hod % 4096 * 2 ^ 52 + use * 2 ^ 50 + elem % 2 ^ 29

/-- A latch under which every block fits its own amax. -/
def Core.ownLatch (c : Core) (layer role : Nat) : Latch := c.noLatch layer 2 role 0

/-- What closing the blocks of a hod has formed so far. -/
structure HodImg where
  words : List Nat := []
  data : List Byte := []
  next : List Nat := []
  norm2 : Num := .zero false
  maxabs : Num := .zero false
  zeros : Nat := 0
  nonfin : Nat := 0
  cnt : Tally5 := {}
  deriving DecidableEq, Repr

/-- The values of a written B8e block. (log 60: DEDUCED) -/
def blkVals (word : Nat) (data : List Byte) : List Num := decodeBlk .b8e word data false 0 none 32

/-- The exact sum of squares of a list. (log 60: DEDUCED) -/
def sumSquares (xs : List Num) : Num := xs.foldl (fun s x => s.add (x.mul x)) (.zero false)

/-- The block's own exponent (R281) and the margin, at most 254 (R285, R286). -/
def marginExp (am : Num) (margin : Nat) : Nat := min 254 (clampE (fitRaw am fmtE5M2.maxNumPos) + margin)

/-- Close block i: divide, convert with SR, sum (R281); for a ring hod the next agreed exponent (R286). -/
def closeBlk (lat : Latch) (key h margin k : Nat) (sums : List Num) (kept : Nat) (i : Nat) (g : HodImg) : HodImg :=
  if k = 0 then
    { g with words := g.words ++ [0], data := g.data ++ List.replicate 32 0, next := g.next ++ [kept], zeros := g.zeros + 1 }
  else
    let v := sums.map fun x => fdiv x (.ofNat k)
    let o := convBlk .b8e lat true false 1 key (exCtr h 0 (32 * i)) v
    let ws := blkVals o.word o.data
    let am := amaxOf sums
    { words := g.words ++ [o.word], data := g.data ++ o.data
      next := g.next ++ [if am.isZero then kept else marginExp am margin]
      norm2 := dadd g.norm2 (sumSquares ws), maxabs := g.maxabs.maxAbs (amaxOf ws), zeros := g.zeros
      nonfin := g.nonfin + (v.filter Num.nonFinite).length, cnt := g.cnt.add o.cnt }

/-- The image of a hod (Table 9.3). -/
def Core.formImage (c : Core) (step h : Nat) (x : HodRow) (a : HodAcc) (deadline : Bool) (contribs : List Nat)
    (g : HodImg) : List Byte :=
  let flags := (if deadline then 1 else 0) + (if x.ring then 2 else 0) + (if x.owner = c.me then 0 else 4)
  let hdr := toLE 4 (magic 0x48 0x4F 0x44 0x52) ++ toLE 4 step ++ toLE 4 h ++ toLE 4 x.blocks ++
    toLE 32 (bitmap contribs) ++ toLE 2 0 ++ toLE 1 c.me ++ toLE 1 flags ++ toLE 8 (f64Code g.norm2) ++
    toLE 4 (f32Code (rnd32 g.maxabs)) ++ toLE 4 (if x.ring then a.escBlocks else 0) ++ toLE 4 g.zeros ++
    List.replicate 8 0 ++ List.replicate 48 0
  let pad (bs : List Byte) : List Byte := bs ++ List.replicate (roundUp bs.length 64 - bs.length) 0
  sealImage (hdr ++ pad (g.words.flatMap (toLE 2)) ++ g.data ++ (if x.ring then pad (g.next.flatMap (toLE 1)) else []))

/-! ### Accumulator slots in P7 (R279)

A slot of a hod of e elements and b blocks: the sums from byte 0, the counts from 4e, the contributors' block counts
from 4e + 2b, the state in the last 64 of its 4e + 2b + 1,088 bytes. (log 52: DEDUCED) -/

/-- Where a slot lies. -/
def Core.slotBase (c : Core) (a : HodAcc) : Nat := c.obj 0x8011 1 + a.at_ * c.obj 0x8011 2

/-- Offsets in a slot: a block's count, a contributor's block count, the state. -/
def HodRow.cntOff (x : HodRow) (i : Nat) : Nat := 4 * x.elems + 2 * i
def HodRow.gotOff (x : HodRow) (m : Nat) : Nat := 4 * x.elems + 2 * x.blocks + 4 * m
def HodRow.stateOff (x : HodRow) : Nat := 4 * x.elems + 2 * x.blocks + 1024

/-- A block's count, a contributor's block count, a block's sums. -/
def Core.slotCnt (c : Core) (base : Nat) (x : HodRow) (i : Nat) : Nat := c.num (base + x.cntOff i) 2
def Core.slotGot (c : Core) (base : Nat) (x : HodRow) (m : Nat) : Nat := c.num (base + x.gotOff m) 4
def Core.slotSum (c : Core) (base i : Nat) : List Num := (unpack 32 32 (c.bytes (base + 128 * i) 128)).map f32

/-- Give a block its count. -/
def Core.setCnt (c : Core) (base : Nat) (x : HodRow) (i n : Nat) : Core := c.put (base + x.cntOff i) (toLE 2 n)

/-- A hod takes a free slot: its counts start at zero. (log 52: DEDUCED) -/
def Core.openSlot (c : Core) (h : Nat) : Core :=
  let x := c.hod h
  let i := ((List.range (c.xch.slots.length + 1)).find? fun i => !c.xch.slots.any fun a => a.at_ == i).getD 0
  let a : HodAcc := { hod := h, at_ := i, first := c.now }
  let base := c.slotBase a
  let c := (c.put (base + x.cntOff 0) (List.replicate (2 * x.blocks + 1024) 0)).smear (base + x.stateOff) 64
  { c with xch := { c.xch with slots := c.xch.slots ++ [a] } }

/-- The adders take a block (R280, R314): the first arrival is written, others are added in FP32; refused at a
misaligned destination (0x9003). A block past the hod's last has no place. (log 52: DEDUCED) -/
def Core.addBlk (c : Core) (base : Nat) (x : HodRow) (i : Nat) (vs : List Num) : Core :=
  let a := base + 128 * i
  if x.blocks ≤ i then c
  else if a % 128 ≠ 0 then c.raise { code := 0x9003, source := stepSrc, fmt := 2, detail := detail2 a 0 }
  else
    match c.xRead (base + x.cntOff i) 2 with
    | (false, c) => c
    | (true, c) =>
    let n := c.slotCnt base x i
    let c := if n = 0 then c.put a (vs.flatMap fun v => toLE 4 (f32Code (rnd32 v))) else c.addPiece a vs
    c.setCnt base x i (n + 1)

/-- Members whose contribution is complete (R280). -/
def Core.wholeFrom (c : Core) (ms : List Nat) (a : HodAcc) (x : HodRow) : List Nat :=
  ms.filter fun m => a.ended.contains m && c.slotGot (c.slotBase a) x m == x.blocks

/-- What closing a hod reads: its entry in the table, its slot, its row of agreed exponents. -/
def Core.closeReads (c : Core) (h : Nat) : Bool × Core :=
  match c.readHod h with
  | (false, c) => (false, c)
  | (true, c) =>
    let x := c.hod h
    match (match c.slot? h with
      | some a => c.xRead (c.slotBase a) x.stateOff
      | none => (true, c)) with
    | (false, c) => (false, c)
    | (true, c) => if x.ring then c.xRead (c.ringAddr h 0) x.blocks else (true, c)

/-- The blocks of a hod closed, in order: each with its count, a ring hod's only where its chain is done. -/
def Core.closeBlks (c : Core) (s : StepSlot) (h : Nat) (a : HodAcc) : HodImg :=
  let x := c.hod h
  let held := (c.slot? h).isSome
  let base := c.slotBase a
  let kept (i : Nat) : Nat := if x.ring then c.num (c.ringAddr h i) 1 else 0
  let k (i : Nat) : Nat := if held && (!x.ring || a.done.contains i) then c.slotCnt base x i else 0
  (List.range x.blocks).foldl
    (fun g i => closeBlk (c.ownLatch x.layer 3) (c.exKey s.step) h (c.obj 0x8021 0) (k i) (c.slotSum base i) (kept i) i g) {}

/-- The contributors an image names: those whose contributions are complete; for a ring hod those RING_END names. -/
def Core.imgContribs (c : Core) (s : StepSlot) (x : HodRow) (a : HodAcc) : List Nat :=
  if !x.ring then c.wholeFrom s.members a x
  else match a.ringEnd with
    | some ms => insertNat c.me ms
    | none => if (s.members.filter (· != c.me)).isEmpty && a.done.length == x.blocks then [c.me] else []

/-- Close a hod of the head step: its image is formed and goes to every member and listener. Poison in what that reads
fails the close. (log 52: DEDUCED) -/
def Core.closeHod (c : Core) (h : Nat) (deadline : Bool) : Core :=
  match c.stp.head, c.closeReads h with
  | none, _ => c
  | some _, (false, c) => c
  | some s, (true, c) =>
    let x := c.hod h
    let a : HodAcc := (c.slot? h).getD { hod := h }
    let g := c.closeBlks s h a
    let img := c.formImage s.step h x a deadline (c.imgContribs s x a) g
    let c := ((c.countConv g.cnt).bump 0x3008 1 g.nonfin).bump 0x8880 0x14 g.zeros
    let c := (c.bump 0x8880 3 1).bump 0x8880 4 (if deadline then 1 else 0)
    let c := if deadline then c.raiseOnceStep (xEv 0x8020 0 h c.me 0) else c
    let c := { c with xch := { c.xch with closed := h :: c.xch.closed } }
    let c := c.setSlot { a with closed := true }
    (c.me :: minus (s.members ++ minus c.xch.listened s.members) [c.me]).foldl
      (fun c tgt => c.queueImage tgt h s.step img) c

/-- Close a hod whose contributions are complete (R280). -/
def Core.testHod (c : Core) (h : Nat) : Core :=
  match c.stp.head, c.slot? h with
  | some s, some a =>
    let x := c.hod h
    if a.closed ∨ c.xch.closed.contains h ∨ x.ring ∨ s.members.isEmpty ∨ ownerIn s.members x.owner ≠ c.me then c
    else match c.xRead (c.slotBase a + x.gotOff 0) 1024 with
    | (false, c) => c
    | (true, c) =>
    if c.wholeFrom s.members a x = s.members then c.closeHod h false
    else c
  | _, _ => c

/-! ### Arrivals (R279, R280) -/

/-- A late message is discarded (R280). -/
def Core.lateX (c : Core) (m : XMsg) (sub : Nat) : Nat × Core :=
  (0, (c.bump 0x8880 sub 1).raiseOnceStep (xEv 0x8021 0 m.hod m.sender m.kind))

/-- What an arrival meets before its blocks are taken: the answer it ends with, or none once its hod has a slot.
(log 58: DEDUCED) -/
def Core.gateX (c : Core) (m : XMsg) : Option Nat × Core :=
  let late (sub : Nat) : Option Nat × Core := (some 0, (c.lateX m sub).2)
  if c.hodCount ≤ m.hod then (some 3, c)
  else if !c.stp.everOpened then (some 1, c)
  else if older m.step c.step then late 5
  else if m.step ≠ c.step then (some 1, c)
  else if c.xch.closed.contains m.hod ∨ c.stp.head.isNone then late 6
  else if (c.slot? m.hod).isSome then (none, c)
  else if c.obj 0x8011 3 ≤ c.xch.slots.length then (some 2, c.bump 0x8880 9 1)
  else (none, c.openSlot m.hod)

/-- The blocks of a DEPOSIT: scale word and values. -/
def msgBlocks (m : XMsg) : List (Nat × List Num) :=
  (List.range (min 6 m.count)).map fun j =>
    let w := numAt m.payload (34 * j) 2
    (w, blkVals w (bytesAt m.payload (34 * j + 2) 32))

/-- What reading blocks counts (R21, R33, R34): blocks of B8e data with their scale words, and escalated ones in
BF16. -/
def Core.countBlks (c : Core) (bs : List (Nat × Bool × List Num)) : Core :=
  let s := bs.foldl
    (fun (s : Seen) b =>
      let bad := (b.2.2.filter Num.nonFinite).length
      s.add (if b.2.1 then { nonfin := bad, rsvd := if b.1 / 256 = 0 then 0 else 1 } else seenWord .b8e b.1 32 bad false)) {}
  ((c.bump 0x3008 1 s.nonfin).bump 0x3008 4 s.nfZero).bump 0x3008 5 s.rsvd

/-- The blocks of a message enter a slot from its first block on. -/
def Core.addBlks (c : Core) (base : Nat) (x : HodRow) (first : Nat) (bs : List (List Num)) : Core :=
  (bs.zipIdx).foldl (fun c p => c.addBlk base x (first + p.2) p.1) c

/-- The owner adds the blocks of a DEPOSIT. (log 60: DEDUCED) -/
def Core.addDeposit (c : Core) (m : XMsg) (a : HodAcc) : Core :=
  let bs := msgBlocks m
  let x := c.hod m.hod
  let base := c.slotBase a
  match c.xRead (base + x.gotOff m.sender) 4 with
  | (false, c) => c
  | (true, c) =>
  let got := c.slotGot base x m.sender + bs.length
  let excess := decide (x.blocks < got)
  let c := (c.addBlks base x m.first (bs.map (·.2))).put (base + x.gotOff m.sender) (toLE 4 got)
  let c := c.setSlot { a with excess := a.excess || excess }
  let c := (c.countBlks (bs.map fun b => (b.1, false, b.2))).bump 0x8880 2 bs.length
  if excess then
    let c := c.bump 0x8880 0x13 1
    if a.excess then c else c.raise (xEv 0x8022 0 m.hod m.sender m.kind)
  else c

/-! ### Ring hops (R284 to R286) -/

/-- Encode a block at an agreed exponent: data, whether it escalates, and what the conversion counts (R31, R32, R34). -/
def ringBlk (key h i word : Nat) (esc : Bool) (vs : List Num) : List Byte × Bool × Tally5 :=
  let e := word % 256
  let lim := (fmtE5M2.maxNumPos).scale ((e : Int) - 127)
  if esc || vs.any fun v => Num.absGt v lim then
    let cs := vs.map ((Elem.flt fmtBF16).conv false .rne)
    (cs.flatMap fun q => toLE 2 q.code, true, elemTally vs cs)
  else
    let cs := convElems (.flt fmtE5M2) false 1 key (exCtr h 1 (32 * i)) e [] vs
    (pack 8 (cs.map Conv.code), false, elemTally vs cs)

/-- The agreed exponent at the first hop, or where none came in: the table's, else the block's own plus the margin
(R285). -/
def Core.firstExp (c : Core) (table : Nat) (vs : List Num) : Nat :=
  if table ≠ 0 then table
  else
    let am := amaxOf vs
    if am.isZero then 0 else marginExp am (c.obj 0x8021 0)

/-- The scale word a hop encodes a block at: the incoming one, or the first hop's. -/
def Core.hopWord (c : Core) (h i : Nat) (inn : Option RingIn) (vs : List Num) : Nat :=
  match inn with
  | some r => if r.word % 256 = 0 then c.firstExp 0 vs else r.word
  | none => c.firstExp (c.num (c.ringAddr h i) 1) vs

/-- A hop forwards a block it has joined to the member after it; its sums that are not finite are counted (R33). -/
def Core.ringForward (c : Core) (s : StepSlot) (a : HodAcc) (i contribs : Nat) (inn : Option RingIn) (vs : List Num) :
    Core :=
  let h := a.hod
  let word := c.hopWord h i inn vs
  let was := inn.any fun r => r.esc
  let (bs, esc, cnt) := ringBlk (c.exKey s.step) h i word was vs
  let m : XMsg := { c.xmsg 3 s.step h (toLE 2 word ++ bs) with
    first := i, count := 1, esc := if esc then 1 else 0, contribs := contribs }
  let c := ((c.countConv cnt).bump 0x3008 1 (vs.filter Num.nonFinite).length).setSlot { a with
    done := i :: a.done, ring := KMap.erase a.ring i, escLogged := a.escLogged || esc }
  let c := c.queueOut 0 ((nextOf s.members c.me).getD c.me) m
  if esc && !was && !a.escLogged then c.raise (xEv 0x8023 0 h c.me 3) else c

/-- What a hop reads of a block before it goes on: its count and its sums, and at the first hop its agreed exponent. -/
def Core.hopReads (c : Core) (a : HodAcc) (i : Nat) (first : Bool) : Bool × Core :=
  let base := c.slotBase a
  match c.xRead (base + (c.hod a.hod).cntOff i) 2 with
  | (false, c) => (false, c)
  | (true, c) =>
    match c.xRead (base + 128 * i) 128 with
    | (false, c) => (false, c)
    | (true, c) => if first then c.xRead (c.ringAddr a.hod i) 1 else (true, c)

/-- Block i of a ring hod goes on once this member holds what it needs (R284); the owner keeps it (R286). Poison in what
a hop reads leaves the block where it is (R325). -/
def Core.ringAdvance (c : Core) (s : StepSlot) (h i : Nat) : Core :=
  match c.slot? h with
  | none => c
  | some a =>
    let x := c.hod h
    let base := c.slotBase a
    let owner := ownerIn s.members x.owner
    let first := nextOf s.members owner == some c.me
    let inn := if first then none else KMap.get? a.ring i
    if a.done.contains i ∨ c.slotCnt base x i = 0 ∨ (inn.isNone && !first) then c
    else
      match c.hopReads a i (first && owner != c.me) with
      | (false, c) => c
      | (true, c) =>
        let n := (inn.map RingIn.contribs).getD 0 + 1
        let c := match inn with
          | some r => c.addPiece (base + 128 * i) r.vals
          | none => c
        let c := c.setCnt base x i n
        if owner = c.me then
          let e := if inn.any fun r => r.esc then 1 else 0
          let c := c.setSlot { a with
            done := i :: a.done, ring := KMap.erase a.ring i, escBlocks := a.escBlocks + e }
          (c.bump 0x8880 2 1).bump 0x8880 0xB e
        else c.ringForward s a i n inn (c.slotSum base i)

/-- After its last block: the owner closes, a hop forwards RING_END and lets its slot go. (log 61: DEDUCED) -/
def Core.ringFinish (c : Core) (s : StepSlot) (h : Nat) : Core :=
  match c.slot? h with
  | none => c
  | some a =>
    let x := c.hod h
    let owner := ownerIn s.members x.owner
    let first := nextOf s.members owner == some c.me
    if a.closed ∨ a.done.length < x.blocks ∨ (a.ringEnd.isNone && !first) then c
    else if owner = c.me then c.closeHod h false
    else
      let ms := insertNat c.me (a.ringEnd.getD [])
      let c := { c with xch := { c.xch with
        slots := c.xch.slots.filter fun y => y.hod != h, closed := h :: c.xch.closed } }
      c.queueOut 0 ((nextOf s.members c.me).getD c.me) (c.xmsg 4 s.step h (toLE 32 (bitmap ms)))

/-- Change a ring hod's slot and see which of its blocks go on. (log 61: DEDUCED) -/
def Core.ringTake (c : Core) (h : Nat) (is : List Nat) (f : HodAcc → HodAcc) : Core :=
  match c.stp.head, c.slot? h with
  | some s, some a => (is.foldl (fun c i => c.ringAdvance s h i) (c.setSlot (f a))).ringFinish s h
  | _, _ => c

/-- A member's own deposit into a ring hod: its slot holds it until it goes on (R284). -/
def Core.ringDeposit (c : Core) (m : XMsg) (a : HodAcc) : Core :=
  let bs := msgBlocks m
  let c := c.addBlks (c.slotBase a) (c.hod m.hod) m.first (bs.map (·.2))
  (c.countBlks (bs.map fun b => (b.1, false, b.2))).ringTake m.hod ((List.range bs.length).map fun j => m.first + j) id

/-- The blocks of a RING message: scale word, escalated, values. -/
def ringBlocks (m : XMsg) : Nat → Nat → Nat → List (Nat × Bool × List Num)
  | 0, _, _ => []
  | n + 1, j, o =>
    let w := numAt m.payload o 2
    if bitAt m.esc j then
      (w, true, (List.range 32).map fun k => bf16 (numAt m.payload (o + 2 + 2 * k) 2)) :: ringBlocks m n (j + 1) (o + 66)
    else (w, false, blkVals w (bytesAt m.payload (o + 2) 32)) :: ringBlocks m n (j + 1) (o + 34)

/-- Take a RING message (R284). -/
def Core.ringIn (c : Core) (m : XMsg) : Nat × Core :=
  match c.gateX m with
  | (some a, c) => (a, c)
  | (none, c) =>
    if !(c.hod m.hod).ring then (3, c)
    else
      let bs := (ringBlocks m (min 6 m.count) 0 0).zipIdx
      let put (a : HodAcc) (p : (Nat × Bool × List Num) × Nat) : HodAcc :=
        let r : RingIn := { contribs := m.contribs, word := p.1.1, esc := p.1.2.1, vals := p.1.2.2 }
        { a with ring := KMap.set a.ring (m.first + p.2) r }
      (0, (c.countBlks (bs.map (·.1))).ringTake m.hod (bs.map fun p => m.first + p.2) fun (a : HodAcc) => bs.foldl put a)

/-- Take a RING_END (R284, R286). (log 61: DEDUCED) -/
def Core.ringEndIn (c : Core) (m : XMsg) : Nat × Core :=
  match c.gateX m with
  | (some a, c) => (a, c)
  | (none, c) =>
    if !(c.hod m.hod).ring then (3, c)
    else (0, c.ringTake m.hod [] fun (a : HodAcc) => { a with ringEnd := some (membersOf (numAt m.payload 0 32)) })

/-- May this member take a direct contribution, or its own into a ring hod (R276)? -/
def Core.ownsHod (c : Core) (m : XMsg) : Bool :=
  let x := c.hod m.hod
  if x.ring then m.sender == c.me else ownerIn (c.membersFor c.step) x.owner == c.me

/-- Take a DEPOSIT (R280). (log 58: DEDUCED) -/
def Core.depositIn (c : Core) (m : XMsg) : Nat × Core :=
  if m.step = c.step ∧ m.hod < c.hodCount ∧ c.stp.head.isSome ∧ !c.ownsHod m then (3, c)
  else
    match c.gateX m with
    | (some a, c) => (a, c)
    | (none, c) =>
      match c.slot? m.hod with
      | none => (0, c)
      | some a =>
        if (c.hod m.hod).ring then (0, c.ringDeposit m a) else (0, (c.addDeposit m a).testHod m.hod)

/-- Take an END (R280). (log 58: DEDUCED) -/
def Core.endIn (c : Core) (m : XMsg) : Nat × Core :=
  if m.step = c.step ∧ m.hod < c.hodCount ∧ c.stp.head.isSome ∧ !c.ownsHod m then (3, c)
  else
    match c.gateX m with
    | (some a, c) => (a, c)
    | (none, c) =>
      match c.slot? m.hod with
      | none => (0, c)
      | some a => (0, (c.setSlot { a with ended := insertNat m.sender a.ended }).testHod m.hod)

/-- Take a message of class 1: the entry of its hod is read first, and poison there ends it as a hod past the table's
end does. -/
def Core.takeX (c : Core) (m : XMsg) : Nat × Core :=
  if c.hodCount ≤ m.hod then (3, c)
  else
    match c.readHod m.hod with
    | (false, c) => (3, c)
    | (true, c) =>
      match m.kind with
      | 1 => c.depositIn m
      | 2 => c.endIn m
      | 3 => c.ringIn m
      | 4 => c.ringEndIn m
      | 5 => c.imageIn m
      | _ => (3, c)

/-! ### The send buffers (R278, R302) -/

/-- The index of the first message that waits to be handed over, within its die's 16,384. -/
def firstWaiting (mine : Nat) (local_ : Bool) : List OutMsg → Nat → Nat → Nat → Option Nat
  | [], _, _, _ => none
  | o :: os, i, n0, n1 =>
    let n := if o.die = 0 then n0 else n1
    if o.tag.isNone && !o.again && n < 16384 && (o.tgt == mine) == local_ then some i
    else firstWaiting mine local_ os (i + 1) (if o.die = 0 then n0 + 1 else n0) (if o.die = 0 then n1 else n1 + 1)

/-- Change the send buffers. -/
def Core.setOut (c : Core) (os : List OutMsg) : Core := { c with xch := { c.xch with out := os } }

/-- A message leaves its buffer: an injected error is corrected, or drops it with the END of its hod (R302).
(log 53: DEDUCED) -/
def Core.readOut (c : Core) (i : Nat) (o : OutMsg) : Bool × Core :=
  match c.inject 0x0E o.die 0 with
  | (none, c) => (true, c)
  | (some p, c) =>
    if singleBit p then (true, c.bump 0x8880 0x15 1)
    else
      let h := o.msg.hod
      let os := (c.xch.out.eraseIdx i).filter fun x => !(x.msg.kind == 2 && x.msg.hod == h)
      let c := { c with xch := { c.xch with out := os, dropEnd := insertNat h c.xch.dropEnd } }
      (false, c.raise { xEv 0x8050 0 h c.me o.msg.kind with inj := true })

/-- Hand the message at index i to this member's own units. (log 53: DEDUCED) -/
def Core.handOwn (c : Core) (i : Nat) (o : OutMsg) (t : Nat) : Core :=
  match c.readOut i o with
  | (false, c) => c
  | (true, c) =>
    let o' := { o with tag := some t, again := true }
    let c := c.setOut (c.xch.out.set i o')
    match c.takeX o.msg with
    | (a, c) => if a = 1 ∨ a = 2 then c else c.setOut (c.xch.out.erase o')

/-- Hand the message at index i to the links. -/
def Core.handPeer (c : Core) (i : Nat) (o : OutMsg) (t : Nat) : Core :=
  match c.readOut i o with
  | (false, c) => c
  | (true, c) =>
    match c.send (c.mkFlit 1 o.tgt 7 t (msgBytes o.msg)) with
    | some c =>
      (c.setOut (c.xch.out.set i { o with tag := some t })).openTxn t
        { use := .xmsg o.msg.hod, peer := o.tgt, addr := 0, len := 240, got := [], at_ := c.now }
    | none => c.setOut (c.xch.out.eraseIdx i)

/-- Hand over the first message that waits, if a tag is free. -/
def Core.handOne (c : Core) (local_ : Bool) : Option Core :=
  match firstWaiting c.me local_ c.xch.out 0 0 0, c.freeTag (.xmsg 0) with
  | some i, some t =>
    match c.xch.out[i]? with
    | some o => some (if local_ then c.handOwn i o t else c.handPeer i o t)
    | none => none
  | _, _ => none

/-- Hand over up to n messages. -/
def Core.handMany (c : Core) (local_ : Bool) : Nat → Core
  | 0 => c
  | n + 1 =>
    match c.handOne local_ with
    | some c => c.handMany local_ n
    | none => c

/-- Note when messages begin to wait for a tag; 0xA880:06 counts the wait when it ends (R364). (log 62: DEDUCED) -/
def Core.clockTags (c : Core) : Core :=
  let waits := (c.freeTag (.xmsg 0)).isNone && (firstWaiting c.me false c.xch.out 0 0 0).isSome || !c.xch.waits0.isEmpty
  match c.xch.tagAt with
  | none => if waits then { c with xch := { c.xch with tagAt := some c.now } } else c
  | some t => if waits then c else ({ c with xch := { c.xch with tagAt := none } }).bump 0xA880 6 (c.now - t)

/-- Hand over what waits: this member's own messages, with the images they lead to; then the others'.
(log 144: DEDUCED) -/
def Core.settle (c : Core) : Core :=
  let c := c.sysRead sysExchange
  let imgs := ((List.range c.hodCount).map fun h => ceilDiv (c.hod h).imgBytes 204 + 2).sum
  let c := c.handMany true (c.xch.out.length + imgs + 1)
  let c := c.handMany false c.xch.out.length
  let ws := c.xch.waits0
  (ws.foldl (fun (c : Core) w => c.handCmd w.1 w.2) { c with xch := { c.xch with waits0 := [] } }).clockTags

/-! ### Deposits (R125, R273, R278) -/

/-- Cut a list into runs of at most six. -/
def sixes : Nat → List (Nat × List Byte) → List (List (Nat × List Byte))
  | 0, _ => []
  | _, [] => []
  | n + 1, bs => bs.take 6 :: sixes n (bs.drop 6)

/-- Deposit blocks into hod h from block i0 on; END follows the hod's last block. (log 72: DEDUCED) -/
def Core.depositHod (c : Core) (d die h i0 : Nat) (bs : List (Nat × List Byte)) : Core :=
  match c.stp.head, c.readHod h with
  | none, _ => c
  | some _, (false, c) => c
  | some s, (true, c) =>
    let x := c.hod h
    let tgt := if x.ring then c.me else ownerIn s.members x.owner
    let msgs := (sixes bs.length bs).zipIdx
    let c := msgs.foldl
      (fun c p => c.queueOut die tgt
        { c.xmsg 1 s.step h (p.1.flatMap fun b => toLE 2 b.1 ++ bytesAt b.2 0 32) with
          first := i0 + 6 * p.2, count := p.1.length } (some d)) c
    let n := KMap.getD c.xch.deposited h 0 + bs.length
    let was := KMap.getD c.xch.deposited h 0
    let c := { c with xch := { c.xch with deposited := KMap.set c.xch.deposited h n } }
    let c := if tgt = c.me then c else c.bump 0x8880 1 bs.length
    if was < x.blocks ∧ x.blocks ≤ n ∧ !x.ring ∧ !c.xch.dropEnd.contains h then
      c.queueOut die tgt { c.xmsg 2 s.step h (toLE 32 (bitmap [c.me])) with sent := n } (some d)
    else c

/-- Deposit blocks from block i of hod h on, going on at the hods after it. -/
def Core.depositRun (c : Core) (d die : Nat) : Nat → Nat → Nat → List (Nat × List Byte) → Core
  | 0, _, _, _ => c
  | f + 1, h, i, bs =>
    let b := (c.hod h).blocks
    if bs.isEmpty ∨ c.hodCount ≤ h then c
    else if b ≤ i then c.depositRun d die f (h + 1) (i - b) bs
    else (c.depositHod d die h i (bs.take (b - i))).depositRun d die f (h + 1) 0 (bs.drop (b - i))

/-- Do n blocks from block i of hod h on end within the table (R273)? -/
def Core.depositFits (c : Core) : Nat → Nat → Nat → Bool
  | 0, _, _ => false
  | f + 1, h, e =>
    if c.hodCount ≤ h then false
    else if e ≤ (c.hod h).blocks then true
    else c.depositFits f (h + 1) (e - (c.hod h).blocks)

end Sys2Proof.Machine
end

