-- ==== Sys2Proof/Machine/Group.lean ====
section
/-! DEFINITION. The exchange's commands: messages from members, timers, fingerprints and the close of a step (R294 to
R296), rejoin (R298 to R300). -/

namespace Sys2Proof.Machine

/-! ### Messages of class 1 -/

/-- A class-1 message arrives: taken and answered, or refused in FAULT_STOP and REJOIN (R301, R347). -/
def Core.inMsg (c : Core) (dev : Dev) (m : XMsg) : Core :=
  if dev = .faultStop ∨ dev = .rejoin then c.answerX m.sender 3 (some (msgBytes m))
  else if exServes dev then
    match c.takeX m with
    | (a, c) => (c.answerX m.sender a (some (msgBytes m))).settle
  else c

def execDepositReceived (m : XMsg) : State → Res := lift fun dev c => c.inMsg dev { m with kind := 1 }

def execEndReceived (m : XMsg) : State → Res := lift fun dev c => c.inMsg dev { m with kind := 2 }

def execRingReceived (m : XMsg) : State → Res := lift fun dev c => c.inMsg dev { m with kind := 3 }

def execRingEndReceived (m : XMsg) : State → Res := lift fun dev c => c.inMsg dev { m with kind := 4 }

def execImageReceived (m : XMsg) : State → Res := lift fun dev c => c.inMsg dev { m with kind := 5 }

/-- Is a hod of the head step open at this member, its owner? -/
def Core.hodOpen (c : Core) (h : Nat) : Bool :=
  match c.stp.head with
  | some s => h < c.hodCount && ownerIn s.members (c.hod h).owner == c.me && !c.xch.closed.contains h
  | none => false

/-- Has the time 0x8020:01 after the owner's open of the step come (R280)? -/
def Core.openDue (c : Core) : Bool := c.stp.head.any fun s => s.tOpen + c.obj 0x8020 1 ≤ c.now

/-- Has the time 0x8020:02 after a hod's first arrival come (R280)? 0: never. -/
def Core.firstDue (c : Core) (h : Nat) : Bool :=
  c.obj 0x8020 2 != 0 && (c.slot? h).any fun a => a.first + c.obj 0x8020 2 ≤ c.now

/-- 0x8020:01 after the open of the step (R280). -/
def execHodDeadlineOpen (hod : Nat) : State → Res :=
  lift fun dev c => if exServes dev && c.hodOpen hod && c.openDue then (c.closeHod hod true).settle else c

/-- 0x8020:02 after the hod's first arrival (R280). -/
def execHodDeadlineFirst (hod : Nat) : State → Res :=
  lift fun dev c =>
    if exServes dev && c.hodOpen hod && c.firstDue hod then (c.closeHod hod true).settle else c

/-- The message last sent under a tag. -/
def Core.outByTag (c : Core) (tag : Nat) (again : Bool) : Option OutMsg :=
  c.xch.out.find? fun o => o.tag == some tag && o.again == again

/-- Replace a message of the send buffers. -/
def Core.swapOut (c : Core) (o o' : OutMsg) : Core := c.setOut (c.xch.out.map fun x => if x = o then o' else x)

/-- One answer of an XANS (R278, R347): ACCEPT and REFUSED end the message, RETRY and BUSY leave it to be sent again. -/
def Core.takeAnswer (c : Core) (a : XAnswer) : Core :=
  match KMap.get? c.links.txns a.tag with
  | none => c
  | some t =>
    match t.use with
    | .xcmd => c.closeTxn a.tag
    | .xmsg _ =>
      let c := c.closeTxn a.tag
      match c.outByTag a.tag false with
      | none => c
      | some o =>
        if a.code = 1 ∨ a.code = 2 then c.swapOut o { o with again := true } else c.setOut (c.xch.out.erase o)
    | _ => c

/-- 0x8020:06 after a RETRY or BUSY the message is sent again (R278). -/
def execResendTimer (tag : Nat) : State → Res :=
  lift fun dev c =>
    match c.outByTag tag true with
    | none => c
    | some o =>
      if exServes dev then ((c.swapOut o { o with tag := none, again := false }).bump 0x8880 7 1).settle else c

/-- An owner is asked to send an image again (R283). -/
def execImageRequestedAgain (member hod : Nat) : State → Res :=
  lift fun dev c =>
    if dev = .faultStop ∨ dev = .rejoin then c.answerX member 3 none
    else if exServes dev then
      let c := c.answerX member 0 none
      if hod < c.hodCount ∧ c.jHeld hod then
        match c.xRead (c.imgAddr hod) (c.hod hod).imgBytes with
        | (false, c) => c
        | (true, c) => (c.queueImage member hod (c.jStep hod) (c.bytes (c.imgAddr hod) (c.hod hod).imgBytes)).settle
      else c
    else c

/-! ### Opens, votes, commits -/

/-- The oldest open that waits takes effect once it may (R239); a held COMMIT applies; a step without hods votes at once
(R274). An open whose number no longer follows the head step is rejected. -/
def execStepOpenEffect : State → Res :=
  lift fun dev c =>
    match c.stp.opens with
    | [] => c
    | d :: _ =>
      match c.desc? d with
      | none => c
      | some x =>
        let s := x.f 16 4
        if !runsWork dev || c.stp.head.isSome then c
        else if c.stp.everOpened ∧ s ≠ (c.step + 1) % 2 ^ 32 then c.reject d 0x7001 stepSrc 16 s
        else if c.openReady s then (((c.openStep d x).applyHeld).checkVote).settle
        else c

/-- A class-0 message arrives: taken and answered, or refused (R301, R347). -/
def Core.inCmd (c : Core) (dev : Dev) (from_ : Nat) (f : Core → Core) : Core :=
  if dev = .faultStop ∨ dev = .rejoin then c.answerX from_ 3 none
  else if exServes dev then (f (c.answerX from_ 0 none)).settle
  else c

/-- R289: not voted in time. -/
def execNovoteTimeout : State → Res :=
  lift fun dev c => if exServes dev && c.stp.head.isSome then (c.castVote false).settle else c

def execVoteReceived (step member : Nat) (novote : Bool) (hodCrc memberCrc : Nat) : State → Res :=
  lift fun dev c => c.inCmd dev member fun c => c.leadVote step member novote hodCrc memberCrc

/-- The vote window closes 0x8020:03 after it opened (R290). (log 51: DEDUCED) -/
def execVoteWindowExpiry : State → Res :=
  lift fun dev c =>
    let l := c.xch.lead
    if exServes dev && l.windowAt.isSome && !l.decided then c.leadDecide.settle else c

def execCommitReceived (step : Nat) (cset listeners admitted : List Nat) (admitStep : Nat) : State → Res :=
  lift fun dev c =>
    c.inCmd dev ((leaderOf (c.membersFor step)).getD c.me) fun c =>
      c.takeCommit { step := step, c := cset, listeners := listeners, admitted := admitted, admitStep := admitStep } false

def execAbandonReceived (step : Nat) (silent : List Nat) : State → Res :=
  lift fun dev c =>
    c.inCmd dev ((leaderOf (c.membersFor step)).getD c.me) fun c => c.takeAbandon step silent false

/-- 0x8020:04 after the vote, with neither COMMIT nor ABANDON (R292). -/
def execCommitWaitExpiry : State → Res :=
  lift fun dev c =>
    match c.stp.head with
    | some s => if exServes dev && c.xch.voted then (c.takeAbandon s.step [] true).settle else c
    | none => c

/-! ### Fingerprints and the close of a step (R294 to R296) -/

/-- The summary more than half of C sent. -/
def agreedOf (cset : List Nat) (fps : KMap (Nat × Nat)) : Option Nat :=
  let mine := cset.filterMap fun m => (KMap.get? fps m).map fun p => p.1
  mine.find? fun s => cset.length < 2 * (mine.filter (· == s)).length

/-- Take excluded members out of the open step and every later one; the owner's hods and the vote window are tested
again (R275). -/
def Core.exclude (c : Core) (ex : List Nat) : Core :=
  let c := { c with xch := { c.xch with
    next := minus c.xch.next ex, admits := c.xch.admits.filter fun p => !ex.contains p.1 } }
  let c := c.modHead fun (s : StepSlot) => { s with members := minus s.members ex }
  let c := c.xch.slots.foldl (fun c a => c.testHod a.hod) c
  let l := c.xch.lead
  if c.stp.head.any (fun s => s.step == l.step) && l.windowAt.isSome && !l.decided && c.leadDone then c.leadDecide else c

/-- A member takes CLOSE (R295). -/
def Core.takeClose (c : Core) (step agreed : Nat) (ex : List Nat) (split : Bool) : Core :=
  match c.stp.tail with
  | none => c
  | some t =>
    if t.step ≠ step then c
    else
      let c := { c with xch := { c.xch with agreed := agreed } }
      if split then c.raise (xEv 0x8035 3 0 c.me 0)
      else
        let c := c.exclude ex
        if ex.contains c.me then (c.bump 0x8880 0x12 1).raise (xEv 0x8034 3 0 c.me 0)
        else
          let c := c.closeStep
          ({ c with xch := { c.xch with lastClosed := step } }).applyHeld

/-- The leader grants the rejoin asked for first, at its CLOSE of a step (R298). -/
def Core.grantNext (c : Core) (step version : Nat) : Core :=
  match c.xch.reqs with
  | [] => c
  | (m, _) :: rest =>
    if c.xch.granted.isSome then c
    else
      let ms := minus (c.membersFor ((step + 1) % 2 ^ 32)) [m]
      let src := (nextOf ms m).getD c.me
      let c := { c with xch := { c.xch with reqs := rest, granted := some (m, step) } }
      c.sendCmds (if src = m then [m] else [m, src]) (.grant step src m version)

/-- The leader sends CLOSE for a step it committed (R295), and a GRANT after it. (log 56: DEDUCED) -/
def Core.leadClose (c : Core) (l : Closing) : Core :=
  let ag := agreedOf l.c l.fps
  let bad (m : Nat) : Bool := match KMap.get? l.fps m with
    | some (x, torn) => torn != 0 || some x != ag
    | none => l.c.contains m
  let ex := if ag.isNone then [] else (l.c ++ l.listeners).filter bad
  let version := match c.stp.tail with
    | some t => t.version
    | none => 0
  let c := c.setLead { c.xch.lead with closing := c.xch.lead.closing.filter fun x => x.step != l.step }
  let c := c.sendCmds (l.c ++ l.listeners) (.close l.step (ag.getD 0) ex ag.isNone)
  let c := c.takeClose l.step (ag.getD 0) ex ag.isNone
  if c.faultReq.isSome then c else c.grantNext l.step version

/-- The leader takes a member's FP for a step it has committed and not closed (R295). -/
def Core.leadFp (c : Core) (step member summary torn : Nat) : Core :=
  match c.xch.lead.closing.find? fun l => l.step == step with
  | none => c
  | some l =>
    if !(l.c ++ l.listeners).contains member then c
    else
      let l := { l with fps := KMap.set l.fps member (summary, torn), fpAt := some (l.fpAt.getD c.now) }
      let c := c.setLead { c.xch.lead with
        closing := c.xch.lead.closing.map fun x => if x.step = step then l else x }
      if l.c.all fun m => (KMap.get? l.fps m).isSome then c.leadClose l else c

/-- A member sends FP for its tail step, once (Table 9.5). -/
def Core.sendFp (c : Core) : Core :=
  match c.stp.tail with
  | none => c
  | some t =>
    if c.xch.fpSent then c
    else match c.readJournal with
    | (false, c) => c
    | (true, c) =>
      let sm := c.summaryNow
      let torn := (c.tornHods t.step).length
      let c := { c with xch := { c.xch with fpSent := true, summary := sm } }
      match leaderOf (if t.members.contains c.me then t.members else t.commitSet) with
      | none => c
      | some l =>
        if l = c.me then c.leadFp t.step c.me sm torn else c.sendCmd l (.fp t.step c.me sm torn)

def execFpReceived (step member summary torn : Nat) : State → Res :=
  lift fun dev c => c.inCmd dev member fun c => c.leadFp step member summary torn

/-- 0x8020:05 after the first FP of the oldest step that has one (R295). -/
def execFpWindowExpiry : State → Res :=
  lift fun dev c =>
    match c.xch.lead.closing.find? fun l => l.fpAt.isSome with
    | some l => if exServes dev then (c.leadClose l).settle else c
    | none => c

def execCloseReceived (step agreed : Nat) (excluded : List Nat) (split : Bool) : State → Res :=
  lift fun dev c =>
    c.inCmd dev ((leaderOf (c.membersFor step)).getD c.me) fun c => c.takeClose step agreed excluded split

/-! ### Rejoin (R298 to R300) -/

/-- Whom a rejoiner asks: the leader of its last membership, or before any step the lowest other member of 0x8002; in
either case another member (log 28: DESIGN CHOICE). -/
def Core.rejoinLeader (c : Core) : Option Nat :=
  leaderOf (minus (if c.stp.openedSinceBoot then c.xch.last else membersOf (c.mask 0x8002 1 4)) [c.me])

/-- Send REJOIN_REQ. -/
def Core.sendRejoin (c : Core) : Core :=
  match c.rejoinLeader with
  | some l => c.sendCmd l (.rejoinReq c.me c.xch.lastClosed)
  | none => c

/-- A write of 1 to 0x8050:00 (R298, R300). -/
def rejoinRequest (src : Src) (dev : Dev) (c : Core) : Core :=
  let ok := (dev == .faultStop && c.log.cleared) || (dev == .ready && !c.stp.openedSinceBoot)
  if !c.reach dev src 0x8050 0 true || directBad src 0x8050 0 || !ok then c.answer src 0x8050 0 stDenied
  else ({ c with xch := { c.xch with asked := true } }).sendRejoin.answer src 0x8050 0 stOk

def execRejoinRequest (src : Src) : State → Res := lift (rejoinRequest src)

/-- R300: until GRANT arrives, every 0x8020:07 ns. -/
def execRejoinReqResend : State → Res :=
  lift fun dev c => if dev = .ready ∧ c.xch.asked ∧ c.xch.grant.isNone then c.sendRejoin else c

/-- A rejoin message arrives: it is answered ACCEPT in FAULT_STOP and REJOIN too (R347). (log 147: DEDUCED) -/
def Core.inRejoin (c : Core) (dev : Dev) (from_ : Nat) (f : Core → Core) : Core :=
  if dev = .faultStop ∨ dev = .rejoin then f (c.answerX from_ 0 none) else c.inCmd dev from_ f

/-- May a member originate exchange messages, and a REJOIN_REQ (R301)? (log 147: DEDUCED) -/
def Core.mayAsk (c : Core) (dev : Dev) : Bool := exServes dev || (dev == .faultStop && c.log.cleared)

/-- A rejoin request: the leader keeps it, another member forwards it to its leader (R300). (log 147: DEDUCED) -/
def execRejoinReqReceived (member lastStep : Nat) : State → Res :=
  lift fun dev c =>
    c.inRejoin dev member fun c =>
      match leaderOf c.xch.next with
      | none => c
      | some l =>
        if l = c.me then
          { c with xch := { c.xch with reqs := (c.xch.reqs.filter fun p => p.1 != member) ++ [(member, lastStep)] } }
        else if c.mayAsk dev then c.sendCmd l (.rejoinReq member lastStep) else c

/-- What a rejoiner reads first: P1, P2 and the ring scale area, whose end is not given: it reaches as far as the
hods' rows do. (log 69: DEDUCED) -/
def Core.pullAreas (c : Core) : List (Nat × Nat) :=
  let rs := c.obj 0x8012 4
  let re := (List.range c.hodCount).foldl
    (fun e h => if (c.hod h).ring then max e (c.ringAddr h (c.hod h).blocks) else e) rs
  [(c.partBase 1, c.partSize 1), (c.partBase 2, c.partSize 2), (rs, re - rs)].filter fun r => r.2 != 0

/-- Entry to REJOIN (R79, R133, R153, R233, R267, R301). -/
def Core.enterRejoin (c : Core) (stepR source version : Nat) : Core :=
  let c := (c.freeResumes).abortStepping.2
  { c with
    fwd := { c.fwd with
      tiles := c.fwd.tiles.map fun (p : Nat × Tile) => (p.1, { p.2 with slots := [], tables := [], tabBad := [] })
      prevActive := 0, prevStep := none, noPrev := true }
    bwd := {}
    roll := { c.roll with hold := none }
    stp := { c.stp with
      isOpen := false, pal := {}, claims := [], head := none, tail := none, opens := [], everOpened := false
      banks := [(0, {}), (1, {})], exports := [] }
    xch := { c.xch with
      slots := [], out := [], waits0 := [], voted := false, heldCommit := none, imgGot := [], lead := {}, granted := none, back := none
      grant := some (stepR, source, version), pulled := 0, pullLeft := c.pullAreas, pullFlight := 0, pullImages := false } }

/-! The pulls (R298, Table 9.7 steps 3 and 4): reads of class 2 to the same addresses at the source. -/

/-- At most this many reads are in flight (log 148: DESIGN CHOICE). -/
def pullDepth : Nat := 64

/-- Read on while reads may be in flight, 16,384 bytes at a time; without a route the rejoiner tries again at the next
flit boundary. (log 148: DESIGN CHOICE) -/
def Core.pullGo (c : Core) : Nat → Core
  | 0 => c
  | n + 1 =>
    match c.xch.pullLeft, c.xch.grant with
    | (a, len) :: rest, some (_, source, _) =>
      if pullDepth ≤ c.xch.pullFlight then c
      else
        let k := min len 16384
        match c.sendRd 2 source a k .pull with
        | none => c
        | some c =>
          ({ c with xch := { c.xch with
              pullLeft := if k < len then (a + k, len - k) :: rest else rest
              pullFlight := c.xch.pullFlight + 1 } }).pullGo n
    | _, _ => c

/-- The images of s_r + 1 not yet held, as ranges to read. -/
def Core.imagesLeft (c : Core) (s : Nat) : List (Nat × Nat) :=
  ((List.range c.hodCount).filter fun h => !c.heldFor h s).map fun h => (c.imgAddr h, (c.hod h).imgBytes)

/-- When the areas are read the images follow; images that pass a receiver's checks are held, the others are read again,
for the source may not hold them yet. (log 148: DESIGN CHOICE) -/
def Core.pullNext (c : Core) (s : Nat) : Core :=
  if !c.xch.pullLeft.isEmpty ∨ c.xch.pullFlight ≠ 0 then c
  else
    let hold (c : Core) (h : Nat) : Core :=
      if c.heldFor h s then c
      else
        match c.xRead (c.imgAddr h) (c.hod h).imgBytes with
        | (false, c) => c
        | (true, c) =>
          if imageGood (c.bytes (c.imgAddr h) (c.hod h).imgBytes) s h (c.hod h).blocks then c.setJ h s 1 else c
    let c := if c.xch.pullImages then (List.range c.hodCount).foldl hold c else c
    { c with xch := { c.xch with pullImages := true, pullLeft := c.imagesLeft s } }

/-- A rejoiner reads on. -/
def Core.pullWork (c : Core) (dev : Dev) : Core :=
  match c.xch.grant with
  | some (r, _, _) => if dev = .rejoin then (c.pullNext ((r + 1) % 2 ^ 32)).pullGo (2 * pullDepth) else c
  | none => c

/-- Bytes read arrive, to the same addresses; 0x8050:02 counts them. -/
def Core.pullArrived (c : Core) (dev : Dev) (a : Nat) (bs : List Byte) : Core :=
  if dev = .rejoin then
    let c := c.put a bs
    ({ c with xch := { c.xch with
        pulled := c.xch.pulled + bs.length, pullFlight := c.xch.pullFlight - 1 } }).pullWork dev
  else c

/-- A read failed: the bytes are to be read again, from the next flit boundary on. (log 148: DESIGN CHOICE) -/
def Core.pullFailed (c : Core) (dev : Dev) (a n : Nat) : Core :=
  if dev = .rejoin then
    { c with xch := { c.xch with pullLeft := c.xch.pullLeft ++ [(a, n)], pullFlight := c.xch.pullFlight - 1 } }
  else c

/-- GRANT from the leader (R298): the rejoiner enters REJOIN and begins its pulls; the source only serves them.
(log 119: DEDUCED) -/
def execGrantReceived (leader stepR source rejoiner version : Nat) : State → Res :=
  liftDev fun dev c =>
    let c := c.answerX leader 0 none
    if rejoiner = c.me ∧ c.xch.asked ∧ ((dev = .faultStop ∧ c.log.cleared) ∨ (dev = .ready ∧ !c.stp.openedSinceBoot)) then
      let c := c.enterRejoin stepR source version
      let c := { c with xch := { c.xch with granter := leader } }
      (.rejoin, (c.pullWork .rejoin).raise (xEv 0x8040 0 0 source 0))
    else (dev, c)

/-- The pulls and the images of s_r + 1 are complete (Table 9.7, step 5): DONE goes to the leader that granted.
(log 148: DESIGN CHOICE) -/
def execRejoinPullDone : State → Res :=
  liftDev fun dev c =>
    match c.xch.grant with
    | none => (dev, c)
    | some (r, _, _) =>
      if dev = .rejoin ∧ c.xch.pullImages ∧ c.xch.pullLeft.isEmpty ∧ c.xch.pullFlight = 0 ∧
          (List.range c.hodCount).all (fun h => c.heldFor h ((r + 1) % 2 ^ 32)) then
        let c := { c with xch := { c.xch with asked := false, pullImages := false } }
        (.ready, (c.sendCmd c.xch.granter (.done c.me)).raise (xEv 0x8042 0 0 c.me 0))
      else (dev, c)

/-- The leader takes DONE: the COMMIT it holds goes out and names the member (R298). (log 147: DEDUCED) -/
def execDoneReceived (member : Nat) : State → Res :=
  lift fun dev c =>
    c.inRejoin dev member fun c =>
      match c.xch.granted with
      | none => c
      | some (m, r) =>
        if m ≠ member then c
        else
          let c := { c with xch := { c.xch with granted := none, back := some (m, r) } }
          match c.xch.lead.ready with
          | some cset => if exServes dev then c.leadCommit cset else c
          | none => c

/-- 0x8020:07 after GRANT without DONE (R299): the leader cancels and commits, the rejoiner returns to FAULT_STOP. -/
def execRejoinHoldExpiry : State → Res :=
  lift fun dev c =>
    if dev = .rejoin then
      ({ c with xch := { c.xch with asked := false, grant := none } }).raise (xEv 0x8041 3 0 c.me 0)
    else if exServes dev && c.xch.granted.isSome then
      let c := { c with xch := { c.xch with granted := none } }
      (match c.xch.lead.ready with
        | some cset => c.leadCommit cset
        | none => c).settle
    else c

end Sys2Proof.Machine
end

