-- ==== Sys2Proof/Machine/Updates.lean ====
section
/-! DEFINITION. The update units (R251 to R257), curtains (R260, R261) and snapshot exports (R263). -/

namespace Sys2Proof.Machine

/-! ### Masters (R42, R43) -/

/-- The exponent of u(m) (R42). -/
def masterUlp (m : Nat) : Int := max 1 (fld m 14 7) - 134

/-- The represented value of a master and its grout. -/
def masterVal (m g : Nat) : Num := (bf16 m).add (.ofScaled (toInt 8 g) (masterUlp m - 8))

/-- The nearest BF16 code to a finite value within its range, ties to the larger value; zero is +0 (R43). -/
def nearestBf16 (v : Num) : Nat :=
  match v with
  | .fin s m e =>
    let q := fmtBF16.quantum v
    let k := q - e
    let n :=
      if k ≤ 0 then m <<< (-k).toNat
      else
        let k := k.toNat
        let r := m % 2 ^ k
        m >>> k + (if 2 * r > 2 ^ k ∨ (2 * r = 2 ^ k ∧ s = false) then 1 else 0)
    if n = 0 then 0 else fmtBF16.pack s n q
  | _ => 0

/-- The BF16 neighbour one step toward +∞; zero is written +0. -/
def nextBf16 (m : Nat) : Nat := if m < 0x8000 then m + 1 else if m = 0x8001 then 0 else m - 1

/-- A value rounded to a whole number, ties to even. -/
def rneInt (x : Num) : Int :=
  match x with
  | .fin s m e => if s then -(roundAt .rne m e 0 : Int) else roundAt .rne m e 0
  | _ => 0

/-- Apply a change to a master (R43): the new master and grout codes, and whether it saturated. -/
def applyDelta (m g : Nat) (delta : Num) : Nat × Nat × Bool :=
  let v := fadd (masterVal m g) delta
  if Num.absGt v (fmtBF16.maxNum false) then (fmtBF16.maxCode v.sign, 0, true)
  else
    let m' := nearestBf16 v
    let d := rneInt ((v.sub (bf16 m')).scale (8 - masterUlp m'))
    if d = 128 then (nextBf16 m', 0x80, false) else (m', ofInt 8 d, false)

/-! ### Momentum and variance (R251, R253) -/

/-- 2^(j/8) as FP32 constants (R251). -/
def eighths : List Nat :=
  [0x3F800000, 0x3F8B95C2, 0x3F9837F0, 0x3FA5FED7, 0x3FB504F3, 0x3FC5672A, 0x3FD744FD, 0x3FEAC0C7]

/-- A stored variance. -/
def varVal (ev c : Nat) : Num :=
  if c = 0 then .zero false
  else
    let k : Int := (c : Int) - 255
    rnd32 ((f32 (eighths.getD (k % 8).toNat 0)).scale ((ev : Int) - 127 + k / 8))

/-- E_v of a block of variances: the smallest exponent that holds the largest (R253), within its byte. -/
def varExp (vs : List Num) : Nat :=
  let am := amaxOf vs
  if am.isZero then 0 else (max 0 (min 255 (127 + am.clog))).toNat

/-- The code of a variance under E_v, and whether a nonzero one became 0. (log 66: DEDUCED) -/
def varCode (ev : Nat) (v : Num) : Nat × Bool :=
  if v.isZero ∨ v.nonFinite ∨ v.sign then (0, false)
  else
    let c := 255 + log2x8 (v.scale (127 - (ev : Int)))
    if c < 1 then (0, true) else (min 255 c.toNat, false)

/-! ### One element (R252) -/

/-- The fields of an update that every element uses. -/
structure UpdP where
  opt : Nat
  nest : Bool
  kappa : Num
  lr : Num
  b1 : Num
  b2 : Num
  ob1 : Num
  ob2 : Num
  eps : Num
  wd : Num
  c1 : Num
  c2 : Num
  deriving DecidableEq, Repr

/-- -lr times the sum of a term and the weight decay. -/
def UpdP.step (p : UpdP) (t w : Num) : Num := fmul p.lr.neg (fadd t (fmul p.wd w))

/-- The change, the new momentum and the new variance of an element. -/
def UpdP.elem (p : UpdP) (gr w mom var : Num) : Num × Num × Num :=
  let g := fmul p.kappa gr
  let mix1 := fadd (fmul p.b1 mom) (fmul p.ob1 g)
  match p.opt with
  | 0 =>
    let m := fadd (fmul p.b1 mom) g
    let d := if p.nest then fadd g (fmul p.b1 m) else m
    (p.step d w, m, var)
  | 1 =>
    let v := fadd (fmul p.b2 var) (fmul (fmul p.ob2 g) g)
    (p.step (fdiv (fmul p.c1 mix1) (fadd (fsqrt (fmul p.c2 v)) p.eps)) w, mix1, v)
  | _ => (p.step (fsign mix1) w, fadd (fmul p.b2 mom) (fmul p.ob2 g), var)

/-! ### The descriptor (Table 8.9) -/

def Desc.uOpt (x : Desc) : Nat := x.f 126 1 % 4
def Desc.uFmt (x : Desc) : Nat := x.f 127 1
def Desc.uK (x : Desc) : Nat := x.f 80 4
def Desc.uN (x : Desc) : Nat := x.f 84 4
def Desc.uK0 (x : Desc) : Nat := x.f 88 4
def Desc.uR (x : Desc) : Nat := x.f 92 4
def Desc.uStep (x : Desc) : Nat := x.f 76 4
def Desc.uHod (x : Desc) : Nat := x.f 72 4
/-- Its band: first element and count. -/
def Desc.u0 (x : Desc) : Nat := x.uK0 * x.uN
def Desc.uCount (x : Desc) : Nat := x.uR * x.uN

/-- The update units that are available. -/
def Core.uus (c : Core) : List Nat := (List.range 4).filter fun u => bitAt (c.obj 0x7400 0) u

/-- The unit a descriptor runs on: the first available (R256). -/
def Core.uuSrc (c : Core) : Nat := srcOf 0x08 (c.uus.headD 0)

/-- Is the tail step COMMITTED or WRITING? -/
def Core.tailWrites (c : Core) : Bool := c.stp.tail.any fun t => t.st == 2 || t.st == 3

/-- Does a descriptor name the tail step while it is COMMITTED or WRITING? -/
def Core.inTail (c : Core) (x : Desc) : Bool := c.tailWrites && c.stp.tail.any fun t => t.step == x.uStep

/-- Is this a REFRESH outside a step (R257)? (log 66: DEDUCED) -/
def Core.outside (c : Core) (x : Desc) : Bool := x.uOpt == 3 && !c.inTail x

/-- The bank a descriptor writes: its own outside a step, else the one its step asked for. (log 66: DEDUCED) -/
def Core.updBank (c : Core) (x : Desc) : Nat :=
  if c.outside x then x.uStep % 2
  else if (c.bank 1).byStep && ((c.bank 1).state == 3 || (c.bank 1).state == 4) then 1 else 0

/-- Bytes of the forward copy, and of its scale tensor. -/
def Desc.fwdBytes (x : Desc) : Nat :=
  match blkOfCode x.uFmt with
  | some f => x.uN * (x.uK / 32) * f.bytes
  | none => if x.uFmt = 0 then 0 else 2 * x.uK * x.uN
def Desc.fwdScale (x : Desc) : Nat := if (blkOfCode x.uFmt).isSome then scaleBytes (x.uN * (x.uK / 32)) else 0

/-- The checks of R257, R265 and R266. (log 67: DEDUCED) -/
def Core.updChecks (c : Core) (x : Desc) : List (Bool × Nat × Nat × Nat) :=
  let f := x.uFmt
  let o := x.uOpt
  let k := x.uK
  let n := x.uN
  let r := x.uR
  let blk := (blkOfCode f).isSome
  let size := c.bankBytes (c.updBank x)
  let b := x.uStep % 2
  let z (v : Nat) : Bool := v == 0
  let hod := c.hod x.uHod
  [(f == 0 || knownFormat f, 0x3001, 127, f),
   (if c.outside x then x.uStep < 2 && !c.tailWrites && (c.bank b).state != 1 && c.bankFree b else c.inTail x, 0x7005,
     76, x.uStep),
   (o == 3 || (x.uHod < c.hodCount && x.uCount == hod.elems), 0x7005, if x.uHod < c.hodCount then 92 else 72,
     if x.uHod < c.hodCount then r else x.uHod),
   (x.uK0 + r ≤ k, 0x7005, 88, x.uK0),
   (f == 0 || x.f 56 8 + x.fwdBytes ≤ size, 0x7005, 56, x.f 56 4),
   (!blk || x.f 64 8 + x.fwdScale ≤ size, 0x7005, 64, x.f 64 4),
   (o != 3 || z x.uHod, 0x7005, 72, x.uHod),
   (1 ≤ k && k ≤ 65536 && (k % 32 == 0 || (k == 1 && (f == 0 || f == 8))), 0x7005, 80, k),
   (32 ≤ n && n ≤ 262144 && n % 32 == 0, 0x7005, 84, n),
   (x.uK0 % 32 == 0, 0x7005, 88, x.uK0),
   (if k = 1 then r == 1 else r != 0 && r % 32 == 0, 0x7005, 92, r),
   (o != 3 || (z (x.f 32 8) && z (x.f 40 8)), 0x7005, 32, x.f 32 4),
   (o == 1 || z (x.f 48 8), 0x7005, 48, x.f 48 4),
   (f != 0 || z (x.f 56 8), 0x7005, 56, x.f 56 4),
   (blk || z (x.f 64 8), 0x7005, 64, x.f 64 4),
   (o != 1 || Num.lt (.zero false) (f32 (x.f 108 4)), 0x7005, 108, x.f 108 4),
   (x.f 126 1 / 8 == 0, 0x7005, 126, x.f 126 1),
   ([0x00, 0x08, 0x81, 0x84, 0x86, 0x91].contains f, 0x7005, 127, f)] ++
  (if o = 3 then [] else
    [(c.heldFor x.uHod x.uStep, 0x8012, 72, x.uHod)])

/-! ### Reading and writing -/

/-- The lines of the momentum's scale tensor that hold the band's words. -/
def Desc.uLines (x : Desc) : Nat × Nat :=
  let b0 := x.u0 / 32
  let b1 := (x.u0 + x.uCount - 1) / 32
  (x.f 40 8 + 64 + 64 * (b0 / 30), 64 * (b1 / 30 + 1 - b0 / 30))

/-- Where block b's scale word lies. -/
def wordAddr (scale b : Nat) : Nat := scale + 64 + 64 * (b / 30) + 4 + 2 * (b % 30)

/-- The ranges a descriptor reads: master, grout, and where it updates, its hod, momentum and variance. -/
def Core.updRanges (c : Core) (x : Desc) (real : Bool) : List (Nat × Nat × Nat) :=
  let n := x.uCount
  [(16, x.f 16 8 + 2 * x.u0, 2 * n), (24, x.f 24 8 + x.u0, n)] ++
  (if real then
    [(72, c.imgAddr x.uHod, (c.hod x.uHod).imgBytes), (32, x.f 32 8 + x.u0, n), (40, x.uLines.1, x.uLines.2)] ++
    (if x.uOpt = 1 then [(48, x.f 48 8 + x.u0, n)] else [])
   else [])

/-- The masters and grouts of the band. -/
def Core.masters (c : Core) (x : Desc) : List (Nat × Nat) :=
  (unpack 16 x.uCount (c.bytes (x.f 16 8 + 2 * x.u0) (2 * x.uCount))).zip
    (unpack 8 x.uCount (c.bytes (x.f 24 8 + x.u0) x.uCount))

/-- The words of the band's momentum blocks. (log 66: DEDUCED) -/
def Core.momWords (c : Core) (x : Desc) : List Nat :=
  (List.range (x.uCount / 32)).map fun q => c.num (wordAddr (x.f 40 8) (x.u0 / 32 + q)) 2

/-- The blocks of a reduced hod (Table 9.3): scale word, and values decoded exactly (R20, R34, R35). -/
def Core.reducedBlks (c : Core) (nfp : Bool) (h : Nat) : List (Nat × List Num) :=
  let a := c.imgAddr h
  let x := c.hod h
  (List.range x.blocks).map fun i =>
    let w := c.num (a + 128 + 2 * i) 2
    (w, decodeBlk .b8e w (c.bytes (a + x.dataOff + 32 * i) 32) nfp 0 none 32)

/-- The reduced hod's values. -/
def Core.reduced (c : Core) (nfp : Bool) (h : Nat) : List Num := (c.reducedBlks nfp h).flatMap (·.2)

/-- The blocks of the band's momentum: exponent, and values. -/
def Core.momBlks (c : Core) (x : Desc) : List (Nat × List Num) :=
  ((c.momWords x).zipIdx).map fun (w, q) =>
    (w % 256, decodeBlk .b8m (w % 256) (c.bytes (x.f 32 8 + x.u0 + 32 * q) 32) x.nfp 0 none 32)

/-- What the update unit's reads meet (R20, R21, R33): masters, and where it updates, its hod and momentum, whose upper
scale byte is E_v (R251). -/
def Core.updSeen (c : Core) (x : Desc) (real : Bool) : Seen :=
  let blks (f : BlkFmt) (bs : List (Nat × List Num)) : Seen :=
    bs.foldl (fun s b => s.add (seenWord f b.1 32 (b.2.filter Num.nonFinite).length x.nfp)) {}
  let ms : Seen := { nonfin := ((c.masters x).filter fun p => (masterVal p.1 p.2).nonFinite).length }
  if real then (ms.add (blks .b8e (c.reducedBlks x.nfp x.uHod))).add (blks .b8m (c.momBlks x)) else ms

/-- An element after its update. -/
structure UpdE where
  m : Nat
  g : Nat
  mom : Num
  var : Num
  kept : Bool
  sat : Bool
  w0 : Num
  deriving DecidableEq, Repr

/-- Update one element; a change, momentum or variance that is not finite leaves it as it was. -/
def UpdP.run (p : UpdP) (mg : Nat × Nat) (gr mom var : Num) : UpdE :=
  let w := masterVal mg.1 mg.2
  let (dl, mo, vr) := p.elem gr w mom var
  if dl.nonFinite ∨ mo.nonFinite ∨ (p.opt = 1 ∧ vr.nonFinite) then
    { m := mg.1, g := mg.2, mom := mom, var := var, kept := true, sat := false, w0 := w }
  else
    let (m', g', s) := applyDelta mg.1 mg.2 dl
    { m := m', g := g', mom := mo, var := vr, kept := false, sat := s, w0 := w }

/-- The weight fields of a norm slot after a band (R249): FP32, in row-major order. -/
def Norm.addBand (x : Norm) (es : List UpdE) : Norm :=
  es.foldl
    (fun x e =>
      let w := rnd32 (masterVal e.m e.g)
      let d := fsub w (rnd32 e.w0)
      let mx (a : Nat) (v : Num) : Nat := if Num.absGt v (f32 a) then f32Code v.abs else a
      { x with
        wsq := f32Code (fadd (f32 x.wsq) (fmul w w)), dsq := f32Code (fadd (f32 x.dsq) (fmul d d)), dmax := mx x.dmax d
        wmax := mx x.wmax w, elems := if e.kept then x.elems else min (x.elems + 1) (2 ^ 32 - 1) }) x

/-- The parameters of a descriptor. -/
def Core.updParams (c : Core) (x : Desc) : UpdP :=
  let v (o : Nat) : Num := f32 (x.f o 4)
  let one : Num := .ofNat 1
  { opt := x.uOpt, nest := bitAt (x.f 126 1) 2
    kappa := f32 (match c.stp.tail with
      | some t => t.kappa
      | none => 0x3F800000)
    lr := v 96, b1 := v 100, b2 := v 104, ob1 := fsub one (v 100), ob2 := fsub one (v 104), eps := v 108, wd := v 112
    c1 := v 116, c2 := v 120 }

/-- Store a band's momentum and variance, block by block (R253). -/
def Core.putMoments (c : Core) (x : Desc) (ws : List Nat) (es : List UpdE) : Core :=
  let adam := x.uOpt == 1
  let lat := c.ownLatch (x.f 124 2) 4
  (List.range (x.uCount / 32)).foldl
    (fun c q =>
      let seg := (es.drop (32 * q)).take 32
      let o := convBlk .b8m lat true x.nfp 0 0 0 (seg.map UpdE.mom)
      let ev := if adam then varExp (seg.map UpdE.var) else ws.getD q 0 / 256
      let codes := seg.map fun e => varCode ev e.var
      let c := c.countConv o.cnt
      let c := c.put (x.f 32 8 + x.u0 + 32 * q) o.data
      let c := c.put (wordAddr (x.f 40 8) (x.u0 / 32 + q)) (toLE 2 (o.word % 256 + 256 * ev))
      if adam then
        (c.put (x.f 48 8 + x.u0 + 32 * q) (codes.flatMap fun p => toLE 1 p.1)).bump 0x7880 0x11
          (codes.filter fun p => p.2).length
      else c) c

/-- Write the forward copy of a band (R254); the last block's writer leaves the unused words of its line zero (R25). -/
def Core.putForward (c : Core) (x : Desc) (hstep : Nat) (mgs : List (Nat × Nat)) : Core :=
  let base := c.bankBase (c.updBank x)
  let fo := base + x.f 56 8
  let fs := base + x.f 64 8
  let n := x.uN
  match blkOfCode x.uFmt with
  | none => if x.uFmt = 0 then c else c.put (fo + 2 * x.u0) (mgs.flatMap fun p => toLE 2 p.1)
  | some f =>
    let kb := x.uK / 32
    let c := if x.uK0 = 0 then c.put fs (headerBytes x.uFmt 6 n kb hstep) else c
    let lat := c.noLatch (x.f 124 2) 2 4 0
    let ws := mgs.map fun p => masterVal p.1 p.2
    (List.range n).foldl
      (fun c j =>
        (List.range (x.uR / 32)).foldl
          (fun c q =>
            let blk := j * kb + x.uK0 / 32 + q
            let vals := (List.range 32).map fun i => ws.getD ((32 * q + i) * n + j) (.zero false)
            let o := convBlk f lat true x.nfp 0 0 0 vals
            let line := fs + 64 + 64 * (blk / 30)
            let c := (c.countConv o.cnt).put (fo + blk * f.bytes) o.data
            let rest := if blk + 1 = n * kb then 29 - blk % 30 else 0
            (c.put line (toLE 4 (30 * (blk / 30) % 2 ^ 24 + 6 * 2 ^ 24))).put (wordAddr fs blk)
              (toLE 2 o.word ++ List.replicate (2 * rest) 0)) c) c

/-- The elements of a band after their update (R252, R253). -/
def Core.updElems (c : Core) (x : Desc) : List UpdE :=
  let p := c.updParams x
  let ws := c.momWords x
  let moms := (c.momBlks x).flatMap fun b => b.2.map rnd32
  let vars := if x.uOpt = 1 then
      (unpack 8 x.uCount (c.bytes (x.f 48 8 + x.u0) x.uCount)).zipIdx.map fun (q : Nat × Nat) =>
        varVal (ws.getD (q.2 / 32) 0 / 256) q.1
    else List.replicate x.uCount (.zero false)
  (((c.masters x).zip (c.reduced x.nfp x.uHod)).zip (moms.zip vars)).map fun (q : ((Nat × Nat) × Num) × (Num × Num)) =>
    p.run q.1.1 q.1.2 q.2.1 q.2.2

/-- The first write of an update: its hod is started (R255), and master weight slots become stale (R71). -/
def Core.startUpd (c : Core) (x : Desc) : Core := (c.setJ x.uHod x.uStep 3).staleSlots fun a => c.inPart 1 a 1

/-- The update itself (R252, R253, R255): started is set, masters, grouts and moments are written, norms are summed. -/
def Core.optimise (c : Core) (d src : Nat) (x : Desc) : Core :=
  let ws := c.momWords x
  let es := c.updElems x
  let kept := (es.filter UpdE.kept).length
  let sat := (es.filter UpdE.sat).length
  let c := c.startUpd x
  let c := c.put (x.f 16 8 + 2 * x.u0) (es.flatMap fun e => toLE 2 e.m)
  let c := (c.put (x.f 24 8 + x.u0) (es.flatMap fun e => toLE 1 e.g)).putMoments x ws es
  let layer := x.f 124 2
  let c := c.modTail fun (s : StepSlot) => { s with
    kept := s.kept + kept
    norms := if 4096 ≤ layer then s.norms else KMap.set s.norms layer ((s.norm layer).addBand es) }
  let c := ((c.bump 0x7880 9 (es.length - kept)).bump 0x7880 0xA kept).bump 0x3008 6 sat
  let c := if kept = 0 then c else c.raiseOnce d { code := 0x7012, source := src }
  if sat = 0 then c else c.raiseOnce d { code := 0x3006, source := src }

/-- A descriptor's buffer meets injection (R268): it goes on, or is rejected with its hod left started. -/
def Core.updBuffer (c : Core) (d : Nat) (x : Desc) (real : Bool) (k : Core → Core) : Core :=
  match c.inject 0x0D (c.uus.headD 0) 0 with
  | (none, c) => k c
  | (some p, c) =>
    if singleBit p then k (c.bump 0x7880 0x10 1)
    else (if real then c.startUpd x else c).reject d 0x7020 c.uuSrc 0xFFFF 0 true

/-- The work of a descriptor that passed its checks. -/
def Core.updWork (c : Core) (d : Nat) (x : Desc) : Core :=
  let src := c.uuSrc
  let out := c.outside x
  let b := c.updBank x
  let nfg := c.stp.tail.any fun t => t.nonfinite
  let real := x.uOpt != 3 && !nfg
  let hstep := if out then c.step else x.uStep
  match c.fetchAll (c.updRanges x real) with
  | (c, some (off, e)) => c.rejectAccess d src off e
  | (c, none) =>
    let c := c.countSeen d src (c.updSeen x real)
    if !c.live d then c
    else c.updBuffer d x real fun c =>
      let c := if out then c.setBank b { c.bank b with state := 4, byStep := false, holds := false } else c
      let c := if real then c.optimise d src x else c
      if c.live d then (c.putForward x hstep (c.masters x)).workDone d else c

/-- What judging an update of a hod reads (R293): the hod's entry in the table, and the journal's. -/
def Core.updEntries (c : Core) (x : Desc) : List (Nat × Nat) :=
  if x.uOpt = 3 ∨ c.hodCount ≤ x.uHod then [] else [(c.obj 0x8010 1 + 32 * x.uHod, 32), (c.jAddr x.uHod, 16)]

/-- A type 0x72 descriptor at issue (R255, R256, R266, R293). One with a forward format waits for its step's bank; with
no update unit every one waits. (log 67: DEDUCED) -/
def Core.updIssue (c : Core) (dev : Dev) (d opt : Nat) : Core :=
  match c.desc? d with
  | none => c
  | some x =>
    let waits := c.uus.isEmpty || ((firstBad (c.updChecks x)).isNone && x.uFmt != 0 && !c.outside x &&
      !(x.uOpt != 3 && c.jApplied x.uHod) && !(x.uOpt != 3 && c.jStarted x.uHod) &&
      !c.stp.tail.any fun t => t.st == 3)
    if x.uOpt ≠ opt ∨ waits then c
    else
      c.issue dev d [0x72] (fun _ => [4, 5]) fun x c =>
        let c := (c.updEntries x).foldl (fun c r => c.touch r.1 r.2) c
        c.checked d c.uuSrc (c.updChecks x) fun c =>
          if (c.updEntries x).any fun r => c.poisoned r.1 r.2 then
            c.rejectAccess d c.uuSrc 72 (0x9011, x.uHod)
          else if x.uOpt = 3 then c.updWork d x
          else if c.jApplied x.uHod then
            ((c.modTail fun (s : StepSlot) => { s with skipped := s.skipped + 1 }).bump 0x7880 0xB 1).workDone d
          else if c.jStarted x.uHod then
            let c := c.modTail fun (s : StepSlot) => { s with torn := true }
            (c.reject d 0x7013 c.uuSrc 72 x.uHod).sendFp.settle
          else c.updWork d x

def execUpdateSgd (d : Nat) : State → Res := lift fun dev c => c.updIssue dev d 0

def execUpdateAdamw (d : Nat) : State → Res := lift fun dev c => c.updIssue dev d 1

def execUpdateSignMomentum (d : Nat) : State → Res := lift fun dev c => c.updIssue dev d 2

def execRefresh (d : Nat) : State → Res := lift fun dev c => c.updIssue dev d 3

/-- The bytes a fingerprint covers (R294). -/
def Core.stateBytes (c : Core) (x : Desc) : List Byte :=
  let n := x.uCount
  c.bytes (x.f 16 8 + 2 * x.u0) (2 * n) ++ c.bytes (x.f 24 8 + x.u0) n ++ c.bytes (x.f 32 8 + x.u0) n ++
    ((c.momWords x).flatMap (toLE 2)) ++ (if x.uOpt = 1 then c.bytes (x.f 48 8 + x.u0) n else [])

/-- What an update does when its writes are acknowledged: applied and the fingerprint are set (R255, R294).
(log 67: DEDUCED) -/
def Core.updDone (c : Core) (x : Desc) : Core :=
  let c := c.bump 0x7880 8 1
  if x.uOpt ≠ 3 ∧ c.jStep x.uHod = x.uStep ∧ c.jStarted x.uHod ∧ !c.jApplied x.uHod then
    let c := (c.setFp x.uHod (crc64 (c.stateBytes x))).setJ x.uHod x.uStep 7
    c.modTail fun (s : StepSlot) => { s with applied := s.applied + 1 }
  else c

/-! ### Curtains (R260, R261) -/

/-- The checks of R260, R261 and R265 for type 0x73. -/
def Core.curtainChecks (c : Core) (x : Desc) : List (Bool × Nat × Nat × Nat) :=
  let op := x.f 20 1
  let b := x.f 21 1
  let other := c.bank (1 - b % 2)
  [(op == 1 || op == 2, 0x7006, 20, op),
   (x.f 22 2 == 0, 0x7006, 22, x.f 22 2),
   (x.f 28 4 == 0, 0x7006, 28, x.f 28 4)] ++
  (if op = 1 then
    [(x.f 16 4 == 0, 0x7006, 16, x.f 16 4), (b == 0, 0x7006, 21, b),
     (c.stp.tail.any fun t => t.step == x.f 24 4 && t.st == 3, 0x7006, 24, x.f 24 4)]
   else
    [(b < 2, 0x7006, 21, b), (x.f 24 4 == 0, 0x7006, 24, x.f 24 4),
     ((c.bank b).state != 1 && c.bankFree b && !c.tailWrites, 0x7006, 21, b),
     (!other.holds || other.version != x.f 16 4, 0x7006, 16, x.f 16 4)])

/-- A curtain takes effect: a bank becomes NEWEST with a version, the other PREVIOUS (R260). -/
def Core.curtain (c : Core) (b version : Nat) : Core :=
  let o := c.bank (1 - b)
  let c := c.setBank (1 - b) { o with state := 2 }
  let c := c.setBank b { c.bank b with state := 1, version := version, holds := true, byStep := false }
  (c.staleSlots fun a => c.inPart 3 a 1 || c.inPart 1 a 1).bump 0x7880 0xC 1

/-- A type 0x73 descriptor at issue; a bad op is rejected as a PUBLISH. -/
def Core.curtainIssue (c : Core) (dev : Dev) (d op : Nat) (body : Desc → Core → Core) : Core :=
  match c.desc? d with
  | none => c
  | some x =>
    if x.f 20 1 = op ∨ (op = 1 ∧ x.f 20 1 ≠ 2) then
      c.issue dev d [0x73] (fun _ => []) fun x c => c.checked d stepSrc (c.curtainChecks x) (body x)
    else c

/-- The version a PUBLISH gives: the newest plus one; with none published the manual gives none, a free value
(log 4: DESIGN CHOICE). (log 65: DESIGN CHOICE) -/
def Core.nextVersion (c : Core) : Nat × Core :=
  match c.newest with
  | some b => (((c.bank b).version + 1) % 2 ^ 32, c)
  | none => c.draw (2 ^ 32)

def execPublish (d : Nat) : State → Res :=
  lift fun dev c =>
    c.curtainIssue dev d 1 fun _ c =>
      let b := if (c.bank 1).byStep && (c.bank 1).state == 4 then 1 else 0
      let (v, c) := c.nextVersion
      let c := c.curtain b v
      let c := c.modTail fun (s : StepSlot) => { s with st := 4, version := v, published := true, tPublish := c.now }
      (((c.workDone d).signalNow d).sendFp).settle

def execLoad (d : Nat) : State → Res :=
  lift fun dev c => c.curtainIssue dev d 2 fun x c =>
    ((c.curtain (x.f 21 1) (x.f 16 4)).workDone d).signalNow d

/-! ### Exports (R263) -/

/-- The checks of R265 and R266 for type 0x74. -/
def Core.exportChecks (c : Core) (x : Desc) : List (Bool × Nat × Nat × Nat) :=
  let b := x.f 20 1
  [(b < 2, 0x7007, 20, b),
   (x.f 21 1 < 2, 0x7007, 21, x.f 21 1),
   (x.f 21 1 == 1 || x.f 22 1 == 0, 0x7007, 22, x.f 22 1),
   (x.f 23 1 == 0, 0x7007, 23, x.f 23 1),
   (x.f 24 8 % 4096 == 0, 0x7007, 24, x.f 24 4),
   (x.f 32 8 % 4096 == 0 && x.f 32 8 != 0, 0x7007, 32, x.f 32 4),
   (x.f 24 8 + x.f 32 8 ≤ c.bankBytes b, 0x7007, 24, x.f 24 4),
   (x.f 48 8 % 16 == 0, 0x7007, 48, x.f 48 4),
   (x.f 56 8 == 0, 0x7007, 56, x.f 56 4)]

/-- An export ends with a status, and its descriptor's work with it. (log 68: DEDUCED) -/
def Core.exportEnds (c : Core) (d status : Nat) : Core := ((c.endExport d status).owe c (.desc d)).workDone d

/-- Send pieces to the peer while a tag is free, up to eight at a time; without a route the peer counts as refusing.
(log 68: DEDUCED) -/
def Core.exportPump (c : Core) (d : Nat) : Nat → Core
  | 0 => c
  | n + 1 =>
    match KMap.get? c.stp.exports d with
    | none => c
    | some r =>
      match r.left with
      | [] => if r.flight = 0 then c.exportEnds d 1 else c
      | (off, len) :: rest =>
        if 8 ≤ r.flight then c
        else if c.route r.peer = .none then c.exportEnds d 3
        else
          let bs := c.bytes (r.src + off) len
          match c.sendWr 2 r.peer (r.dst + off) bs (.exportWr d off) with
          | none => c
          | some c =>
            let r := { r with left := rest, flight := r.flight + 1, crc := crc64More r.crc bs }
            ({ c with stp := { c.stp with exports := KMap.set c.stp.exports d r } }).exportPump d n

/-- A piece has been acknowledged. -/
def Core.exportAcked (c : Core) (d code : Nat) : Core :=
  match KMap.get? c.stp.exports d with
  | none => c
  | some r =>
    if code ≠ 0 then c.exportEnds d 3
    else
      ({ c with stp := { c.stp with
        exports := KMap.set c.stp.exports d { r with flight := r.flight - 1 } } }).exportPump d (r.left.length + 1)

/-- An export that finds another version, or a bank asked for or being written: nothing is sent (status 0x02). -/
def Core.exportRefused (c : Core) (d : Nat) (x : Desc) : Core :=
  let c := c.put (x.f 48 8) (toLE 8 (crc64 []) ++ toLE 1 2 ++ toLE 7 0)
  ((c.bump 0x7880 0xF 1).raise { code := 0x7014, source := stepSrc, d := some d }).workDone d

/-- (log 68: DEDUCED) -/
def execExportBank (d : Nat) : State → Res :=
  lift fun dev c =>
    c.issue dev d [0x74] (fun _ => []) fun x c =>
      c.checked d stepSrc (c.exportChecks x) fun c =>
        match c.lbad (x.f 48 8) 16 with
        | some e => c.rejectAccess d stepSrc 48 e
        | none =>
          let b := x.f 20 1
          let k := c.bank b
          if !k.holds || k.version != x.f 16 4 || k.state == 3 || k.state == 4 then c.exportRefused d x
          else
            let src := c.bankBase b + x.f 24 8
            let n := x.f 32 8
            match c.lfetch src n with
            | (c, some e) => c.rejectAccess d stepSrc 24 e
            | (c, none) =>
              let bs := c.bytes src n
              let peer := x.f 21 1 == 1
              let run : ExportRun :=
                { bank := b, src := src, dst := x.f 40 8, peer := x.f 22 1, flight := 0, crc := if peer then 0 else crc64 bs, at_ := c.now
                  left := if peer then (List.range (n / 4096)).map fun i => (4096 * i, 4096) else [] }
              let c := c.setBank b { k with exports := k.exports + 1 }
              let c := { c with stp := { c.stp with exports := KMap.set c.stp.exports d run } }
              if peer then c.exportPump d (n / 4096 + 1)
              else (c.hostStore (c.queueFn x.queue) (x.f 40 8) bs).exportEnds d 1

end Sys2Proof.Machine
end

