-- ==== Sys2Proof/Machine/Views.lean ====
section
/-! DEFINITION. What a read of an object returns (R369, R373): the objects that show the state of a block, and the
bytes of STR, BLOB and REC objects. -/

namespace Sys2Proof.Machine

/-- The code of a device state (Table 0.4). -/
def devCode : Dev → Nat
  | .off => 0
  | .boot => 1
  | .standby => 2
  | .ready => 3
  | .run => 4
  | .drain => 5
  | .faultStop => 6
  | .rejoin => 7

/-- The larger of FP32 patterns of a list, 0 of none. -/
def maxF32 (xs : List Nat) : Nat := xs.foldl (fun a x => if Num.absGt (f32 x) (f32 a) then x else a) 0

/-- The view of the selected tracker record (0x3101). -/
def Core.trackView (c : Core) (sub : Nat) : Nat :=
  let s := c.selected 0x3100 0
  let layer := fld s 11 0
  let role := fld s 14 12
  let kind := if bitAt s 16 then 2 else 1
  let r := c.record layer kind role
  let p := c.profileOf layer role
  match sub with
  | 1 => delayedExp role (c.prof p 2) (elemOf r.fmt).maxMag (f32 r.aref)
  | 2 => r.obs.amax
  | 3 => maxF32 ((r.hist.take (c.prof p 1)).map fun e => e.2)
  | 4 => r.obs.replays
  | 5 =>
    (if c.isWidened layer kind then 1 else 0) + (if r.hist.isEmpty then 2 else 0) +
      (if c.fwd.wideStep then 4 else 0)
  | _ => r.aref

/-- The view of the selected histogram (0x3431). -/
def Core.histView (c : Core) (sub : Nat) : Nat :=
  let s := c.selected 0x3430 0
  let kind := if bitAt s 15 then 2 else 1
  if 4096 ≤ fld s 14 0 then 0
  else ((KMap.get? c.fwd.lastHist (kind * 4096 + fld s 14 0)).getD []).getD (sub - 1) 0

/-- The work tag of a running descriptor; bit 31 set when idle. -/
def Core.activeTag (c : Core) (d : Option Nat) : Nat :=
  match d.bind c.desc? with
  | some x => x.tag
  | none => 2 ^ 31

/-- Ring bytes under no open claim (0x7101). -/
def Core.ringFree (c : Core) : Nat :=
  let p := c.stp.pal
  if c.stp.isOpen then c.palCap - (p.n * p.b + p.r) - p.i * c.openClaims.length else 0

/-- The mode of the selected microbatch (0x7104:02). -/
def Core.mbView (c : Core) (base : Bool) : Nat :=
  match (if c.stp.isOpen then KMap.get? c.stp.pal.mbs (c.selected 0x7104 1) else none) with
  | none => 0
  | some m => if base then (if m.full then m.base else 0) else if m.closed then 3 else m.mode

/-- Objects of ranges 1 and 3 to 5 that show a block's state. -/
def Core.viewLow (dev : Dev) (c : Core) (index sub : Nat) : Option Nat :=
  if index = 0x1002 then some c.module_.serial
  else if index = 0x1003 then some c.module_.hwRev
  else if index = 0x1010 then some (devCode dev)
  else if index = 0x1030 ∧ sub = 2 then some c.now
  else if index = 0x1F02 then some c.dict.staged.length
  else if index = 0x1F03 then some c.dict.owner
  else if index = 0x1032 then
    let up (b : Bool) (v : Nat) : Nat := if b then v else 0
    some (if sub = 1 then up c.dict.k0 1 else if sub = 2 then up c.dict.k1 1
      else if c.dict.k0 then up (!c.dict.k1) 1 else if c.dict.k1 then 2 else 3)
  else if 0x2300 ≤ index ∧ index ≤ 0x2321 ∧ sub = 2 then some (Config.clkFifoDepth (index - 0x2300) % 65536)
  else if index = 0x3101 then some (c.trackView sub)
  else if 0x3410 ≤ index ∧ index ≤ 0x341F then
    let l := 256 * (index - 0x3410) + sub
    some (16 * c.planesNow l 2 + c.planesNow l 1)
  else if index = 0x3431 then some (c.histView sub)
  else if index = 0x3700 ∧ sub = 3 then some (if c.fwd.wideStep then 1 else 0)
  else if index = 0x3700 ∧ sub = 4 then some (c.layersWidened 2)
  else if 0x4100 ≤ index ∧ index ≤ 0x410F ∧ sub = 5 then some (c.activeTag (KMap.get? c.fwd.active (index - 0x4100)))
  else if 0x5100 ≤ index ∧ index ≤ 0x5103 ∧ sub = 2 then some (c.activeTag (KMap.get? c.bwd.active (index - 0x5100)))
  else none

/-- Objects of ranges 6 to 8 that show a block's state. -/
def Core.viewMid (c : Core) (index sub : Nat) : Option Nat :=
  if 0x6100 ≤ index ∧ index ≤ 0x6103 ∧ sub = 9 then some (c.freePages (index - 0x6100))
  else if 0x6100 ≤ index ∧ index ≤ 0x6103 ∧ sub = 10 then some (c.quarantined (index - 0x6100))
  else if index = 0x6110 then some c.attn.quarantine.length
  else if index = 0x6120 then some (c.oldestWalk.getD (2 ^ 64 - 1))
  else if index = 0x6203 then
    some (if sub = 1 then 16384 - (c.roll.ctxs.filter fun p => p.2.state != 0).length
      else (c.roll.ctxs.filter fun p => p.2.state + 1 == sub).length)
  else if index = 0x6220 then some (c.readers (sub - 1))
  else if index = 0x6231 then
    some (match c.roll.hold with
      | some h => c.now - h.2.1
      | none => 0)
  else if index = 0x6301 then some c.roll.valid
  else if index = 0x6302 then some c.roll.cold
  else if index = 0x7010 then some (if sub = 1 then c.step else (c.stp.tail.map (·.step)).getD (2 ^ 32 - 1))
  else if index = 0x7011 then some (((if sub = 1 then c.stp.head else c.stp.tail).map (·.st)).getD 0)
  else if index = 0x7012 then some ((c.stp.tail.map (·.kappa)).getD 0x3F800000)
  else if index = 0x7101 then some c.ringFree
  else if index = 0x7102 then some ((c.stp.head.map (·.highWater)).getD 0)
  else if index = 0x7104 ∧ sub = 2 then some (c.mbView false)
  else if index = 0x7104 ∧ sub = 3 then some (c.mbView true)
  else if (index = 0x7200 ∨ index = 0x7201) ∧ sub = 1 then some (c.bank (index - 0x7200)).state
  else if (index = 0x7200 ∨ index = 0x7201) ∧ sub = 2 then some (c.bank (index - 0x7200)).version
  else if (index = 0x7200 ∨ index = 0x7201) ∧ sub = 5 then some (c.bank (index - 0x7200)).exports
  else if index = 0x7210 then some (c.newest.getD 0xFF)
  else if index = 0x8003 then
    some (ofLE (bytesAt (toLE 32 (bitmap (c.membersAt ((c.step + 1) % 2 ^ 32)))) (8 * (sub - 1)) 8))
  else if index = 0x8004 then some ((leaderOf (c.membersAt ((c.step + 1) % 2 ^ 32))).getD 0)
  else if index = 0x8040 ∧ sub = 2 then some (if c.selected 0x8040 1 < c.hodCount then c.jFp (c.selected 0x8040 1) else 0)
  else if index = 0x8040 ∧ sub = 3 then some c.xch.summary
  else if index = 0x8040 ∧ sub = 4 then some c.xch.agreed
  else if index = 0x8050 ∧ sub = 1 then
    some (match c.xch.grant with
      | some g => g.2.1
      | none => 0xFF)
  else if index = 0x8050 ∧ sub = 2 then some c.xch.pulled
  else if index = 0x8060 then some c.xch.slots.length
  else if 0x8100 ≤ index ∧ index ≤ 0x8105 ∧ 2 ≤ sub ∧ sub ≤ 5 then
    let p := c.port (index - 0x8100)
    some (if sub = 2 then p.state else if sub = 3 then p.peer else if sub = 4 then p.lanes else p.delay)
  else none

/-- Objects of ranges 9 to C that show a block's state. -/
def Core.viewHigh (c : Core) (index sub : Nat) : Option Nat :=
  if index = 0x9001 then some c.hbmBytes
  else if index = 0x9801 then some (c.spareRows (sub - 1))
  else if isQueueObj index ∧ 6 ≤ sub ∧ sub ≤ 10 then
    let q := c.queue (index - 0xA100)
    some (if sub = 6 then q.head else if sub = 7 then q.tail else if sub = 8 then q.state else q.lastEvent)
  else if isTally index then some (c.tally (tallyOf index sub))
  else if index = 0xA400 then some c.tagsFree
  else if index = 0xB031 ∧ sub = 1 then some (if c.log.cleared then 1 else 0)
  else if index = 0xB101 ∧ sub = 1 then some c.log.written
  else if index = 0xB103 ∧ sub = 2 then some (KMap.getD c.log.codes (c.obj 0xB103 1) 0)
  else if index = 0xB301 ∧ sub = 2 then
    some (if (KMap.get? c.dict.objs (okey 0xB301 1)).isSome then Config.watchSource (c.obj 0xB301 1) % 65536 else 0)
  else if 0xB400 ≤ index ∧ index ≤ 0xB407 ∧ (sub = 8 ∨ sub = 9) then
    some (match KMap.get? c.inj (index - 0xB400) with
      | some s => if sub = 8 then s.count else s.state
      | none => 0)
  else if index = 0xC100 ∧ sub = 4 then some c.sec.level
  else none

/-- The value of a scalar object. -/
def Core.scalar (dev : Dev) (c : Core) (index sub : Nat) : Nat :=
  let v := if index < 0x6000 then c.viewLow dev index sub else if index < 0x9000 then c.viewMid index sub
    else c.viewHigh index sub
  v.getD (c.obj index sub)

/-! ### STR, BLOB and REC objects -/

/-- The part number (Table 0.1), padded to 16 B. -/
def partNumber (part : Nat) : List Byte :=
  let s : List Nat := [0x43, 0x48, 0x56, 0x2D, 0x55, 0x39, 0x2D] ++
    (if part = 512 then [0x35, 0x31, 0x32] else [0x37, 0x36, 0x38])
  bytesAt (s.map (BitVec.ofNat 8)) 0 16

/-- The keystone result (Table 12.4). -/
def Core.ksBytes (c : Core) : List Byte :=
  let d := c.dict
  toLE 1 d.ksResult ++ toLE 1 0 ++ toLE 2 d.ksObjects ++ toLE 2 (d.ksFail / 256) ++ toLE 1 (d.ksFail % 256) ++ toLE 1 0 ++
    toLE 8 d.ksNumber ++ toLE 8 d.ksTime

/-- Record n since BOOT, while the mirror holds it (R448). -/
def Core.recordN (c : Core) (n : Nat) : List Byte :=
  if n < c.log.written then
    match c.log.recs[c.log.written - 1 - n]? with
    | some r => r.bytes
    | none => List.replicate 32 0
  else List.replicate 32 0

/-- The 1,024-entry log: entry j holds the newest record n with n mod 1,024 = j. -/
def Core.eventLog (c : Core) : List Byte :=
  let w := c.log.written
  (List.range 1024).flatMap fun j => if j < w then c.recordN (w - 1 - (w - 1 - j) % 1024) else List.replicate 32 0

/-- The repair candidates of the selected stack (R324): rows whose count has reached the threshold. (log 93: DEDUCED) -/
def Core.candidates (c : Core) : List Byte :=
  let rs := (KMap.getD c.mem.rows (c.selected 0x9802 0) []).filter fun r => c.obj 0x9200 2 ≤ r.count
  bytesAt (rs.flatMap fun r => toLE 8 r.target ++ toLE 4 r.count ++ toLE 4 0) 0 4096

/-- The body of the repair map in force (R435). -/
def Core.repairBody (c : Core) : List Byte :=
  toLE 4 c.mem.repairs.length ++ toLE 4 0 ++ c.mem.repairs.flatMap fun r => toLE 8 r.1 ++ toLE 1 r.2 ++ toLE 7 0

/-- The repair map in force as a blob (Table 14.5) with its signature zero. -/
def Core.repairBlob (c : Core) : List Byte :=
  let b := c.repairBody
  toLE 4 blobMagic ++ toLE 1 1 ++ toLE 1 2 ++ toLE 2 0 ++ c.serialBytes ++ toLE 2 c.module_.hwRev ++ toLE 2 0 ++
    toLE 4 c.sec.configSeq ++ toLE 4 b.length ++ sha512 b ++ List.replicate 164 0 ++ b

/-- The bytes a STR, BLOB or REC object reads as. (log 93: DEDUCED) -/
def Core.blobBytes (c : Core) (index sub : Nat) : List Byte :=
  let rec_ (s : Option StepSlot) : List Byte := match s with
    | some x => bytesAt (c.recordBytes x) 0 256
    | none => List.replicate 256 0
  if index = 0x1001 then partNumber c.module_.part
  else if index = 0x1F01 then c.ksBytes
  else if index = 0x6202 then (KMap.getD c.roll.ctxs (c.selected 0x6201 0) {}).bytes
  else if index = 0x7300 then rec_ c.stp.head
  else if index = 0x7301 then rec_ c.stp.tail
  else if index = 0x7302 then bytesAt c.stp.last 0 256
  else if index = 0x9803 then c.candidates
  else if index = 0x9810 then c.repairBlob
  else if index = 0xB030 then match c.log.cause with
    | some e => e.bytes
    | none => List.replicate 32 0
  else if index = 0xB100 then c.eventLog
  else if index = 0xB102 then c.recordN (c.obj 0xB102 1)
  else if index = 0xC100 then match c.liveChallenge with
    | some n => n ++ c.serialBytes
    | none => List.replicate 40 0
  else if index = 0xC200 then if c.sec.quote.isEmpty then List.replicate (480 + 64 * c.sec.blobDigests.length) 0 else c.sec.quote
  else if index = 0xC040 then bytesAt (c.blob index sub) 0 32
  else if index = 0xC420 then (c.module_.flash 0).read overrideOff 256
  else if 0xC021 ≤ index ∧ index ≤ 0xC024 ∨ index = 0xC042 then bytesAt (c.blob index sub) 0 64
  else c.blob index sub

/-- The size of an object in bytes, as DESCRIBE gives it (R388): a BLOB written whole has the size of its region or
record; a configuration blob's size is the largest its partition holds. (log 93: DEDUCED) -/
def Core.objSize (c : Core) (index sub : Nat) : Nat :=
  match objRow? index sub with
  | none => 0
  | some r =>
    if tyBytes r.ty ≠ 0 then tyBytes r.ty
    else if r.acc ≠ 3 ∧ index ≠ 0xC420 then (c.blobBytes index sub).length
    else if index = 0xC100 then 72
    else if index = 0xC200 then 32
    else if 0xC310 ≤ index ∧ index ≤ 0xC314 then (updRegion (index - 0xC310)).2
    else if index = 0xC401 then configLen
    else 256

end Sys2Proof.Machine
end

