-- ==== Sys2Proof/Machine/Keystone.lean ====
section
/-! DEFINITION. The keystone (R375 to R377): the checks each chapter names for its range, what applying a staged set
does, and the staging set's end. -/

namespace Sys2Proof.Machine

/-! ### Checks

A check is a list of conditions, each with the keys of the objects whose values it compares. -/

/-- A condition and the objects it names. -/
abbrev KsCond := Bool × List Nat

/-- Is an FP32 value within bounds given as FP32 patterns? A NaN or an infinity is not. (log 104: DEDUCED) -/
def inF32 (x lo hi : Nat) : Bool :=
  !(f32 x).nonFinite && !Num.lt (f32 x) (f32 lo) && !Num.lt (f32 hi) (f32 x)

/-- Values of subindices s of n objects from a base. -/
def keysOf (base n : Nat) (subs : List Nat) : List Nat :=
  (List.range n).flatMap fun i => subs.map fun s => okey (base + i) s

/-- The keys, of a list, whose value a staged set changes. (log 104: DEDUCED) -/
def changedOf (old new : Core) (ks : List Nat) : List Nat :=
  ks.filter fun k => old.obj (k / 256) (k % 256) != new.obj (k / 256) (k % 256)

/-- A condition on every object of a list. -/
def eachKey (ks : List Nat) (ok : Nat → Bool) : List KsCond := ks.map fun k => (ok k, [k])

/-- The range of an object. (log 104: DEDUCED) -/
def inRange (c : Core) (index sub lo hi : Nat) : KsCond :=
  (lo ≤ c.obj index sub && c.obj index sub ≤ hi, [okey index sub])

/-- R418: 0.62 V, 0.85 V, 1.35 and 2.22 G handshakes/s, 70 and 95 °C as FP32. -/
def ksPower (_old new : Core) (_st : List Nat) : List KsCond := [
  inRange new 0x2001 0 900 2100,
  (inF32 (new.obj 0x2010 0) 0x3FACCCCD 0x400E147B, [okey 0x2010 0]),
  (inF32 (new.obj 0x2011 1) 0x3F1EB852 0x3F59999A && inF32 (new.obj 0x2011 2) (new.obj 0x2011 1) 0x3F59999A,
    [okey 0x2011 1, okey 0x2011 2]),
  inRange new 0x2012 0 10000 1000000000,
  (inF32 (new.obj 0x2201 0) 0x428C0000 0x42BE0000, [okey 0x2201 0])]

/-- R88: every staged 0x3400+j object. -/
def ksPlanes (_old new : Core) (st : List Nat) : List KsCond :=
  eachKey (st.filter fun k => 0x3400 ≤ k / 256 && k / 256 ≤ 0x340F) fun k =>
    let v := new.obj (k / 256) (k % 256)
    1 ≤ v % 16 && v % 16 ≤ v / 16 && v / 16 ≤ 8

/-- R171. -/
def ksScale (_old new : Core) (st : List Nat) : List KsCond :=
  let staged (lo hi : Nat) : List Nat := st.filter fun k => lo ≤ k / 256 && k / 256 ≤ hi
  let v (k : Nat) : Nat := new.obj (k / 256) (k % 256)
  eachKey (staged 0x3500 0x350F) (fun k => v k < 2 ^ 24) ++
  eachKey (staged 0x3520 0x352F) (fun k => v k % 64 == 0) ++
  ((List.range 16).flatMap fun i =>
    let o := 0x3600 + i
    [inRange new o 1 1 32, inRange new o 2 0 15, inRange new o 3 0 31, inRange new o 4 0 2,
     (inF32 (new.obj o 6) 0 0x3F800000, [okey o 6]),
     (Num.lt (.zero false) (f32 (new.obj o 8)) && !(f32 (new.obj o 8)).nonFinite, [okey o 8])]) ++
  [(inF32 (new.obj 0x3700 1) 0 0x3F800000, [okey 0x3700 1]), inRange new 0x3710 2 1 64,
   (new.obj 0x3710 1 % 64 == 0, [okey 0x3710 1])]

/-- Masks of several groups, word by word: bits inside what is available, and in one mask only (R74, R129). -/
def ksMasks (new : Core) (base n s0 words avail : Nat) : List KsCond :=
  (List.range words).flatMap fun w =>
    (List.range n).flatMap fun g =>
      let m := new.obj (base + g) (s0 + w)
      let others := (List.range n).foldl (fun a h => if h = g then a else a ||| new.obj (base + h) (s0 + w)) 0
      [(m &&& new.obj avail (if words = 1 then 0 else 1 + w) == m, [okey (base + g) (s0 + w)]),
       (m &&& others == 0, [okey (base + g) (s0 + w)])]

/-- R74, with the roles. -/
def ksTiles (_old new : Core) (_st : List Nat) : List KsCond :=
  ksMasks new 0x4100 16 1 3 0x4002 ++ (List.range 16).map fun g => inRange new (0x4100 + g) 4 0 3

/-- 0x4A11:00. -/
def ksSeeds (_old new : Core) (_st : List Nat) : List KsCond := [inRange new 0x4A11 0 0 1]

/-- R129. -/
def ksArrays (_old new : Core) (_st : List Nat) : List KsCond := ksMasks new 0x5100 4 1 1 0x5002

/-- R187 for pool n. -/
def ksPool (old new : Core) (n : Nat) : List KsCond :=
  let o := 0x6100 + n
  let v (s : Nat) : Nat := new.obj o s
  let ks := keysOf o 1 [1, 2, 3, 4, 5, 6, 7, 8]
  let free := (old.pool n).alloc.isEmpty && old.quarantined n == 0
  [(free || (changedOf old new ks).isEmpty, changedOf old new ks)] ++
  (if v 1 = 0 then [] else
    [(v 1 % 4096 == 0 && new.inPart 4 (v 1) (v 3 * v 2), [okey o 1, okey o 2, okey o 3]),
     (v 2 % 4096 == 0 && v 2 != 0 && 1024 * v 7 * fmtBits (v 8) ≤ v 2, [okey o 2, okey o 7, okey o 8]),
     (1 ≤ v 3 && v 3 ≤ 2 ^ 32 - 2, [okey o 3]),
     (v 4 % 64 == 0 && new.inPart 4 (v 4) (v 3 * v 5), [okey o 3, okey o 4, okey o 5]),
     (v 5 % 64 == 0 && 64 + 576 * v 7 ≤ v 5, [okey o 5, okey o 7]),
     (v 6 % 64 == 0 && new.inPart 4 (v 6) (new.poolArea n).2, [okey o 3, okey o 6]),
     inRange new o 7 1 16,
     ([0x81, 0x82, 0x83, 0x08].contains (v 8), [okey o 8])])

/-- R187. -/
def ksPools (old new : Core) (_st : List Nat) : List KsCond := (List.range 4).flatMap (ksPool old new)

/-- R235. -/
def ksPrefix (old new : Core) (_st : List Nat) : List KsCond :=
  let v (s : Nat) : Nat := new.obj 0x6300 s
  [(old.roll.valid == 0, keysOf 0x6300 1 [1, 2, 3, 4, 5] ++ [okey 0x6301 0])] ++
  (if v 1 = 0 then [] else
    [(v 2 % 64 == 0 && new.inPart 5 (v 2) (2 ^ 25), [okey 0x6300 2]),
     (v 3 % 64 == 0 && new.inPart 5 (v 3) (2 ^ 22 * v 4), [okey 0x6300 3, okey 0x6300 4]),
     inRange new 0x6300 4 1 4096])

/-- R269. -/
def ksStep (old new : Core) (_st : List Nat) : List KsCond :=
  let idle := old.stp.head.isNone && old.stp.tail.isNone
  let empty := [0, 1].all fun b => (old.bank b).state == 0
  let pal := changedOf old new (keysOf 0x7100 1 [1, 2, 3])
  let bks := changedOf old new (keysOf 0x7200 2 [3, 4])
  let bank (b : Nat) : Nat × Nat := (new.bankBase b, new.bankBase b + new.bankBytes b)
  [(idle || pal.isEmpty, pal),
   (new.obj 0x7100 1 % 4096 == 0 && new.obj 0x7100 1 ≤ 1610612736, [okey 0x7100 1]),
   (new.obj 0x7100 2 % 4096 == 0, [okey 0x7100 2]),
   (new.obj 0x7100 3 % 4096 == 0, [okey 0x7100 3]),
   (new.obj 0x7100 3 == 0 || new.inPart 6 (new.obj 0x7100 2) (new.obj 0x7100 3), [okey 0x7100 2, okey 0x7100 3]),
   (empty || bks.isEmpty, bks)] ++
  ([0, 1].flatMap fun b =>
    [(new.bankBase b % 4096 == 0, [okey (0x7200 + b) 3]),
     (new.bankBytes b == 0 || new.inPart 3 (new.bankBase b) (new.bankBytes b), [okey (0x7200 + b) 3, okey (0x7200 + b) 4])]) ++
  [(!overlap (bank 0) (bank 1), keysOf 0x7200 2 [3, 4]),
   (new.obj 0x7310 1 % 64 == 0, [okey 0x7310 1]), inRange new 0x7310 2 1 65535,
   (new.obj 0x7320 1 % 64 == 0, [okey 0x7320 1]), inRange new 0x7320 2 1 64]

/-- An entry of the hod table meets R303. -/
def Core.hodOk (c : Core) (ms : List Nat) (h : Nat) : Bool :=
  let x := c.hod h
  let b := c.bytes (c.obj 0x8010 1 + 32 * h) 32
  1 ≤ x.r && x.n % 32 == 0 && x.r * x.n ≤ 2 ^ 29 && ms.contains x.owner && numAt b 15 1 < 2 && numAt b 28 4 == 0 &&
    (x.ring || x.ringOff == 0)

/-- No image of the table meets a later one. -/
def imagesApart : List (Nat × Nat) → Bool
  | [] => true
  | x :: xs => !(xs.any (overlap x)) && imagesApart xs

/-- Does the hod table lie where it can be read? (log 104: DEDUCED) -/
def Core.tableAt (c : Core) : Bool := c.hodCount == 0 || c.inPart 7 (c.obj 0x8010 1) (32 * c.hodCount)

/-- Is the hod table poisoned (R325)? (log 106: DEDUCED) -/
def Core.tablePoisoned (c : Core) : Bool :=
  c.hodCount != 0 && c.tableAt && c.hodCount ≤ 4096 && c.poisoned (c.obj 0x8010 1) (32 * c.hodCount)

/-- Bytes the ring scale table takes. -/
def Core.ringBytes (c : Core) : Nat :=
  (List.range c.hodCount).foldl
    (fun e h => if (c.hod h).ring then max e (64 * (c.hod h).ringOff + (c.hod h).blocks) else e) 0

/-- R303. -/
def ksExchange (old new : Core) (_st : List Nat) : List KsCond :=
  let idle := old.stp.head.isNone && old.stp.tail.isNone
  let ks := changedOf old new (keysOf 0x8010 1 [1, 2] ++ keysOf 0x8011 1 [1, 2, 3] ++ keysOf 0x8012 1 [1, 2, 3, 4])
  let ms := membersOf (new.mask 0x8002 1 4)
  let n := new.hodCount
  let area (a bytes : Nat) : Bool := bytes == 0 && a == 0 || new.inPart 7 a (max 1 bytes)
  let table := [okey 0x8010 1, okey 0x8010 2]
  let first : List KsCond :=
    [(idle || ks.isEmpty, ks),
     (ms.contains new.me, okey 0x8001 0 :: keysOf 0x8002 1 [1, 2, 3, 4]),
     inRange new 0x8010 2 0 4096,
     (new.tableAt && !new.tablePoisoned, table)]
  let readable := n ≤ 4096 && new.tableAt && !new.tablePoisoned
  let hods := List.range n
  let images := hods.map fun h => ((new.hod h).imgOff, (new.hod h).imgOff + (new.hod h).imgBytes)
  let most := hods.foldl (fun e h => max e (new.hod h).elems) 0
  let rest : List KsCond := if readable then
      [(hods.all (new.hodOk ms), table ++ keysOf 0x8002 1 [1, 2, 3, 4]),
       (images.all (fun x => (new.obj 0x8012 1 + x.1) % 64 == 0 && x.2 ≤ new.obj 0x8012 2) && imagesApart images,
         keysOf 0x8012 1 [1, 2]),
       (new.obj 0x8011 2 % 4096 == 0 && (n == 0 || 4 * most + 2 * most / 32 + 1088 ≤ new.obj 0x8011 2),
         [okey 0x8011 2]),
       (area (new.obj 0x8011 1) (new.obj 0x8011 2 * new.obj 0x8011 3), keysOf 0x8011 1 [1, 2, 3]),
       (area (new.obj 0x8012 1) (new.obj 0x8012 2), keysOf 0x8012 1 [1, 2]),
       (area (new.obj 0x8012 3) (16 * n), [okey 0x8010 2, okey 0x8012 3]),
       (area (new.obj 0x8012 4) new.ringBytes, [okey 0x8012 4])]
    else []
  first ++ rest ++
    [(decide (new.obj 0x8020 3 < new.obj 0x8020 4), [okey 0x8020 3, okey 0x8020 4]), inRange new 0x8021 0 0 15]

/-- The ranges Table 11.13 gives ports, routes and hops. (log 105: DEDUCED) -/
def ksLinks (_old new : Core) (st : List Nat) : List KsCond :=
  ((List.range 6).map fun f =>
    let w := new.obj (0x8100 + f) 6
    (w % 256 != 0 && w / 256 % 256 != 0 && w / 65536 % 256 != 0, [okey (0x8100 + f) 6])) ++
  (if st.contains (okey 0x8200 new.me) then [(new.obj 0x8200 new.me == 0x36, [okey 0x8200 new.me])] else []) ++
  [inRange new 0x8201 0 1 7]

/-- R322. (log 104: DEDUCED) -/
def ksMemory (dev : Dev) (old new : Core) (_st : List Nat) : List KsCond :=
  let moved := changedOf old new (keysOf 0x9101 15 [1, 2])
  let part (p : Nat) : Nat × Nat := (new.partBase p, new.partBase p + new.partSize p)
  let ps := List.range 16
  [(dev == .ready || moved.isEmpty, moved)] ++
  ((ps.drop 1).flatMap fun p =>
    let o := 0x9100 + p
    [(new.obj o 1 % 2097152 == 0, [okey o 1]), (new.obj o 2 % 2097152 == 0, [okey o 2]),
     (new.obj o 2 == 0 || (4294967296 ≤ new.obj o 1 && (part p).2 ≤ new.hbmBytes), [okey o 1, okey o 2]),
     (!(ps.any fun q => q != p && overlap (part p) (part q)), [okey o 1, okey o 2])]) ++
  [(decide ((ps.map fun p => new.obj (0x9100 + p) 3).sum ≤ 27131904), keysOf 0x9100 16 [3])] ++
  (ps.flatMap fun p =>
    let o := 0x9100 + p
    [inRange new o 4 4096 (2 ^ 30), inRange new o 5 0 3, inRange new o 7 0 4096]) ++
  [(decide ((ps.map fun p => new.obj (0x9100 + p) 7).sum ≤ 4096), keysOf 0x9100 16 [7]),
   inRange new 0x9300 1 100 1000000, inRange new 0x9200 1 3600 2592000]

/-- R354. -/
def ksWindows (_old new : Core) (_st : List Nat) : List KsCond :=
  (List.range 16).map fun w => (new.obj (0xA010 + w) 1 % (new.links.bar4Bytes / 16) == 0, [okey (0xA010 + w) 1])

/-- R355. -/
def ksTallies (_old new : Core) (_st : List Nat) : List KsCond :=
  (List.range 16).map fun f =>
    (new.obj (0xA020 + f) 1 + new.obj (0xA020 + f) 2 ≤ 4096, [okey (0xA020 + f) 1, okey (0xA020 + f) 2])

/-- R363 and R475 for one queue. -/
def ksQueue (old new : Core) (q : Nat) : List KsCond :=
  let o := 0xA100 + q
  let st := (old.queue q).state
  let was := bitAt (old.obj o 3) 0
  let on := bitAt (new.obj o 3) 0
  let base := new.obj o 1
  let slots := new.obj o 2
  let moved := changedOf old new (keysOf o 1 [1, 2, 4])
  [(st == 0 || moved.isEmpty, moved),
   (!(was && !on && (st == 1 || st == 3)), [okey o 3]),
   inRange new o 3 0 3, inRange new o 4 0 15, inRange new o 5 0 127] ++
  (if on && st == 0 then
    [(base != 0 && base % 128 == 0, [okey o 1]),
     (64 ≤ slots && slots ≤ 65536 && slots == 2 ^ Nat.log2 slots, [okey o 2]),
     (bitAt (new.obj o 3) 1 || new.inPart 9 base (128 * slots) || inUser base (128 * slots),
       [okey o 1, okey o 2, okey o 3])]
  else [])

/-- The queues with staged objects. -/
def stagedQueues (st : List Nat) : List Nat :=
  st.foldl (fun qs k => if isQueueObj (k / 256) then insertNat (k / 256 - 0xA100) qs else qs) []

def ksQueues (old new : Core) (st : List Nat) : List KsCond := (stagedQueues st).flatMap (ksQueue old new)

/-- The ranges of 0xB020, and R452. -/
def ksEvents (_old new : Core) (_st : List Nat) : List KsCond :=
  let is := List.range 64
  let code (i : Nat) : Nat := new.obj (0xB200 + i) 1
  let cls (i : Nat) : Nat := new.obj (0xB200 + i) 2
  [inRange new 0xB020 1 0 127, inRange new 0xB020 2 0 4] ++
  (is.flatMap fun i =>
    if code i = 0 then []
    else
      [(match eventFloor (code i) with
        | some f => decide (f ≤ cls i ∧ cls i ≤ 3)
        | none => false, [okey (0xB200 + i) 1, okey (0xB200 + i) 2]),
       (!(is.any fun j => j != i && code j == code i), [okey (0xB200 + i) 1])]) ++
  [inRange new 0xB300 1 10000 1000000000, inRange new 0xB310 1 1000000 10000000000]

/-- The checks of a staged set, in ascending order of the ranges that hold staged objects (R377). (log 103: DEDUCED) -/
def ksChecks (dev : Dev) (old new : Core) (st : List Nat) : List (List KsCond) :=
  let has (lo hi : Nat) : Bool := st.any fun k => lo ≤ k / 256 && k / 256 ≤ hi
  let on (b : Bool) (f : Core → Core → List Nat → List KsCond) : List KsCond := if b then f old new st else []
  [on (has 0x2000 0x2FFF) ksPower,
   on (has 0x3400 0x340F) ksPlanes,
   on (has 0x3500 0x3FFF) ksScale,
   on (has 0x4100 0x410F) ksTiles,
   on (has 0x4A11 0x4A11) ksSeeds,
   on (has 0x5100 0x5103) ksArrays,
   on (has 0x6100 0x6103) ksPools,
   on (has 0x6300 0x6300) ksPrefix,
   on (has 0x7000 0x7FFF) ksStep,
   on (has 0x8000 0x80FF) ksExchange,
   on (has 0x8100 0x82FF) ksLinks,
   on (has 0x9000 0x9FFF) (ksMemory dev),
   on (st.any fun k => 0xA010 ≤ k / 256 && k / 256 ≤ 0xA01F && k % 256 == 1) ksWindows,
   on (has 0xA020 0xA02F) ksTallies,
   on (has 0xA100 0xA1FF) ksQueues,
   on (has 0xB000 0xBFFF) ksEvents]

/-- The lowest of a list of keys. (log 103: DEDUCED) -/
def lowest : List Nat → Option Nat
  | [] => none
  | k :: ks => some (ks.foldl min k)

/-- The object a failing check reports: the lowest staged one it names, else the lowest it names (R377).
(log 103: DEDUCED) -/
def failingOf (st : List Nat) (conds : List KsCond) : Option Nat :=
  let names := (conds.filter fun x => !x.1).flatMap (·.2)
  match lowest (names.filter st.contains) with
  | some k => some k
  | none => lowest names

/-- The failing object of a staged set; none when every check passes. (log 103: DEDUCED) -/
def ksFailing (dev : Dev) (old new : Core) (st : List Nat) : Option Nat := (ksChecks dev old new st).findSome? (failingOf st)

/-! ### Applying -/

/-- The machine with the staged values as applied ones. -/
def Core.overlay (c : Core) : Core :=
  { c with dict := { c.dict with objs := c.dict.staged.foldl (fun m p => KMap.set m p.1 p.2) c.dict.objs } }

/-- Layers whose plane limits change start again at p_max (R88). -/
def Core.applyPlanes (c : Core) (moved : List Nat) : Core :=
  (moved.filter fun k => 0x3400 ≤ k / 256 && k / 256 ≤ 0x340F).foldl
    (fun c k =>
      let l := 256 * (k / 256 - 0x3400) + k % 256
      { c with fwd := { c.fwd with pnow := KMap.erase (KMap.erase c.fwd.pnow (4096 + l)) (8192 + l) } }) c

/-- A pool whose objects change has every page free, in order (R187). (log 7: DEDUCED) (log 104: DEDUCED) -/
def Core.applyPools (c : Core) (moved : List Nat) : Core :=
  ((List.range 4).filter fun n => moved.any fun k => k / 256 == 0x6100 + n && k % 256 ≤ 8).foldl (fun c n => c.setPool n {}) c

/-- Bytes of device memory become zero; the writes pass the buffer like any other (R311). (log 106: DEDUCED) -/
def Core.zeroArea (c : Core) (a n : Nat) : Core :=
  let c := { c with mem := { c.mem with
    mem := c.mem.mem.filter (fun p => !(a ≤ p.1 && p.1 < a + n))
    injSyms := c.mem.injSyms.filter (fun p => !(a ≤ p.1 && p.1 + 64 ≤ a + n)) } }
  (c.clearPoison a n).enterRange false a n

/-- Applying an enabled prefix table clears its entries; the clearing takes until PREFIX_CLEARING_ENDS (R235).
(log 106: DEDUCED) -/
def Core.applyPrefix (c : Core) (st : List Nat) : Core :=
  if (st.any fun k => k / 256 == 0x6300) && c.obj 0x6300 1 != 0 then
    let c := c.zeroArea (c.obj 0x6300 2) (2 ^ 25)
    { c with roll := { c.roll with
        clearing := true, valid := 0, cold := 0, coldHead := 0xFFFFFFFF, coldTail := 0xFFFFFFFF } }
  else c

/-- A change to 0x8002 is the membership of the next open (R275); the CRC of the hod table is computed (R303). -/
def Core.applyExchange (c : Core) (st moved : List Nat) : Core :=
  let c := if moved.any fun k => k / 256 == 0x8002 then
      { c with xch := { c.xch with next := membersOf (c.mask 0x8002 1 4) } }
    else c
  if st.any fun k => 0x8000 ≤ k / 256 && k / 256 ≤ 0x80FF then
    c.setObj 0x8010 3 (crc64 (c.bytes (c.obj 0x8010 1) (32 * c.hodCount)))
  else c

/-- Ports are disabled or enabled (Table 11.2). (log 107: DEDUCED) -/
def Core.applyPorts (c : Core) : Core :=
  (List.range 6).foldl
    (fun c f =>
      let p := c.port f
      if c.flag (0x8100 + f) 1 then (if p.state = 0 then c.setPort f { p with state := 1 } else c)
      else if p.state = 0 then c else c.setPort f { state := 0 }) c

/-- Buckets are cut to a smaller burst, and the rates are fitted (R321, R322). -/
def Core.applyMemory (c : Core) (st : List Nat) : Core :=
  if st.any fun k => 0x9100 ≤ k / 256 && k / 256 ≤ 0x910F then
    ({ c with mem := { c.mem with
      tokens := c.mem.tokens.map fun (p : Nat × Int) => (p.1, min p.2 (c.bucketFull (p.1 % 16))) } }).rescale
  else c

/-- Queues are enabled and disabled (Table 11.11). -/
def Core.applyQueues (c : Core) (st : List Nat) : Core :=
  (stagedQueues st).foldl
    (fun c q =>
      let x := c.queue q
      if bitAt (c.obj (0xA100 + q) 3) 0 then
        (if x.state = 0 then c.setQueue q { x with state := 1, head := 0, tail := 0 } else c)
      else if x.state = 2 then c.setQueue q { x with state := 0 } else c) c

/-- Every staged value becomes the applied value, and each block takes up what the keystone itself changes; buckets fill
at the old rates and bursts until then. -/
def Core.applySet (c : Core) : Core :=
  let st := c.dict.staged.map (·.1)
  let old := if st.any fun k => 0x9100 ≤ k / 256 && k / 256 ≤ 0x910F then c.settleTokens else c
  let new := old.overlay
  let moved := changedOf old new st
  ((((((new.applyPlanes moved).applyPools moved).applyPrefix st).applyExchange st moved).applyPorts).applyMemory st).applyQueues st

/-! ### The staging set -/

/-- The owner code of a source (R375). (log 102: DEDUCED) -/
def ownerCode : Src → Nat
  | .ring => 0x0100
  | .pf _ => 0x0200
  | .vf _ => 0x0200
  | .peer m => 0x0300 + m
  | .ringmaster => 0x0400

/-- Set the keystone result (Table 12.4). (log 102: DEDUCED) -/
def Core.ksResult (c : Core) (result fail : Nat) : Core :=
  let d := c.dict
  { c with dict := { d with
      ksResult := result, ksFail := fail, ksTime := c.now, ksObjects := d.staged.length
      ksNumber := if result = 1 ∨ result = 2 then (d.ksNumber + 1) % 2 ^ 64 else d.ksNumber } }

/-- The set is cleared with its owner. -/
def Core.clearSet (c : Core) : Core := { c with dict := { c.dict with staged := [], owner := 0 } }

/-- The dictionary's own events carry an object and a result (format 9). -/
def dictEv (code index sub result : Nat) : Ev :=
  { code := code, source := srcOf 0x14 0, fmt := 9, detail := detail9 index sub result }

/-- Does a set have the hod table read for its check (R303)? -/
def Core.readsTable (new : Core) (st : List Nat) : Bool :=
  (st.any fun k => 0x8000 ≤ k / 256 && k / 256 ≤ 0x80FF) && new.tableAt && new.hodCount ≤ 4096

/-- The hod table is read, once, before it is judged (R309, R325). (log 106: DEDUCED) -/
def Core.readTable (c : Core) (st : List Nat) : Core :=
  if c.overlay.readsTable st then c.touch (c.overlay.obj 0x8010 1) (32 * c.overlay.hodCount) else c

/-- Poison in the hod table fails the keystone with 0x9011 (R325). (log 106: DEDUCED) -/
def Core.tableEvent (c : Core) (new : Core) (st : List Nat) : Core :=
  if new.readsTable st && new.tablePoisoned then c.raise { code := 0x9011, source := srcOf 0x0F 0 } else c

/-- 1 to 0x1F00:00 (R377). (log 102: DEDUCED) -/
def Core.keystone (c : Core) (dev : Dev) : Core :=
  let st := c.dict.staged.map (·.1)
  if st.isEmpty then (c.ksResult 3 0).clearSet
  else
    let c := c.readTable st
    let new := c.overlay
    match ksFailing dev c new st with
    | some k =>
      (((c.tableEvent new st).ksResult 2 k).bump 0x1880 7 1).raise (dictEv 0x1010 (k / 256) (k % 256) 2)
    | none => (((c.ksResult 1 0).applySet).clearSet).bump 0x1880 6 1

/-- A write to 0x1F00:00 (R376): from another source than the owner it is DENIED. (log 102: DEDUCED) -/
def Core.keystoneWrite (c : Core) (dev : Dev) (src : Src) (v : Nat) : Nat × Core :=
  if v ≠ 1 ∧ v ≠ 2 then (stType, c)
  else if c.dict.owner ≠ 0 ∧ c.dict.owner ≠ ownerCode src then (stDenied, c)
  else if v = 1 then (stOk, c.keystone dev)
  else (stOk, (c.ksResult 4 0).clearSet)

def execKeystoneApply (src : Src) : State → Res :=
  lift fun dev c => c.gated dev src 0x1F00 0 fun c => c.keystoneWrite dev src 1

def execKeystoneDiscard (src : Src) : State → Res :=
  lift fun dev c => c.gated dev src 0x1F00 0 fun c => c.keystoneWrite dev src 2

/-- The set is discarded at the hold limit (R376). -/
def execStagingHoldExpiry : State → Res :=
  lift fun dev c =>
    if dev = .off ∨ c.dict.owner = 0 then c
    else (((c.ksResult 5 0).clearSet).bump 0x1880 8 1).raise (dictEv 0x1011 0x1F00 0 5)

end Sys2Proof.Machine
end

