-- ==== Sys2Proof/Machine/Trans.lean ====
section
/-! DEFINITION. Fyven transactions (R347, R348, R349, R350, R364): serving the RD and WR of peers, taking the answers to
this device's own, and their ends without an answer; the flit boundary, at which what waits is sent. -/

namespace Sys2Proof.Machine

/-! ### Serving peers (R348) -/

/-- Are the bytes from a to e wholly in partitions that a mask lets peers reach? A partition a time; there are 16. -/
def Core.peerMay (c : Core) (mask : Nat) : Nat → Nat → Nat → Bool
  | 0, a, e => decide (e ≤ a)
  | f + 1, a, e =>
    if e ≤ a then true
    else
      match (if a < tsBase then c.partOf a else none) with
      | some p => bitAt mask p && c.peerMay mask f (c.partBase p + c.partSize p) e
      | none => false

/-- Do bytes lie in a partition, some of them? -/
def Core.meetsPart (c : Core) (p a n : Nat) : Bool :=
  decide (c.partBase p < a + n) && decide (a < c.partBase p + c.partSize p)

/-- What a peer's access to bytes answers before it is done: 0 served, 1 partition refused, 2 unmapped, 4 device state
(Table 11.6). READY serves neither pages, read from P4 (R198), nor exports, written into P10 (R263). (log 98: DEDUCED)
(log 99: DEDUCED) -/
def Core.peerStatus (c : Core) (dev : Dev) (write : Bool) (a n : Nat) : Nat :=
  if !(dev == .ready || runsWork dev) || (dev == .ready && c.meetsPart (if write then 10 else 4) a n) then 4
  else if !c.peerMay (c.obj 0x8203 (if write then 2 else 1)) 16 a (a + n) then 1
  else if (c.plainBad a n).isSome then 2
  else 0

/-- An inbound access outside the permitted partitions is counted and logged (R348). (log 100: DEDUCED) -/
def Core.notePeer (c : Core) (src st : Nat) : Core :=
  if st = 1 then
    (c.bump 0x8980 3 1).raise { code := 0x8108, fmt := 4, detail := detail4 0 0 0 src }
  else c

/-- The class of the request a port delivered last under a kind, member and tag; class 2 where none is there.
(log 98: DEDUCED) -/
def Core.askedClass (c : Core) (tkind src tag : Nat) : Nat :=
  match (c.links.ports.flatMap fun p => p.2.delivered).find? fun x => x.tkind == tkind && x.src == src && x.tag == tag with
  | some x => x.cls
  | none => 2

/-- RD_DATA flits, 240 bytes each. -/
def Core.dataFlits (c : Core) (cls dest tag : Nat) (bs : List Byte) : List Flit :=
  (List.range (ceilDiv bs.length 240)).map fun i => c.mkFlit cls dest 2 tag ((bs.drop (240 * i)).take 240)

/-- A peer's RD (R348). (log 98: DEDUCED) -/
def execRd (src tag addr len : Nat) : State → Res :=
  lift fun dev c =>
    if !portsServed dev || len = 0 || 16384 < len then c
    else
      let cls := c.askedClass 1 src tag
      let err (st : Nat) (c : Core) : Core := (c.sendOrDrop [c.mkFlit cls src 3 tag [BitVec.ofNat 8 st]]).notePeer src st
      let st := c.peerStatus dev false addr len
      if st ≠ 0 then err st c
      else
        let c := c.touch addr len
        if c.poisoned addr len then err 3 c else c.sendOrDrop (c.dataFlits cls src tag (c.bytes addr len))

/-- A write from a peer has its bytes: they enter the buffers, and are acknowledged once they have (R347). -/
def Core.wrDone (c : Core) (w : InWr) : Core :=
  let cls := c.askedClass 4 w.src w.tag
  let c := (c.put w.addr (w.got.take w.len)).owe c (.peer w.src w.tag)
  if c.acknowledged (.peer w.src w.tag) then c.sendWrAck w.src w.tag cls
  else { c with links := { c.links with ackWaits := c.links.ackWaits ++ [(w.src, w.tag, cls)] } }

/-- Forget an arriving write. -/
def Core.dropIn (c : Core) (w : InWr) : Core :=
  { c with links := { c.links with inWrs := c.links.inWrs.filter fun x => !(x.src == w.src && x.tag == w.tag) } }

/-- Keep an arriving write, or finish it. -/
def Core.wrTake (c : Core) (w : InWr) : Core :=
  let c := c.dropIn w
  if w.len ≤ w.got.length then c.wrDone w else { c with links := { c.links with inWrs := c.links.inWrs ++ [w] } }

/-- A write is answered with a status other than done. (log 99: DEDUCED) -/
def Core.refuseWr (c : Core) (src tag st : Nat) : Core :=
  (c.sendOrDrop [c.mkFlit (c.askedClass 4 src tag) src 6 tag [BitVec.ofNat 8 st]]).notePeer src st

/-- A peer's WR with its first 224 bytes (R348). (log 98: DEDUCED) -/
def execWr (src tag addr len : Nat) (data : List Byte) : State → Res :=
  lift fun dev c =>
    if !portsServed dev || len = 0 || 16384 < len then c
    else
      let st := c.peerStatus dev true addr len
      if st ≠ 0 then c.refuseWr src tag st
      else c.wrTake { src := src, tag := tag, addr := addr, len := len, got := bytesAt data 0 (min len 224) }

/-- The next 240 bytes of a peer's WR. (log 99: DEDUCED) -/
def execWrData (src tag : Nat) (data : List Byte) : State → Res :=
  lift fun dev c =>
    if !portsServed dev then c
    else
      match c.links.inWrs.find? fun x => x.src == src && x.tag == tag with
      | none => c
      | some w =>
        let st := c.peerStatus dev true w.addr w.len
        if st ≠ 0 then (c.dropIn w).refuseWr src tag st
        else c.wrTake { w with got := w.got ++ bytesAt data 0 (min (w.len - w.got.length) 240) }

/-! ### Answers to this device's requests -/

/-- A read of a peer is complete. -/
def Core.readDone (c : Core) (dev : Dev) (t : Txn) (bs : List Byte) : Core :=
  match t.use with
  | .copyRead d off => c.copyArrived d off bs
  | .page e w key => c.pageArrived e w key bs
  | .bar4 _ => c.hostAnswer bs
  | .pull => c.pullArrived dev t.addr bs
  | _ => c

/-- A transaction fails, by its chapter's remote-failure rule (R348, R350). (log 100: DEDUCED) -/
def Core.txnFails (c : Core) (dev : Dev) (t : Txn) (code : Nat) : Core :=
  match t.use with
  | .copyRead d off => c.copyFail d off
  | .copyWrite d off => c.copyFail d off
  | .page e w _ => c.pageRefused e w
  | .exportWr d _ => c.exportAcked d code
  | .bar4 read => c.bar4Fail t.len read
  | .pull => c.pullFailed dev t.addr t.len
  | _ => c

/-- Requests that found no route when their tag came end with status 5 (R349). -/
def Core.endUnsent (dev : Dev) : Nat → Core → Core
  | 0, c => c
  | n + 1, c =>
    match c.links.ended with
    | [] => c
    | w :: ws =>
      Core.endUnsent dev n (({ c with links := { c.links with ended := ws } } : Core).txnFails dev
        { use := w.use, peer := w.peer, addr := w.addr, len := w.len, got := [], at_ := w.at_ } 5)

/-- A command that may free tags: the requests that take them and have lost their route end with it. -/
def liftTags (f : Dev → Core → Core) : State → Res :=
  lift fun dev c =>
    let n := c.links.tagWaits.length + 1
    let c := f dev c
    c.endUnsent dev (n + c.links.ended.length)

/-- A transaction of this device's has an answer, or none in time: it is closed, then `k` says what follows. A tag
that is not open changes nothing. -/
def answered (tag : Nat) (k : Dev → Core → Txn → Core) : State → Res :=
  liftTags fun dev c =>
    match KMap.get? c.links.txns tag with
    | none => c
    | some t => k dev c t

/-- Data flits that answer an RD arrive in order; the read is complete with its last byte. -/
def execRdData (tag : Nat) (data : List Byte) : State → Res :=
  answered tag fun dev c t =>
    let got := t.got ++ data
    if t.len ≤ got.length then (c.closeTxn tag).readDone dev t (got.take t.len)
    else c.openTxn tag { t with got := got }

/-- (log 100: DEDUCED) -/
def execRdErr (tag code : Nat) : State → Res :=
  answered tag fun dev c t => (c.closeTxn tag).txnFails dev t code

def execWrAck (tag code : Nat) : State → Res :=
  answered tag fun dev c t =>
    let c := c.closeTxn tag
    if code ≠ 0 then c.txnFails dev t code
    else
      match t.use with
      | .copyWrite d _ => c.copyLanded d t.len
      | .exportWr d _ => c.exportAcked d 0
      | _ => c

/-- A serviced datagram comes back (R382): what it holds is the outcome of the access. (log 101: DEDUCED) -/
def execDans (tag : Nat) (dg : Datagram) : State → Res :=
  answered tag fun _ c t =>
    if t.use ≠ .dict then c
    else
      let c := c.closeTxn tag
      { c with dict := { c.dict with lastStatus := dg.status, lastData := dg.data } }

/-! ### No answer in time (R350) -/

/-- A transaction ends with a timeout: 0x8980:04 counts and 0x8109 is logged. (log 100: DEDUCED) -/
def Core.timeOut (c : Core) (tag : Nat) (t : Txn) : Core :=
  ((c.closeTxn tag).bump 0x8980 4 1).raise { code := 0x8109, fmt := 4, detail := detail4 0 0 0 t.peer }

/-- Transactions of a use end with a timeout. -/
def Core.timeOutAll (c : Core) (late : Txn → Bool) : Core :=
  (c.links.txns.filter fun p => late p.2).foldl (fun c p => c.timeOut p.1 p.2) c

/-- Does a transaction's own chapter name a limit of its own (R350: 0x6005:00, 0x7401:00)? What is left of an export
that has ended has the general limit. -/
def Core.ownLimit (c : Core) : TxnUse → Bool
  | .page _ _ _ => true
  | .exportWr d _ => (KMap.get? c.stp.exports d).isSome
  | _ => false

/-- No answer within 0x8202:00. An unanswered exchange message is never sent again. -/
def execCompletionTimeout (tag : Nat) : State → Res :=
  answered tag fun dev c t =>
    if c.ownLimit t.use then c
    else
      let c := (c.timeOut tag t).txnFails dev t 5
      match t.use, c.outByTag tag false with
      | .xmsg _, some o => (c.setOut (c.xch.out.erase o)).settle
      | _, _ => c

/-- Is a transaction a read of an item's pages? -/
def ItemRun.reads (i : ItemRun) (t : Txn) : Bool :=
  match t.use with
  | .page e w _ => e == i.engine && w == i.walker
  | _ => false

/-- An item's oldest remote read gets no answer within 0x6005:00, and any other that has waited as long; the item ends
(R198), and its engine goes on. -/
def execRemoteReadTimeout (engine : Nat) : State → Res :=
  liftTags fun _ c =>
    match c.attn.items.find? (fun i => i.engine == engine && !i.need.isEmpty) with
    | none => c
    | some i =>
      let asked := (c.links.txns.filter fun p => i.reads p.2).map fun p => p.2.at_
      let t0 := max (asked.foldl min c.now) (c.now - c.obj 0x6005 0)
      ((c.timeOutAll fun t => i.reads t && decide (t.at_ ≤ t0)).endItem i 4).engineOn engine

/-- The export takes longer than 0x7401:00 (R263): the writes still open end with it. -/
def execExportTimeout (d : Nat) : State → Res :=
  liftTags fun _ c =>
    if (KMap.get? c.stp.exports d).isNone then c
    else
      let mine (t : Txn) : Bool := match t.use with
        | .exportWr e _ => e == d
        | _ => false
      (c.timeOutAll mine).exportEnds d 4

/-! ### Engines take items (R203) -/

/-- An engine goes on with what it has at hand; else one with a free walker takes the next item of the oldest descriptor
that uses it, or takes up one that waited (R203, R196). The command names the engine that came free first.
(log 42: DEDUCED) -/
def Core.engineTakes (c : Core) (engine : Nat) : Core :=
  if (c.engineStep engine).isSome then c.engineOn engine
  else
    match c.attn.items.find? (fun i => i.engine == engine && c.canResume i) with
    | some i => (c.itemResume i).owe c (.desc i.d)
    | none =>
      let uses (r : AttnRun) : Bool := !r.waiting.isEmpty && (match c.desc? r.d with
        | some x => bitAt (x.f 42 2) engine
        | none => false)
      match c.freeWalker engine, c.attn.runs.find? uses with
      | some w, some r =>
        match r.waiting, c.desc? r.d with
        | it :: rest, some x =>
          let c' := { c with attn := { c.attn with
            runs := c.attn.runs.map fun (q : AttnRun) => if q.d = r.d then { q with waiting := rest } else q } }
          (c'.itemStart { d := r.d, engine := engine, walker := w, item := it, gen := 0 } x r).owe c (.desc r.d)
        | _, _ => c
      | _, _ => c

def execAttentionItem (engine : Nat) : State → Res :=
  liftTags fun dev c =>
    if !runsWork dev || 16 ≤ engine || !bitAt (c.obj 0x6001 0) engine then c else c.engineTakes engine

/-- An item's wait for a page ends without one (R190); 16 stands for the RESUME that waits (R230). -/
def execPageWaitTimeout (engine : Nat) : State → Res :=
  liftTags fun _ c =>
    if engine = 16 then c.resumeFails
    else
      match c.attn.items.find? (fun i => i.engine == engine && i.pageWait.isSome) with
      | some i => ((c.endItem i 2).engineOn engine).owe c (.desc i.d)
      | none => c

/-! ### Exchange messages -/

/-- The answers of an XANS (R347). -/
def execXansReceived (answers : List XAnswer) : State → Res :=
  liftTags fun _ c => (answers.foldl Core.takeAnswer c).settle

/-- The next member has not accepted a RING or RING_END message in time: it goes to the member after that one (R287).
(log 61: DEDUCED) -/
def execRingHopTimeout (tag : Nat) : State → Res :=
  liftTags fun dev c =>
    match c.outByTag tag false, c.outByTag tag true with
    | none, none => c
    | some o, _ | none, some o =>
      if exServes dev && (o.msg.kind == 3 || o.msg.kind == 4) then
        let tgt := (nextOf (c.membersFor o.msg.step) o.tgt).getD o.tgt
        let c := if o.again then c else c.closeTxn tag
        let c := c.swapOut o { o with tgt := tgt, tag := none, again := false }
        ((c.bump 0x8880 0xC 1).raise (xEv 0x8024 0 o.msg.hod o.tgt o.msg.kind)).settle
      else c

/-- A flit boundary: messages that wait, a rejoiner's reads, and answers and acknowledgements whose time has come are
handed over, then the port sends (R278, R302, R344, R347). -/
def execFlitBoundary (f : Nat) : State → Res :=
  liftTags fun dev c =>
    ((((if exServes dev then c.settle else c).pullWork dev).flushAnswers).flushAcks).flitBoundary f

end Sys2Proof.Machine
end

