-- ==== Sys2Proof/Machine/Access.lean ====
section
/-! DEFINITION. Dictionary accesses (R369 to R374, R378 to R382): reads and writes of objects, staging, aliases, direct
access, mailboxes, and peers' requests. -/

namespace Sys2Proof.Machine

/-! ### Reads -/

/-- The object's type is a scalar's. -/
def isScalar (index sub : Nat) : Bool :=
  match objRow? index sub with
  | some r => tyBytes r.ty != 0
  | none => false

/-- The alias of an index, with its family and instances (Table 12.5). (log 111: DEDUCED) -/
def aliasFamily (index : Nat) : Option (Nat × Nat) :=
  match index with
  | 0xD000 => some (0x3400, 16)
  | 0xD001 => some (0x3500, 16)
  | 0xD002 => some (0x3520, 16)
  | 0xD003 => some (0x3600, 16)
  | 0xD004 => some (0x4100, 16)
  | 0xD005 => some (0x5100, 4)
  | 0xD006 => some (0x6100, 4)
  | 0xD007 => some (0x7200, 2)
  | 0xD008 => some (0x8100, 6)
  | 0xD009 => some (0x8900, 6)
  | 0xD00A => some (0x9100, 16)
  | 0xD00B => some (0x9180, 16)
  | 0xD00C => some (0xA010, 16)
  | 0xD00D => some (0xA020, 16)
  | 0xD00E => some (0xA100, 256)
  | _ => none

/-- Why an access to an object is refused before the object's own rules, or 1: no such object, the path, the device
state (R369, R379 to R383). With VENDOR unlock the vendor service range holds no object that the manual names: NO_OBJECT
(log 157: DEDUCED). (log 108: DEDUCED) -/
def Core.accessGate (c : Core) (dev : Dev) (src : Src) (index sub : Nat) (write : Bool) : Nat :=
  if 0xF000 ≤ index ∧ c.sec.level ≠ 3 then stDenied
  else if (objRow? index sub).isNone ∧ (aliasFamily index).isNone then stNoObject
  else if !c.reach dev src index sub write then stDenied
  else if directBad src index sub then stType
  else stOk

/-- The access code of an object (Table 12.2). -/
def accessOf (index sub : Nat) : Nat :=
  match objRow? index sub with
  | some r => r.acc
  | none => 0

/-- A segment of a STR, BLOB or REC (R372, R389): the status, the bytes, and the state with its snapshot.
(log 109: DEDUCED) -/
def Core.readSegment (c : Core) (src : Src) (index sub off len : Nat) : Nat × List Byte × Core :=
  let k := okey index sub
  let mine (s : Segs) : Bool := s.src == src && s.key == k
  let keep (s : Segs) : Core :=
    { c with dict := { c.dict with snaps := (c.dict.snaps.filter fun x => !mine x) ++ [s] } }
  let serve (s : Segs) : Nat × List Byte × Core :=
    if off + len ≤ s.data.length then (stOk, (s.data.drop off).take len, keep { s with fresh := false })
    else (stType, [], keep { s with fresh := false })
  let held := c.dict.snaps.find? fun s => mine s && c.now ≤ s.time + 1000000 && (off != 0 || s.fresh)
  match held with
  | some s => serve s
  | none =>
    let s : Segs := { src := src, key := k, time := c.now, data := c.blobBytes index sub, fresh := false }
    if src = .ring ∧ 64 < off + len then (stBusy, [], keep { s with fresh := true }) else serve s

/-- A read of an object's value, or of its staged value (R376). (log 108: DEDUCED) -/
def Core.readObj (c : Core) (dev : Dev) (src : Src) (index sub off len : Nat) (staged : Bool) : Core :=
  let gate := c.accessGate dev src index sub false
  if gate ≠ stOk then c.answer src index sub gate
  else if (aliasFamily index).isSome ∨ accessOf index sub = 3 then c.answer src index sub stDenied
  else if isScalar index sub then
    let n := c.objSize index sub
    let v := if staged then (KMap.get? c.dict.staged (okey index sub)).getD (c.scalar dev index sub)
      else c.scalar dev index sub
    if len ≠ n then c.answer src index sub stType else c.answer src index sub stOk (toLE n v)
  else if index = 0xC200 ∧ c.sec.nonce.isSome then c.answer src index sub stBusy
  else
    match c.readSegment src index sub off len with
    | (st, bs, c) => c.answer src index sub st bs

/-- DESCRIBE (R388), of 16 bytes: type, access, size and a scalar's default. (log 109: DEDUCED) -/
def Core.describe (c : Core) (dev : Dev) (src : Src) (index sub len : Nat) : Core :=
  let gate := c.accessGate dev src index sub false
  match objRow? index sub with
  | none => c.answer src index sub (if gate = stOk then stDenied else gate)
  | some r =>
    if gate ≠ stOk then c.answer src index sub gate
    else if len ≠ 16 then c.answer src index sub stType
    else
      let d := if index = 0x1002 ∨ index = 0x1003 ∨ index = 0x9001 then c.scalar dev index sub else r.default index sub
      c.answer src index sub stOk
        (toLE 1 r.ty ++ toLE 1 r.acc ++ toLE 2 0 ++ toLE 4 (c.objSize index sub) ++ toLE 8 (if tyBytes r.ty = 0 then 0 else d))

/-! ### Writes -/

/-- Does a value lie in the range that an injection object's row of Table 15.7 gives? The detector's is Table 15.5, with
the default; target and pattern have ranges by detector, which the arm judges (R457). (log 162: DEDUCED) -/
def injRange (sub v : Nat) : Bool :=
  if sub = 1 then v ≤ 0x19
  else if sub = 2 then v ≤ 2
  else if sub = 5 then v % 64 == 0
  else if sub = 6 then 1000 ≤ v && v ≤ 1000000000000
  else true

/-- Does a value lie in the range of an RW or RWL object (R370)? -/
def rwRange (index sub v : Nat) : Bool :=
  if index = 0x1F04 then 1000000 ≤ v && v ≤ 2 ^ 40
  else if index = 0x6201 ∨ (index = 0x7104 ∧ sub = 1) ∨ (index = 0xB301 ∧ sub = 1) then v < 16384
  else if index = 0x9802 then v < 8
  else if index = 0xC300 then v ≤ 1 || v == 0xFF
  else if 0xB400 ≤ index ∧ index ≤ 0xB407 then injRange sub v
  else true

/-- Is an object part of an armed slot (R457)? -/
def Core.slotArmed (c : Core) (index sub : Nat) : Bool :=
  0xB400 ≤ index && index ≤ 0xB407 && 1 ≤ sub && sub ≤ 6 && (match KMap.get? c.inj (index - 0xB400) with
    | some s => s.state == 1
    | none => false)

/-- A write to the timebase (R394): only the reference takes it. -/
def Core.timeSet (c : Core) (t : Nat) : Nat × Core :=
  if c.flag 0x1030 1 && !c.dict.follows then
    (stOk, { c with now := t % 2 ^ 64, dict := { c.dict with steer := 0, slewAcc := 0 } })
  else (stDenied, c)

def execTimeSet (src : Src) (t : Nat) : State → Res :=
  lift fun dev c => c.gated dev src 0x1030 3 (fun c => c.timeSet t)

/-- Writing 1 to 0x9800:03 (R328). -/
def Core.repairOp (c : Core) (dev : Dev) (v : Nat) : Nat × Core :=
  if v = 1 then (stOk, c.startRepair dev) else (stType, c)

def execRepairExecute (src : Src) : State → Res :=
  lift fun dev c => c.gated dev src 0x9800 3 (fun c => c.repairOp dev 1)

/-- An RWS write enters the staging set (R375). (log 105: DEDUCED) -/
def Core.stage (c : Core) (src : Src) (index sub v : Nat) : Nat × Core :=
  let k := okey index sub
  let d := c.dict
  if index = 0x9100 ∧ sub ≤ 2 then (stDenied, c)
  else if (d.owner ≠ 0 ∧ d.owner ≠ ownerCode src) ∨ ((KMap.get? d.staged k).isNone ∧ 4096 ≤ d.staged.length) then
    (stBusy, c.bump 0x1880 0xA 1)
  else (stStaged, { c with dict := { d with staged := KMap.set d.staged k v, owner := ownerCode src } })

/-- The rows whose write changes the device state. -/
def devWrite (src : Src) (index v : Nat) (dev : Dev) (c : Core) : Option (Dev × Core) :=
  if index = 0x1011 then
    some (if v = 1 then requestRun src dev c else if v = 2 then requestDrain src dev c
      else (dev, c.answer src index 0 stType))
  else none

/-- The writes of objects that have a command of their own; they answer themselves. -/
def ownWrite (src : Src) (index sub v : Nat) (dev : Dev) (c : Core) : Option Core :=
  let via (body : Core → Nat × Core) : Option Core := some (c.gated dev src index sub body)
  let bad : Core := c.answer src index sub stType
  if index = 0x1030 ∧ sub = 3 then via fun c => c.timeSet v
  else if index = 0x1F00 then via fun c => c.keystoneWrite dev src v
  else if 0x6100 ≤ index ∧ index ≤ 0x6103 ∧ sub = 0xB then some (poolFreePage src (index - 0x6100) v dev c)
  else if index = 0x8050 ∧ sub = 0 then some (if v = 1 then rejoinRequest src dev c else bad)
  else if index = 0x9800 ∧ sub = 3 then via fun c => c.repairOp dev v
  else if isQueueObj index ∧ sub = 9 then
    some (if v = 1 then queueAbort src (index - 0xA100) dev c else if v = 2 then queueResume src (index - 0xA100) dev c
      else bad)
  else if isTally index then via fun c => (stOk, c.setTally (tallyOf index sub) v)
  else if index = 0xB031 then via fun c => faultClearOp v dev c
  else if 0xB400 ≤ index ∧ index ≤ 0xB407 ∧ sub = 7 then
    some (if v = 1 then injectionArm src (index - 0xB400) dev c else if v = 2 then injectionDisarm src (index - 0xB400) dev c
      else bad)
  else if index = 0xC100 ∧ sub = 1 then via fun c => challengeOp src v c
  else if index = 0xC300 ∧ sub = 2 then via fun c => updateOp v dev c
  else none

/-- A write of an RW or RWL value; a selector's reaches its view within 2 µs: after a free time
(log 4: DESIGN CHOICE). -/
def Core.writeValue (c : Core) (index sub v : Nat) : Core :=
  if isSelector index sub then
    let (t, d) := c.draw 2001
    ({ d with dict := { d.dict with
      sel := KMap.set d.dict.sel (okey index sub) (c.selected index sub, c.now + t) } }).setObj index sub v
  else c.setObj index sub v

/-- A write of a scalar by its access right (Table 12.2). -/
def Core.plainWrite (c : Core) (dev : Dev) (src : Src) (index sub v : Nat) : Core :=
  c.gated dev src index sub fun c =>
    match accessOf index sub with
    | 2 | 6 =>
      if c.slotArmed index sub then (stBusy, c)
      else if rwRange index sub v then (stOk, c.writeValue index sub v) else (stType, c)
    | 4 => c.stage src index sub v
    | 5 => if v = 1 then (stOk, c.setObj index sub 0) else if v = 0 then (stOk, c) else (stType, c)
    | _ => (stDenied, c)

/-- A scalar write: the right, then size and type, then its effect. -/
def Core.writeScalar (c : Core) (dev : Dev) (src : Src) (index sub : Nat) (data : List Byte) : Dev × Core :=
  let st := c.opGate dev src index sub
  let v := ofLE data
  let isBool : Bool := (objRow? index sub).any fun r => r.ty == 7
  if st ≠ stOk then (dev, c.answer src index sub st)
  else if accessOf index sub = 1 then (dev, c.answer src index sub stDenied)
  else if data.length ≠ c.objSize index sub ∨ (isBool ∧ 1 < v) then (dev, c.answer src index sub stType)
  else
    match devWrite src index v dev c with
    | some r => r
    | none =>
      match ownWrite src index sub v dev c with
      | some c => (dev, c)
      | none => (dev, c.plainWrite dev src index sub v)

/-- The size a gathered write ends at: a configuration or repair-map blob ends where its header says. -/
def Core.writeSize (c : Core) (index sub : Nat) (got : List Byte) : Nat :=
  if index = 0xC401 ∨ index = 0x9810 then (if got.length < 28 then 256 else 256 + numAt got 24 4) else c.objSize index sub

/-- A repair map written to 0x9810:00 becomes the map in force: its entries apply in order (R435). (log 111: DEDUCED) -/
def Core.mapOp (c : Core) (data : List Byte) : Nat × Core :=
  if numAt data 0 4 ≠ blobMagic ∨ numAt data 5 1 ≠ 2 ∨ numAt data 24 4 ≠ 8 + 16 * numAt data 256 4 then (stType, c)
  else (stOk, ({ c with mem := { c.mem with repairs := [] } }).applyRepairMap (data.drop 256))

/-- What a whole BLOB does. -/
def Core.blobWrite (c : Core) (src : Src) (index : Nat) (data : List Byte) : Nat × Core :=
  match index with
  | 0xC100 => responseOp src data c
  | 0xC200 => quoteOp data c
  | 0xC401 => blobOp data c
  | 0xC410 => enrolOp data c
  | 0xC420 => overrideOp data c
  | 0x9810 => c.mapOp data
  | _ => (stDenied, c)

/-- A segment of a BLOB (R372): gathered in order for its source; the object changes with the last one. -/
def Core.writeBlob (c : Core) (dev : Dev) (src : Src) (index sub off : Nat) (data : List Byte) : Core :=
  c.gated dev src index sub fun c =>
    if accessOf index sub = 1 then (stDenied, c)
    else if 0xC310 ≤ index ∧ index ≤ 0xC314 then regionOp src (index - 0xC310) off data c
    else
      let k := okey index sub
      let mine (g : Segs) : Bool := g.src == src && g.key == k
      let had := match c.dict.gathers.find? mine with
        | some g => g.data
        | none => []
      let others := c.dict.gathers.filter fun g => !mine g
      let setG (gs : List Segs) : Core := { c with dict := { c.dict with gathers := gs } }
      let got := (if off = 0 then [] else had) ++ data
      let size := c.writeSize index sub got
      if off + data.length ≠ got.length ∨ data.isEmpty ∨ size < got.length then (stType, setG others)
      else if got.length < size then
        (stOk, setG (others ++ [{ src := src, key := k, time := c.now, data := got, fresh := false }]))
      else (setG others).blobWrite src index got

/-- The size of the scalar a direct slot holds: an alias's is that of its instances (R378); none where no object is. -/
def directSize (index sub : Nat) : Option Nat :=
  match objRow? ((aliasFamily index).elim index (·.1)) sub with
  | some r => some (tyBytes r.ty)
  | none => none

/-- A direct write carries 4 or 8 bytes; the object takes its size from the low ones, the rest are zero (R379). `none`:
refused. An access that names no object is judged as that (R369). (log 113: DEDUCED) -/
def directValue (index sub off : Nat) (data : List Byte) : Option (List Byte) :=
  match directSize index sub with
  | none => some data
  | some n =>
  if off ≠ 0 ∨ !(data.length == 4 || data.length == 8) ∨ (n = 8 ∧ data.length ≠ 8) then none
  else if (data.drop n).all (· == 0) then some (data.take n) else none

/-- A write of one object, not an alias. (log 108: DEDUCED) -/
def Core.writeOne (c : Core) (dev : Dev) (src : Src) (index sub off : Nat) (data : List Byte) : Dev × Core :=
  let gate := c.accessGate dev src index sub true
  if (objRow? index sub).isNone ∧ (index < 0xF000 ∨ c.sec.level = 3) then (dev, c.answer src index sub stNoObject)
  else if gate ≠ stOk then (dev, c.answer src index sub gate)
  else if isScalar index sub then c.writeScalar dev src index sub data
  else (dev, c.writeBlob dev src index sub off data)

/-- The instances of an alias mask (R378). (log 111: DEDUCED) -/
def Core.aliasMask (c : Core) (o : Nat) : List Nat := membersOf (c.mask (0xDE00 + (o - 0xD000)) 1 4)

/-- Write every instance until one fails. -/
def Core.writeAll (c : Core) (dev : Dev) (src : Src) (base sub : Nat) (data : List Byte) : List Nat → Nat × Dev × Core
  | [] => (c.dict.lastStatus, dev, c)
  | i :: is =>
    match c.writeOne dev src (base + i) sub 0 data with
    | (dev, c) =>
      if c.dict.lastStatus = stOk ∨ c.dict.lastStatus = stStaged then c.writeAll dev src base sub data is
      else (c.dict.lastStatus, dev, c)

/-- A write to an alias (R378): every instance of the mask, or none. (log 111: DEDUCED) -/
def Core.aliasWrite (c : Core) (dev : Dev) (src : Src) (o sub : Nat) (data : List Byte) : Dev × Core :=
  match aliasFamily o with
  | none => (dev, c.answer src o sub stNoObject)
  | some (base, n) =>
    let is := c.aliasMask o
    if !c.reach dev src o sub true then (dev, c.answer src o sub stDenied)
    else if is.isEmpty ∨ is.any (n ≤ ·) then (dev, c.answer src o sub stNoObject)
    else
      match c.writeAll dev src base sub data is with
      | (st, dev', c') =>
        if st = stOk ∨ st = stStaged then (dev', c'.answer src o sub st)
        else (dev, (if st = stBusy ∧ accessOf base sub = 4 then c.bump 0x1880 0xA 1 else c).answer src o sub st)

/-- A write of an object. Direct access takes 4 or 8 bytes. -/
def Core.writeObj (c : Core) (dev : Dev) (src : Src) (index sub off : Nat) (data : List Byte) : Dev × Core :=
  let go (d : List Byte) : Dev × Core :=
    if (aliasFamily index).isSome then c.aliasWrite dev src index sub d else c.writeOne dev src index sub off d
  match src with
  | .pf true =>
    match directValue index sub off data with
    | some d => go d
    | none => (dev, c.answer src index sub stType)
  | _ => go data

/-! ### Commands of writes -/

/-- A TLP carries an access of the PF. -/
def Core.srcTlp (c : Core) (src : Src) : Core :=
  match src with
  | .pf _ => c.tlp 0
  | _ => c

def execObjectWrite (src : Src) (index sub offset : Nat) (data : List Byte) : State → Res :=
  liftDev fun dev c => (c.srcTlp src).writeObj dev src index sub offset data

def execStagingWrite (src : Src) (index sub : Nat) (data : List Byte) : State → Res :=
  liftDev fun dev c => (c.srcTlp src).writeObj dev src index sub 0 data

/-- A write to an alias; an index that is none has no object (R378). -/
def execAliasWrite (src : Src) (alias_ sub : Nat) (data : List Byte) : State → Res :=
  liftDev fun dev c =>
    if (aliasFamily alias_).isSome then (c.srcTlp src).writeObj dev src alias_ sub 0 data
    else (dev, (c.srcTlp src).answer src alias_ sub stNoObject)

/-! ### Direct reads (R379) -/

/-- The bytes of a datagram (Table 12.7): its header, then its data. -/
def dgBytes (g : Datagram) : List Byte :=
  toLE 1 g.cmd ++ toLE 1 g.mode ++ toLE 2 g.data.length ++ toLE 4 g.address ++ toLE 2 g.index ++ toLE 1 g.sub ++
    toLE 1 g.status ++ toLE 4 g.offset ++ toLE 8 g.ack ++ g.data

/-- What a function's mailbox holds at an offset; every other offset reads as zero (R380). While the datagram is in
service its status, which is written last, is still 0x00. (log 110: DEDUCED) -/
def Core.mailboxBytes (c : Core) (fn off len : Nat) : List Byte :=
  match KMap.get? c.dict.mbox fn with
  | some g =>
    let g := if c.now < KMap.getD c.dict.mboxDone fn 0 then { g with status := 0 } else g
    if off < 0x1018 then bytesAt (dgBytes g) off len else List.replicate len 0
  | none => List.replicate len 0

/-- An object's value as a direct read returns it. (log 113: DEDUCED) -/
def directBytes (index sub len : Nat) (bs : List Byte) : List Byte :=
  match objRow? index sub with
  | some r => if r.ty = 5 then toLE len (ofInt (8 * len) (toInt 32 (ofLE bs))) else bytesAt bs 0 len
  | none => bytesAt bs 0 len

/-- A read of a function's mailbox, at an offset of it: the datagram, or LAST_STATUS (R380). -/
def Core.mailboxRead (c : Core) (fn off len : Nat) : Core :=
  if off = 0x2008 then c.hostAnswer (toLE len (KMap.getD c.dict.mboxLast fn 0))
  else c.hostAnswer (c.mailboxBytes fn off len)

/-- A read of PF BAR0. (log 113: DEDUCED) -/
def Core.directRead (c : Core) (dev : Dev) (offset len : Nat) : Core :=
  let index := offset / 2048
  let sub := offset / 8 % 256
  let ones := List.replicate len 0xFF
  if 0x08000000 ≤ offset then
    if offset = 0x08100000 then c.hostAnswer (toLE len c.dict.direct)
    else c.mailboxRead 0 (offset - 0x08000000) len
  else
    let n := (directSize index sub).getD 1
    if (directSize index sub).isSome ∧ (offset % 8 ≠ 0 ∨ !(len == 4 || len == 8) ∨ (n = 8 ∧ len ≠ 8)) then
      (c.answer (.pf true) index sub stType).hostAnswer ones
    else
      let c := c.readObj dev (.pf true) index sub 0 n false
      c.hostAnswer (if c.dict.lastStatus = stOk then directBytes index sub len c.dict.lastData else ones)

/-- A read of a function's BAR0: the PF's (R379), or a VF's, which holds its mailbox alone (R380). (log 117: DEDUCED) -/
def execDirectAccessRead (fn offset len : Nat) : State → Res :=
  lift fun dev c => if fn = 0 then (c.tlp 0).directRead dev offset len else (c.tlp fn).mailboxRead fn offset len

/-! ### Datagrams (R388), mailboxes (R380), peers (R382) -/

/-- Service a READ, WRITE, READ_STAGED or DESCRIBE for a source; NOP and unknown commands are never serviced, SYNC is
the ring's alone. Answers whether it was serviced. -/
def Core.serve (c : Core) (dev : Dev) (src : Src) (g : Datagram) : Bool × Dev × Core :=
  match g.cmd with
  | 1 => (true, dev, c.readObj dev src g.index g.sub g.offset g.data.length false)
  | 2 =>
    match c.writeObj dev src g.index g.sub g.offset g.data with
    | (dev, c) => (true, dev, c)
  | 3 => (true, dev, c.readObj dev src g.index g.sub g.offset g.data.length true)
  | 4 => (true, dev, c.describe dev src g.index g.sub g.data.length)
  | 5 => (true, dev, c.answer src g.index g.sub stDenied)
  | _ => (false, dev, c)

/-- The datagram with its outcome: reads overwrite the data when they succeed. -/
def Core.outcome (c : Core) (g : Datagram) : Datagram :=
  { g with status := c.dict.lastStatus
           data := if g.cmd ≠ 2 ∧ c.dict.lastStatus = stOk then c.dict.lastData else g.data }

/-- Service a datagram in a mailbox or from a peer, if it is one to be serviced. (log 112: DESIGN CHOICE) -/
def Core.serveAlone (c : Core) (dev : Dev) (src : Src) (g : Datagram) : Bool × Datagram × Dev × Core :=
  match c.serve dev src g with
  | (true, dev, c) => (true, c.outcome g, dev, c.bump 0x1880 2 1)
  | (false, dev, c) => (false, g, dev, c)

/-- The source a function's mailbox is. -/
def fnSrc (fn : Nat) : Src := if fn = 0 then .pf false else .vf fn

/-- A mailbox doorbell (R380): while the datagram before is in service it is ignored. How long the service takes, up to
5 µs or 40 µs, is a free value (log 4: DESIGN CHOICE). (log 112: DESIGN CHOICE) -/
def Core.mailbox (c : Core) (dev : Dev) (fn : Nat) (g : Datagram) : Dev × Core :=
  if 16 ≤ fn then (dev, c)
  else if c.now < KMap.getD c.dict.mboxDone fn 0 then (dev, c.bump 0x1880 0xC 1)
  else
    match c.serveAlone dev (fnSrc fn) g with
    | (served, g, dev, c) =>
      let c := { c with dict := { c.dict with mbox := KMap.set c.dict.mbox fn g } }
      if served then
        let (t, c) := c.draw (if g.data.length ≤ 1024 then 5001 else 40001)
        let d := c.dict
        (dev, { c with dict := { d with
          mboxDone := KMap.set d.mboxDone fn (c.now + t)
          mboxLast := KMap.set d.mboxLast fn (g.status + 256 * okey g.index g.sub) } })
      else (dev, c)

def execMailboxDoorbell (fn : Nat) (dg : Datagram) : State → Res :=
  liftDev fun dev c => (c.tlp fn).mailbox dev fn dg

/-- A peer's DREQ (R382): serviced, and returned as DANS over class 0; in REJOIN the ports serve rejoin traffic only
(Table 11.12). (log 101: DEDUCED) -/
def execDreq (src tag : Nat) (dg : Datagram) : State → Res :=
  liftDev fun dev c =>
    if !portsServed dev || dev == .rejoin then (dev, c)
    else
      match c.serveAlone dev (.peer src) dg with
      | (_, g, dev, c) => (dev, c.sendOrDrop [c.mkFlit 0 src 0xA tag (dgBytes g)])

end Sys2Proof.Machine
end

