-- ==== Sys2Proof/Machine/Backward.lean ====
section
/-! DEFINITION. The backward arrays (chapter 4): products, the fused normalisation, soft-maximum and attention
kernels, and the gradient store path. -/

namespace Sys2Proof.Machine

/-! ### The descriptor (Table 4.4) and its operand list (Table 4.5) -/

def Desc.bT (x : Desc) : Nat := x.f 32 4
def Desc.bK (x : Desc) : Nat := x.f 36 4
def Desc.bN (x : Desc) : Nat := x.f 40 4
def Desc.bNa (x : Desc) : Nat := x.f 44 2
def Desc.bKa (x : Desc) : Nat := x.f 46 2
def Desc.bTs (x : Desc) : Nat := x.f 48 2
def Desc.bLayer (x : Desc) : Nat := x.f 50 2
def Desc.bGroup (x : Desc) : Nat := x.f 31 1 % 4
def Desc.bHq (x : Desc) : Nat := fld (x.f 31 1) 5 2 + 1
def Desc.bKind (x : Desc) : Nat := fld (x.f 31 1) 7 6
def Desc.bResident (x : Desc) : Bool := bitAt (x.f 30 1) 0
def Desc.bFirst (x : Desc) : Bool := bitAt (x.f 30 1) 1
def Desc.bFinal (x : Desc) : Bool := bitAt (x.f 30 1) 2
def Desc.bWide (x : Desc) : Bool := bitAt (x.f 29 1) 0
/-- Type 0x51 with mean and variance. -/
def Desc.bMean (x : Desc) : Bool := bitAt (x.f 29 1) 1
def Desc.bCausal (x : Desc) : Bool := bitAt (x.f 29 1) 2
def Desc.bStats (x : Desc) : Bool := bitAt (x.f 29 1) 3
/-- Does the descriptor deposit into hods (R121, R127)? -/
def Desc.bDeposits (x : Desc) : Bool := x.ty == 0x56 || (x.ty != 0x53 && x.bFinal)
/-- Handshakes per reduction index (R104). -/
def Desc.bW (x : Desc) : Nat := if x.bWide then 2 else 1
/-- Query rows of type 0x53. -/
def Desc.bRows (x : Desc) : Nat := x.bHq * x.bT
/-- The query position of a row (R120). -/
def Desc.bPos (x : Desc) (r : Nat) : Nat := x.f 52 4 + r / x.bHq
/-- Keys of the blocks that some query of a causal descriptor sees (R120). -/
def Desc.bSeen (x : Desc) : Nat := 256 * (x.bPos (x.bRows - 1) / 256 + 1)
/-- The first row that key block b is not skipped for: rows go by blocks of 128 (R120). -/
def Desc.bFrom (x : Desc) (b : Nat) : Nat :=
  if x.bCausal then
    ((List.range (ceilDiv x.bRows 128)).takeWhile fun q =>
      x.bPos (min (128 * q + 127) (x.bRows - 1)) < 256 * b).length * 128
  else 0

/-- Available members of a group (R128). -/
def Core.bwdArrays (c : Core) (x : Desc) : List Nat :=
  (List.range 64).filter fun a => bitAt (c.obj (0x5100 + x.bGroup) 1) a && bitAt (c.obj 0x5002 0) a

/-- Those that no other group's running descriptor still holds (R129). -/
def Core.bwdMembers (c : Core) (x : Desc) : List Nat :=
  (c.bwdArrays x).filter fun a =>
    !(c.bwd.active.any fun p => p.1 != x.bGroup && (KMap.getD c.bwd.used p.1 []).contains a)

/-- Is a descriptor one of the backward arrays' (Table 11.9)? -/
def Desc.onBwd (x : Desc) : Bool := (0x50 ≤ x.ty && x.ty ≤ 0x53) || x.ty == 0x56

/-- The array a rejection names (R476): the group's lowest. -/
def Core.bwdSrc (c : Core) (x : Desc) : Nat := srcOf 0x02 ((c.bwdArrays x).headD 0)

/-- The brick die of a descriptor's first array. -/
def Core.bwdDie (c : Core) (x : Desc) : Nat := if (c.bwdMembers x).headD 0 < 32 then 0 else 1

/-- The governed domains of a group. -/
def Core.bwdDoms (c : Core) (x : Desc) : List Nat :=
  (if (c.bwdMembers x).any (· < 32) then [1] else []) ++ (if (c.bwdMembers x).any (32 ≤ ·) then [3] else [])

/-- One entry of the list: data address, and a scale address or an element format code (R131). -/
structure BEnt where
  addr : Nat
  aux : Nat
  deriving DecidableEq, Repr

def BEnt.isElem (e : BEnt) : Bool := e.aux % 2 ^ 56 == 0 && decide (e.aux / 2 ^ 56 < 0x80)
def BEnt.code (e : BEnt) : Nat := e.aux / 2 ^ 56
def BEnt.zero (e : BEnt) : Bool := e.addr == 0 && e.aux == 0

/-- (log 71: DEDUCED) -/
def bwdEnts (l : List Byte) : List BEnt :=
  (List.range 16).map fun i => { addr := numAt l (16 * i) 8, aux := numAt l (16 * i + 8) 8 }

def bEnt (es : List BEnt) (i : Nat) : BEnt := es.getD i { addr := 0, aux := 0 }

/-- The slots a type must have, and those it may have. (log 30: DESIGN CHOICE) -/
def Desc.bSlots (x : Desc) : List Nat × List Nat :=
  let stage := !(x.bFirst && x.bFinal)
  let w := (if stage then [4] else [], if stage then [] else [4])
  match x.ty with
  | 0x50 => ([0, 1, 2, 3] ++ w.1, [15] ++ w.2)
  | 0x51 => ([0, 1, 2, 3] ++ w.1 ++ [5, 6, 7], [15] ++ w.2)
  | 0x52 => ([1, 2, 3] ++ w.1 ++ [5, 6], [7] ++ w.2)
  | 0x53 => ([0, 1, 2, 3, 4, 5, 6, 7, 8], [])
  | _ => ([0], [])

/-- The operands a type reads by format: slot, rows, columns (R111, R119, R120, R127). W in a block format is N rows
of K, in an element format K rows of N (log 70: DEDUCED). -/
def Desc.bOpnds (x : Desc) (es : List BEnt) : List (Nat × Nat × Nat) :=
  let w := if (bEnt es 1).isElem then (1, x.bK, x.bN) else (1, x.bN, x.bK)
  match x.ty with
  | 0x50 => [(0, x.bT, x.bN), w, (2, x.bT, x.bK)]
  | 0x51 => [(0, x.bT, x.bN), w, (2, x.bT, x.bK), (6, x.bT, x.bN)]
  | 0x52 => [w, (2, x.bT, x.bK)]
  | 0x53 => [(0, x.bRows, x.bK), (1, x.bN, x.bK), (2, x.bRows, x.bK), (4, x.bN, x.bK), (6, x.bRows, x.bK)]
  | _ => [(0, 1, x.bN)]

/-! ### Issue (R114, R128, R132, R273) -/

/-- Chains of a RESIDENT group of these members (R113): the arrays of each. -/
def bwdChains (ms : List Nat) (x : Desc) : List (List Nat) :=
  let g := ceilDiv x.bN (max 1 x.bNa)
  let on (die : Nat) : List Nat := ms.filter fun a => a / 32 == die
  [0, 1].flatMap fun die => (List.range ((on die).length / max 1 g)).map fun i => ((on die).drop (g * i)).take g

/-- May a descriptor's group begin it: it runs none, it is the descriptor's turn (R128), and arrays moved into the group
that their old group's descriptor still holds are not all it has to work with (R129). -/
def Core.bwdFree (c : Core) (x : Desc) : Bool :=
  let ms := c.bwdMembers x
  (KMap.get? c.bwd.active x.bGroup).isNone && c.inTurn x (fun y => y.onBwd && y.bGroup == x.bGroup) &&
  (ms == c.bwdArrays x || !(if x.bResident then (bwdChains ms x).isEmpty else ms.isEmpty))

/-- Does a RESIDENT descriptor meet R113 and R114? -/
def Core.bwdResidentOk (c : Core) (x : Desc) : Bool :=
  let dim (v hi : Nat) : Bool := v % 32 == 0 && 32 ≤ v && v ≤ hi
  let b := if x.bWide then 6 * x.bKa * x.bNa + 2 * x.bTs * (x.bKa + x.bNa)
    else 5 * x.bKa * x.bNa + x.bTs * (x.bKa + x.bNa)
  dim x.bNa 4096 && dim x.bKa 4096 && dim x.bTs 2048 && b ≤ 2097152 && ceilDiv x.bN x.bNa ≤ 16 &&
  !(bwdChains (c.bwdArrays x) x).isEmpty

/-- The sizes of Table 4.4, for every type; N_a and K_a of a STREAM descriptor, which Table 4.4 gives RESIDENT only, may
hold anything (log 159: DESIGN CHOICE). -/
def Core.bwdShapes (c : Core) (x : Desc) : List (Bool × Nat × Nat × Nat) :=
  [(1 ≤ x.bT && x.bT ≤ 2 ^ 20, 0x5003, 32, x.bT),
   (if x.ty = 0x53 then x.bK == 128 else decide (1 ≤ x.bK) && decide (x.bK ≤ 65536), 0x5003, 36, x.bK),
   (1 ≤ x.bN && x.bN ≤ 262144, 0x5003, 40, x.bN),
   (if x.bResident then c.bwdResidentOk x else x.bTs == 0, 0x5003, 48, x.bTs)]

/-- Blocks of the dW deposit, and of the dγ and dβ deposit (R118). -/
def Desc.bBlocks (x : Desc) : Nat := if x.ty = 0x56 then ceilDiv x.bN 32 else ceilDiv (x.bK * x.bN) 32
def Desc.bBlocks2 (x : Desc) : Nat := ceilDiv (if x.bMean then 2 * x.bK else x.bK) 32

/-- Is any block of a Q operand placed in the bank as BF16 (Table 4.2)? -/
def Core.fraction (c : Core) (o : Opnd) : Bool :=
  (List.range (o.rows * o.bpr)).any fun b => c.lnum (wordAddr o.scale b + 1) 1 != 0

/-- Is a block operand placed in the bank as BF16? -/
def Core.placedWide (c : Core) (o : Opnd) (h : List Byte) : Bool :=
  o.fmt == 0x85 || ((o.fmt == 0x84 || o.fmt == 0x86) && (o.table.isSome || bitAt (numAt h 7 1) 0 || c.fraction o))

/-- The operand of a slot; a header with no block format fails its match (R158). Type 0x53 reads the rows of K and V
that some query sees (R120: no fetch of a block skipped by all). -/
def Core.bwdOpnd (c : Core) (x : Desc) (es : List BEnt) (o : Nat × Nat × Nat) : Opnd :=
  let e := bEnt es o.1
  let k := c.lnum (e.aux + 4) 1
  let fmt := if e.isElem then e.code else if (blkOfCode k).isSome then k else 0x82
  { addr := e.addr, scale := if e.isElem then 0 else e.aux, fmt := fmt, rows := o.2.1, cols := o.2.2
    table := if o.1 = 1 ∧ (x.ty = 0x50 ∨ x.ty = 0x51) ∧ fmt = 0x84 then c.expansion (bEnt es 15).addr else none
    top := if x.ty = 0x53 ∧ x.bCausal ∧ (o.1 = 1 ∨ o.1 = 4) then some (min x.bN x.bSeen) else none }

/-- Entries with their addresses resolved where they resolve. -/
def Core.bwdEntsAt (c : Core) (es : List BEnt) : List BEnt :=
  let at_ (a : Nat) : Nat := if 2 ^ 63 ≤ a then (c.resolvePallet a).getD a else a
  es.map fun e => { addr := at_ e.addr, aux := if e.isElem then e.aux else at_ e.aux }

/-- R110 of the block operands, as their headers and scale words show it at issue; a header that fails R26 is judged
there. (log 71: DEDUCED) -/
def Core.wideChecks (c : Core) (x : Desc) (es : List BEnt) : List (Bool × Nat × Nat × Nat) :=
  let es := c.bwdEntsAt es
  if x.bWide ∨ x.ty = 0x56 then []
  else
    (x.bOpnds es).map fun o =>
      let p := c.bwdOpnd x es o
      let h := if p.isBlk then c.lread p.scale 64 else []
      (!(p.isBlk && !headerBad h && c.placedWide p h), 0x5004, 16, p.fmt)

/-- The output format is known (R17); types 0x52 and 0x56 may have none. -/
def Desc.bOutFmt (x : Desc) : Bool × Nat × Nat × Nat :=
  (knownFormat (x.f 28 1) || ((x.ty == 0x52 || x.ty == 0x56) && x.f 28 1 == 0), 0x3001, 28, x.f 28 1)
/-- The rounding code is known (R29). -/
def Desc.bRound (x : Desc) : Bool × Nat × Nat × Nat := (fld (x.f 29 1) 5 4 != 3, 0x3002, 29, x.f 29 1)

/-- Can the operand list be read: its address is aligned, resolves, and meets nothing (R131, R318, R325)? -/
def Core.bwdListAt (c : Core) (x : Desc) : Bool :=
  x.f 16 8 % 64 == 0 && match c.resolveAll (x.bKind == 2) [(16, x.f 16 8)] with
    | .ok as => (c.lfetch (as.getD 0 0) 256).2.isNone
    | .error _ => false

/-- The checks on the list and the fields, in the order of R474: format codes, the list's among them, the rounding
code, then R132. The manual gives type 0x53 no range for its score scale: it is any finite number (log 149: DESIGN
CHOICE). (log 71: DEDUCED) -/
def Core.bwdChecks (c : Core) (x : Desc) (es : List BEnt) : List (Bool × Nat × Nat × Nat) :=
  let (must, may) := x.bSlots
  let p := f32 (x.f 64 4)
  let inFmt (k : Nat) : Bool := if x.ty = 0x56 then k == 0x08 || k == 0x0A else
    k == 0x02 || k == 0x03 || (k == 0x08 && x.bWide)
  let elems := (x.bOpnds es).filter fun o => (bEnt es o.1).isElem
  elems.map (fun o => (knownFormat (bEnt es o.1).code, 0x3001, 16, (bEnt es o.1).code)) ++ [x.bOutFmt, x.bRound] ++
  [(x.f 24 4 == 0, 0x5001, 24, x.f 24 4),
   ((bytesAt x.bytes 72 56).all (· == 0), 0x5001, 72, x.f 72 4),
   (x.f 30 1 / 8 == 0, 0x5001, 30, x.f 30 1),
   (x.f 29 1 / 64 == 0, 0x5001, 29, x.f 29 1),
   (x.ty == 0x53 || x.bHq == 1, 0x5001, 31, x.f 31 1),
   (x.ty == 0x51 || x.f 68 4 == 0, 0x5001, 68, x.f 68 4),
   (if x.ty = 0x52 then Num.lt (.zero false) p && !p.nonFinite
    else if x.ty = 0x53 then !p.nonFinite else x.f 64 4 == 0, 0x5001, 64, x.f 64 4)] ++
  ((List.range 16).filter fun i => !must.contains i && !may.contains i).map
    (fun i => ((bEnt es i).zero, 0x5001, 16, i)) ++
  must.map (fun i => ((bEnt es i).addr != 0, 0x5005, 16, i)) ++
  c.bwdShapes x ++
  elems.map (fun o => (inFmt (bEnt es o.1).code, 0x5004, 16, (bEnt es o.1).code)) ++ c.wideChecks x es ++
  (if x.ty = 0x56 then [((bEnt es 0).isElem, 0x5004, 16, 0)] else []) ++
  (if x.ty = 0x50 ∨ x.ty = 0x51 ∨ x.ty = 0x53 then
    [([0x08, 0x0A, 0x82, 0x83].contains (x.f 28 1), 0x5004, 28, x.f 28 1)] else []) ++
  [(!(c.bwdArrays x).isEmpty && x.bKind == 2, 0x5002, 31, x.f 31 1)]

/-- The hod checks (R273), after the pallet-relative addresses (R474). -/
def Core.hodChecks (c : Core) (x : Desc) : List (Bool × Nat × Nat × Nat) :=
  let fits (h i n : Nat) : Bool := c.depositFits (c.hodCount + 1) h (i + n)
  if x.bDeposits then
    [(fits (x.f 52 4) (x.f 56 8 / 32) x.bBlocks, 0x8010, 52, x.f 52 4),
     (x.ty != 0x51 || fits (x.f 68 4) 0 x.bBlocks2, 0x8010, 68, x.f 68 4),
     (c.stp.isOpen, 0x8011, 52, x.f 52 4)]
  else []

/-- An operand read: its values, and the scale words of the blocks of its rows. -/
structure Mat where
  rows : List (List Num)
  words : List (List Nat)
  deriving DecidableEq, Repr

/-- The exponents of the blocks; 0 for a zero block, and for a non-finite one (R34). -/
def Mat.exps (m : Mat) : List (List Nat) := m.words.map fun ws => ws.map fun w => if w % 256 = 255 then 0 else w % 256

/-- Rows r to r + n, columns k to k + l (k a multiple of 32). -/
def Mat.win (m : Mat) (r n k l : Nat) : Mat :=
  { rows := ((m.rows.drop r).take n).map fun x => (x.drop k).take l
    words := ((m.words.drop r).take n).map fun x => (x.drop (k / 32)).take (ceilDiv l 32) }

/-- That part of an operand in a mirror bank. -/
def Mat.panel (m : Mat) (slot r n k l : Nat) : Panel :=
  let w := m.win r n k l
  { slot := slot, row := r, col := k, vals := w.rows, words := w.words }

/-- A list in pieces of 32. -/
def chunks32 : Nat → List Num → List (List Num)
  | 0, _ => []
  | n + 1, xs => xs.take 32 :: chunks32 n (xs.drop 32)

/-- A read operand with its scale words (R109): plain FP8 takes E = 127; the Q blocks that Table 4.2 places as BF16 are
narrowed to it, and counted, once however often the arrays read the operand again (log 159: DESIGN CHOICE). Rows that
are not read are zeros. -/
def Core.matOf (c : Core) (o : Opnd) (h : List Byte) (rows : List (List Num)) : Mat × Core :=
  let quant := o.fmt == 0x84 || o.fmt == 0x85 || o.fmt == 0x86
  let all := o.fmt == 0x85 || o.table.isSome || bitAt (numAt h 7 1) 0
  let wide (w : Nat) : Bool := quant && (all || w / 256 != 0)
  let n := rows.length
  let words := (List.range n).map fun i =>
    (List.range o.bpr).map fun j => if o.isBlk then c.lnum (wordAddr o.scale (i * o.bpr + j)) 2 else 127
  let parts := (rows.zip words).map fun (r, ws) => (chunks32 o.bpr r).zip ws
  let narrow := parts.flatMap fun ps => (ps.filter fun p => wide p.2).map (·.1)
  ({ rows := (parts.map fun ps => ps.flatMap fun p => if wide p.2 then heldIn fmtBF16 p.1 else p.1) ++
       List.replicate (o.rows - n) (List.replicate o.cols (.zero false))
     words := words ++ List.replicate (o.rows - n) (List.replicate o.bpr 0) },
   (c.bump 0x5080 8 narrow.length).countConv (heldTally fmtBF16 narrow))

/-- An operand's columns as rows (an element format: every exponent 127). -/
def Mat.flip (n : Nat) (m : Mat) : Mat :=
  { rows := transpose n m.rows, words := List.replicate n (List.replicate (ceilDiv m.rows.length 32) 127) }

/-- A backward descriptor ready to compute: source field, resolved list, operands read in the order of `bOpnds`, and the
arrays that run it. -/
structure BJob where
  d : Nat
  x : Desc
  src : Nat
  es : List BEnt
  ms : List Mat
  arrs : List Nat
  deriving DecidableEq, Repr

def BJob.addr (j : BJob) (i : Nat) : Nat := (bEnt j.es i).addr
def BJob.m (j : BJob) (i : Nat) : Mat := j.ms.getD i { rows := [], words := [] }
/-- W as N rows of K. -/
def BJob.w (j : BJob) (i : Nat) : Mat := if (bEnt j.es 1).isElem then (j.m i).flip j.x.bN else j.m i

/-- Resolved entries: addresses, and scale addresses of those that have one. (log 70: DEDUCED) -/
def Core.bwdResolve (c : Core) (d src : Nat) (es : List BEnt) (k : List BEnt → Core → Core) : Core :=
  c.resolved d src true (es.map fun e => (16, e.addr)) fun as c =>
    c.resolved d src true (es.map fun e => (16, if e.isElem then 0 else e.aux)) fun ss c =>
      k ((es.zipIdx).map fun (e, i) =>
        { addr := as.getD i 0, aux := if e.isElem then e.aux else ss.getD i 0 }) c

/-- Passes of a RESIDENT descriptor with n chains (R113). -/
def Desc.bPasses (x : Desc) (n : Nat) : Nat := ceilDiv x.bK (n * x.bKa)
/-- Slabs of tokens: of T_s in RESIDENT; STREAM takes them all at once. -/
def Desc.bSlabs (x : Desc) : Nat := if x.bResident then ceilDiv x.bT x.bTs else 1

/-- The rows from which operand i is read again, once for each later reading by the arrays: A ⌈b/512⌉ times and B
⌈a/(256·n)⌉ times of each STREAM product (R112), dY once per pass in RESIDENT (R113); type 0x52 reads W for each slab
and for the statistics (R119), type 0x53 dO and Q for each further round of key blocks (R120).
(log 75: DEDUCED) -/
def Desc.bAgain (x : Desc) (ms : List Nat) (i : Nat) : List Nat :=
  let n := ms.length
  let times (k : Nat) : List Nat := List.replicate (k - 1) 0
  if x.ty = 0x50 ∨ x.ty = 0x51 then
    if x.bResident then (if i = 0 then times (x.bPasses (bwdChains ms x).length) else [])
    else match i with
      | 0 => times (ceilDiv x.bK 512 + ceilDiv x.bK (256 * n))
      | 1 => times (ceilDiv x.bT (256 * n))
      | 2 => times (ceilDiv x.bN 512)
      | _ => []
  else if x.ty = 0x52 then
    (if i = 0 then times (x.bSlabs + if x.bStats then 1 else 0) else [])
  else if x.ty = 0x53 ∧ (i = 0 ∨ i = 2) then
    ((List.range (ceilDiv (if x.bCausal then min x.bN x.bSeen else x.bN) (256 * n))).drop 1).map fun q => x.bFrom (q * n)
  else []

/-- Read the operands after their headers (R132, R158, R159), each as often as the arrays do. The source of type 0x56 is
read by the store path. (log 71: DEDUCED) -/
def Core.bwdRead (c : Core) (d src : Nat) (x : Desc) (ms : List Nat) (es : List BEnt) (k : List Mat → Core → Core) :
    Core :=
  if x.ty = 0x56 then k [] c
  else
    let tbl := bEnt es 15
    c.fetched d src [(16, tbl.addr, if tbl.addr = 0 then 0 else 32)] fun c =>
      let os := (x.bOpnds es).map fun o => (o.1, c.bwdOpnd x es o)
      c.headersOk d src none (os.map fun o => (16, o.2, true, fun _ => none)) [] fun hs c =>
        let ins := (os.zip hs).map fun (o, h) => (16, 16, o.1, o.2, h)
        c.readAll d src x.nfp ins [] fun rs c =>
          let again := ((os.zip hs).zipIdx).flatMap fun (p, i) =>
            (x.bAgain ms i).flatMap fun r => p.1.2.again 16 16 p.2 r
          c.fetched d src again fun c =>
            let (ms, c) := ((os.zip hs).zip rs).foldl
              (fun (acc : List Mat × Core) (p : ((Nat × Opnd) × List Byte) × List (List Num)) =>
                let (m, c) := acc.2.matOf p.1.1.2 p.1.2 p.2
                (acc.1 ++ [m], c)) ([], c)
            k ms c

/-- Injected errors of the arrays (detectors 0x07 and 0x08, R134): corrected words, squares reloaded, and whether the
descriptor goes on. The reload and the rerun of its tiles count nothing (log 159: DESIGN CHOICE). (log 37: DEDUCED)
(log 122: DEDUCED) -/
def Core.bwdErrors (c : Core) (j : BJob) : Core :=
  j.arrs.foldl
    (fun c a =>
      if !c.live j.d then c
      else
        let c := match c.inject 0x07 a 0 with
          | (none, c) => c
          | (some p, c) =>
            if singleBit p then c.bump 0x5080 5 1
            else c.raise { code := 0x5010, source := srcOf 0x02 a, d := some j.d, inj := true }
        if !c.live j.d then c
        else
          match c.injectIf 0x08 a 0 (fun p => bitAt p 0 || j.x.bResident) with
          | (none, c) => c
          | (some p, c) => c.reject j.d (if bitAt p 0 then 0x5011 else 0x5012) (srcOf 0x02 a) 0xFFFF 0 true) c

/-- Issue a backward descriptor when its group may begin it (R128, R129), check it, read its operands, and do its
work. Where the list cannot be read, the codes of the descriptor itself are judged without it (log 71: DEDUCED); a list
address that is not 64 B aligned is refused as a field (log 149: DESIGN CHOICE). -/
def Core.bwdIssue (c : Core) (dev : Dev) (d ty : Nat) (work : BJob → Core → Core) : Core :=
  match c.desc? d with
  | none => c
  | some x =>
    if !c.bwdFree x then c
    else
      c.issue dev d [ty] c.bwdDoms fun x c =>
        let src := c.bwdSrc x
        let alone := if c.bwdListAt x then [] else [x.bOutFmt, x.bRound, (x.f 16 8 % 64 == 0, 0x5001, 16, x.f 16 4)]
        c.checked d src alone fun c =>
          c.resolved d src (x.bKind == 2) [(16, x.f 16 8)] fun as c =>
            let l := as.getD 0 0
            c.fetched d src [(16, l, 256)] fun c =>
              let es := bwdEnts (c.lread l 256)
              c.checked d src (c.bwdChecks x es) fun c =>
                c.rcGate d src x true fun c =>
                  c.bwdResolve d src es fun es c =>
                    c.checked d src (c.hodChecks x) fun c =>
                      let arrs := c.bwdMembers x
                      c.bwdRead d src x arrs es fun ms c =>
                        let j : BJob := { d := d, x := x, src := src, es := es, ms := ms, arrs := arrs }
                        let c := { c with bwd := { c.bwd with
                          active := KMap.set c.bwd.active x.bGroup d, used := KMap.set c.bwd.used x.bGroup arrs } }
                        let c := c.bwdErrors j
                        if c.live d then work j c else c

/-! ### Products (R39, R102, R103) -/

/-- The accumulators: 24 bits of significand and a 10-bit exponent. (log 77: DEDUCED) -/
def fmtAcc : FFmt := ⟨34, 23, 511, 16777215, 488, .ieee, 0⟩
/-- (log 77: DEDUCED) -/
def rndAcc (x : Num) : Num := fmtAcc.rnd x

/-- The operands of one run on one side: the reference exponent, and the elements as they enter the cells. -/
structure Run where
  ref : Nat
  xs : List Num
  deriving DecidableEq, Repr

/-- Elements under a reference exponent. -/
def lower (ref : Nat) (xs : List Num) : List Num := xs.map fun v => v.scale (127 - (ref : Int))

/-- A row read along its blocks: each run is one block. -/
def alongRow (r : List Num) (es : List Nat) : List Run :=
  ((chunks32 (ceilDiv r.length 32) r).zip es).map fun (xs, e) => { ref := e, xs := lower e xs }

def Mat.along (m : Mat) : List (List Run) := (m.rows.zip m.exps).map fun p => alongRow p.1 p.2

/-- The columns of an operand read across its blocks: each run takes its square's largest exponent (R103). -/
def Mat.across (m : Mat) (cols : Nat) : List (List Run) :=
  let n := ceilDiv m.rows.length 32
  let sq : List (List Nat) := (List.range n).map fun q =>
    (List.range (ceilDiv cols 32)).map fun b =>
      ((m.exps.drop (32 * q)).take 32).foldl (fun a es => max a (es.getD b 0)) 0
  ((transpose cols m.rows).zipIdx).map fun (col, j) =>
    ((chunks32 n col).zipIdx).map fun (xs, q) =>
      let e := (sq.getD q []).getD (j / 32) 0
      { ref := e, xs := lower e xs }

/-- One product of a run: below the smallest E8M13 subnormal it rounds to it or to zero (R103); and whether it was
lowered to zero. -/
def cellProduct (x y : Num) : Num × Nat :=
  let p := x.mul y
  if !p.isZero ∧ !p.nonFinite ∧ p.flog < -139 then
    let r := fmtE8M13.rnd p
    (r, if r.isZero then 1 else 0)
  else (p, 0)

/-- A run in E8M13, and the products lowered to zero. -/
def cellRun (a b : Run) : Num × Nat :=
  (a.xs.zip b.xs).foldl
    (fun (s : Num × Nat) p =>
      let (v, z) := cellProduct p.1 p.2
      (fmtE8M13.rnd (s.1.add v), s.2 + z)) (.zero false, 0)

/-- Runs promoted into an accumulator (R39), which passes as FP32 every `chunk` runs (R113); 0: never.
(log 77: DEDUCED) -/
def runsDot (chunk : Nat) (as bs : List Run) : Num × Nat :=
  ((as.zip bs).zipIdx).foldl
    (fun (s : Num × Nat) (p : (Run × Run) × Nat) =>
      let acc := if chunk ≠ 0 ∧ p.2 ≠ 0 ∧ p.2 % chunk = 0 then rnd32 s.1 else s.1
      let (v, z) := cellRun p.1.1 p.1.2
      (rndAcc (acc.add (v.scale ((p.1.1.ref : Int) + p.1.2.ref - 254))), s.2 + z)) (.zero false, 0)

/-- Products added directly into an accumulator (R39), which passes as FP32 every `chunk` elements; 0: never.
(log 77: DEDUCED) -/
def wideDot (chunk : Nat) (xs ys : List Num) : Num :=
  ((xs.zip ys).zipIdx).foldl
    (fun s (p : (Num × Num) × Nat) =>
      let acc := if chunk ≠ 0 ∧ p.2 ≠ 0 ∧ p.2 % chunk = 0 then rnd32 s else s
      rndAcc (acc.add (p.1.1.mul p.1.2))) (.zero false)

/-- A · Bᵀ with both read along their rows. (log 77: DEDUCED) -/
def prodRows (wide : Bool) (chunk : Nat) (a b : Mat) : List (List Num) × Nat :=
  if wide then (a.rows.map fun x => b.rows.map fun y => wideDot chunk x y, 0)
  else
    let bs := b.along
    let r := a.along.map fun x => bs.map fun y => runsDot (chunk / 32) x y
    (r.map fun l => l.map (·.1), (r.map fun l => (l.map (·.2)).sum).sum)

/-- A · B, A read along its rows and B across its blocks: B has `cols` columns. -/
def prodInto (wide : Bool) (chunk cols : Nat) (a b : Mat) : List (List Num) × Nat :=
  if wide then
    let bs := transpose cols b.rows
    (a.rows.map fun x => bs.map fun y => wideDot chunk x y, 0)
  else
    let bs := b.across cols
    let r := a.along.map fun x => bs.map fun y => runsDot (chunk / 32) x y
    (r.map fun l => l.map (·.1), (r.map fun l => (l.map (·.2)).sum).sum)

/-- Aᵀ · B, both read across: A has `ca` columns and B `cb`. (log 32: DEDUCED) -/
def prodCols (wide : Bool) (chunk ca cb : Nat) (a b : Mat) : List (List Num) × Nat :=
  if wide then
    let bs := transpose cb b.rows
    ((transpose ca a.rows).map fun x => bs.map fun y => wideDot chunk x y, 0)
  else
    let bs := b.across cb
    let r := (a.across ca).map fun x => bs.map fun y => runsDot (chunk / 32) x y
    (r.map fun l => l.map (·.1), (r.map fun l => (l.map (·.2)).sum).sum)

/-! ### Handshakes (R104, R111, R115) -/

/-- Array a of the group computes h handshakes. (log 75: DEDUCED) -/
def Core.bwdBusy (c : Core) (a h : Nat) : Core := (c.bump 0x5080 2 h).bump 0x5090 a h

/-- How n members share tiles: the first tile of member p, and how many it takes. (log 75: DEDUCED) -/
def shareOf (tiles n p : Nat) : Nat × Nat :=
  (p * (tiles / n) + min p (tiles % n), tiles / n + if p < tiles % n then 1 else 0)

/-- A STREAM product of a × b with reduction r over the group. (log 75: DEDUCED) -/
def Core.streamTime (c : Core) (ms : List Nat) (w a b r : Nat) : Core :=
  let n := ms.length
  let t := max (w * (32 * ceilDiv r 32)) 128
  let tiles := ceilDiv a 256 * ceilDiv b 128
  let c := (ms.zipIdx).foldl (fun c (p : Nat × Nat) => c.bwdBusy p.1 (t * (shareOf tiles n p.2).2)) c
  (c.bump 0x5080 3 (t * (ceilDiv tiles n * n - tiles))).bump 0x5080 7 (tiles * (t - w * (32 * ceilDiv r 32)))

/-- The passes of RESIDENT mode (R113, R115). A chain of one array has no link to wait on; the handshakes that longer
ones wait are a free value (log 4: DESIGN CHOICE). (log 75: DEDUCED) -/
def Core.residentTime (c : Core) (x : Desc) (ms : List Nat) : Core :=
  let cs := bwdChains ms x
  let w := x.bW
  let dw := ceilDiv x.bKa 256 * ceilDiv x.bNa 128
  let dx := ceilDiv x.bTs 256 * ceilDiv x.bKa 128
  let h := dw * max (w * x.bTs) 256 + dx * max (w * x.bNa) 128
  let passes := x.bPasses cs.length
  let on (i : Nat) : Nat := ((List.range passes).filter fun p => (p * cs.length + i) * x.bKa < x.bK).length
  let work := ((cs.zipIdx).map fun (l, i) => l.length * on i).sum * x.bSlabs
  let c := (cs.zipIdx).foldl
    (fun c (p : List Nat × Nat) => p.1.foldl (fun c a => c.bwdBusy a (on p.2 * x.bSlabs * h)) c) c
  let c := c.bump 0x5080 3 (passes * x.bSlabs * h * ms.length - work * h)
  let c := c.bump 0x5080 6 (work * dw * (256 - w * x.bTs))
  let c := c.bump 0x5080 7 (work * dx * (128 - w * x.bNa))
  if x.bN ≤ x.bNa then c
  else
    let (n, c) := c.draw (2 ^ 32)
    c.bump 0x5080 0xC n

/-- The handshakes of types 0x50 and 0x51. The row unit of type 0x51 adds none when N is below 128 (R116, log 159:
DESIGN CHOICE). (log 75: DEDUCED) -/
def Core.productTime (c : Core) (j : BJob) : Core :=
  let x := j.x
  if x.bResident then c.residentTime x j.arrs
  else (c.streamTime j.arrs x.bW x.bT x.bK x.bN).streamTime j.arrs x.bW x.bK x.bN x.bT

/-- Tiles of a fused kernel with one reduction length: how many, their reduction, and the floor under each. -/
structure TileRun where
  tiles : Nat
  red : Nat
  least : Nat := 128
  deriving DecidableEq, Repr

/-- Handshakes of a list of tiles, each max(w·r′, floor) (R104, R115). -/
def tileTime (w : Nat) (ts : List TileRun) : Nat :=
  (ts.map fun t => t.tiles * max (w * (32 * ceilDiv t.red 32)) t.least).sum

/-- The handshakes by which a floor raises the tiles it stands under. -/
def tileRaise (w least : Nat) (ts : List TileRun) : Nat :=
  ((ts.filter fun t => t.least == least).map fun t => t.tiles * (least - w * (32 * ceilDiv t.red 32))).sum

/-- The handshakes of a fused kernel whose members do these tiles: an idle member waits for the longest.
(log 75: DEDUCED) -/
def Core.kernelTime (c : Core) (j : BJob) (work : List (List TileRun)) : Core :=
  let w := j.x.bW
  let times := work.map (tileTime w)
  let c := (j.arrs.zip times).foldl (fun c (p : Nat × Nat) => c.bwdBusy p.1 p.2) c
  let longest := times.foldl max 0
  let c := c.bump 0x5080 3 ((times.map fun t => longest - t).sum)
  let c := c.bump 0x5080 6 ((work.map (tileRaise w 256)).sum)
  c.bump 0x5080 7 ((work.map (tileRaise w 128)).sum)

/-- Items 0 to count - 1 dealt round the members in order (log 75: DEDUCED). -/
def dealt (count n p : Nat) : List Nat := (List.range count).filter fun v => v % n == p

/-- The tiles of type 0x52 for one vocabulary tile: the logits, dW (through the hold in RESIDENT), dh; and the logits
again for the statistics (R119). -/
def Desc.headTiles (x : Desc) (v : Nat) : List TileRun :=
  let s := if x.bResident then x.bTs else x.bT
  let nv := min 128 (x.bN - 128 * v)
  let side := ceilDiv s 256
  (if x.bStats then [({ tiles := ceilDiv x.bT 256, red := x.bK } : TileRun)] else []) ++
  [{ tiles := x.bSlabs * side, red := x.bK },
   { tiles := x.bSlabs * ceilDiv x.bK 256, red := s, least := if x.bResident then 256 else 128 },
   { tiles := x.bSlabs * side * ceilDiv x.bK 128, red := nv }]

/-- The tiles of type 0x53 for one key block: s, dp, dv, dk and dq of every query block that is not skipped (R120). -/
def Desc.keyTiles (x : Desc) (b : Nat) : List TileRun :=
  ((List.range (ceilDiv x.bRows 128)).filter fun q => x.bFrom b ≤ 128 * q).flatMap fun q =>
    [{ tiles := 2, red := x.bK },
     { tiles := 2, red := min 128 (x.bRows - 128 * q) },
     { tiles := 1, red := min 256 (x.bN - 256 * b) }]

/-! ### What the arrays hold (R102, R106, R107, R113) -/

/-- The tile at row tile r, column tile k of an output. -/
def tileOf (out : List (List Num)) (r k : Nat) : List (List Num) :=
  ((out.drop (256 * r)).take 256).map fun x => (x.drop (128 * k)).take 128

/-- The accumulators after tiles lo to lo + n - 1 of an output with `cols` column tiles: tile i stands in ACC(i mod
4). -/
def accAfter (acc : List (List (List Num))) (out : List (List Num)) (cols lo n : Nat) : List (List (List Num)) :=
  (List.range (min 4 n)).foldl
    (fun a k =>
      let i := lo + n - 1 - k
      a.set (i % 4) (tileOf out (i / cols) (i % cols))) ((acc ++ List.replicate 4 []).take 4)

/-- An array's contents change. -/
def Core.setArr (c : Core) (a : Nat) (f : BArr → BArr) : Core :=
  { c with bwd := { c.bwd with arrs := KMap.set c.bwd.arrs a (f (KMap.getD c.bwd.arrs a {})) } }

/-- What a STREAM product leaves in its arrays: the row-side panel of the last tile's last chunk, and the last four
tiles (log 149: DESIGN CHOICE). -/
def Core.streamBank (c : Core) (ms : List Nat) (panel : Nat → Panel) (a b : Nat) (out : List (List Num)) : Core :=
  let cols := ceilDiv b 128
  (ms.zipIdx).foldl
    (fun c (p : Nat × Nat) =>
      let (lo, n) := shareOf (ceilDiv a 256 * cols) ms.length p.2
      if n = 0 then c
      else c.setArr p.1 fun s =>
        { s with bank := [panel ((lo + n - 1) / cols)], acc := accAfter s.acc out cols lo n }) c

/-- Where the last chunk of at most 8,192 reduction steps begins (R111); BF16 elements take two squares (R106). -/
def lastChunk (w r : Nat) : Nat × Nat := let n := 8192 / w; ((r - 1) / n * n, n)

/-- What a RESIDENT descriptor leaves: each array's W_a, last slabs, hold and dX partials of its last pass
(log 149: DESIGN CHOICE). -/
def Core.residentBank (c : Core) (j : BJob) (dy w xs : Mat) (dw : List (List Num)) : Core :=
  let x := j.x
  let cs := bwdChains j.arrs x
  let s0 := (x.bSlabs - 1) * x.bTs
  (cs.zipIdx).foldl
    (fun c (l : List Nat × Nat) =>
      match ((List.range (x.bPasses cs.length)).filter fun p => (p * cs.length + l.2) * x.bKa < x.bK).getLast? with
      | none => c
      | some p =>
        let k0 := (p * cs.length + l.2) * x.bKa
        (l.1.zipIdx).foldl
          (fun c (a : Nat × Nat) =>
            let n0 := a.2 * x.bNa
            let n1 := n0 + x.bNa
            let (part, _) := prodInto x.bWide x.bNa (min x.bKa (x.bK - k0)) (dy.win s0 x.bTs 0 n1) (w.win 0 n1 k0 x.bKa)
            let cols := ceilDiv (min x.bKa (x.bK - k0)) 128
            c.setArr a.1 fun s =>
              { bank := [w.panel 1 n0 x.bNa k0 x.bKa, xs.panel 2 s0 x.bTs k0 x.bKa, dy.panel 0 s0 x.bTs n0 x.bNa]
                hold := ((dw.drop k0).take x.bKa).map fun r => ((r.drop n0).take x.bNa).map rnd32
                acc := accAfter s.acc part cols 0 (ceilDiv part.length 256 * cols) }) c) c

/-- What types 0x50 and 0x51 leave in the arrays. -/
def Core.productBank (c : Core) (j : BJob) (dy w xs : Mat) (dx dw : List (List Num)) : Core :=
  let x := j.x
  if x.bResident then c.residentBank j dy w xs dw
  else
    let (n0, n) := lastChunk x.bW x.bN
    let (t0, t) := lastChunk x.bW x.bT
    (c.streamBank j.arrs (fun r => dy.panel 0 (256 * r) 256 n0 n) x.bT x.bK dx).streamBank j.arrs
      (fun r => xs.panel 2 t0 t (256 * r) 256) x.bK x.bN dw

/-! ### Results -/

/-- Write plain bytes of a descriptor, or reject it. -/
def Core.bwdPut (c : Core) (d src a : Nat) (bs : List Byte) : Core :=
  match c.lbad a bs.length with
  | some e => c.rejectAccess d src 16 e
  | none => c.lput a bs

/-- Write one of dX, dK, dV: role 3, producer tag 0x03, spans of one 256 × 128 tile (Table 5.1, R123).
(log 70: DEDUCED) -/
def Core.bwdOut (c : Core) (j : BJob) (slot cols : Nat) (rows : List (List Num)) : Core :=
  if !c.live j.d then c
  else
    let fmt := j.x.f 28 1
    let layer := j.x.bLayer
    let (lat, c) := if (blkOfCode fmt).isSome then c.latch layer 2 3 fmt else (c.noLatch layer 2 3 0, c)
    let t : Dest :=
      { off := 16, soff := 16, addr := j.addr slot, scale := (bEnt j.es slot).aux, fmt := fmt, lat := lat
        mode := fld (j.x.f 29 1) 5 4, key := c.convKey j.x.tag layer, tag := 3, die := c.bwdDie j.x, accum := false
        rg := 256, kg := 128 }
    c.writeRows j.d j.src j.x.nfp t cols rows

/-! ### The gradient store path (R121 to R125) -/

/-- Values in blocks of 32. -/
def gradBlocks (vs : List Num) : List (List Num) := chunks32 (ceilDiv vs.length 32) vs

/-- One block of the path (R122, R123): own exponent, B8e, SR with the element's index as counter. -/
def Core.gradBlk (c : Core) (j : BJob) (ctr0 : Nat) (p : List Num × Nat) : BlkOut :=
  convBlk .b8e (c.noLatch j.x.bLayer 2 3 0) true j.x.nfp 1 (bankKey (c.obj 0x5410 0) j.x.tag j.x.bLayer)
    (ctr0 + 32 * p.2) p.1

/-- Convert a gradient and deposit it from block i0 of hod h on; sums into the layer's norms (R124).
(log 72: DEDUCED) -/
def Core.gradDeposit (c : Core) (j : BJob) (h i0 ctr0 : Nat) (vs : List Num) : Core :=
  let blks := gradBlocks vs
  let outs := (blks.zipIdx).map (c.gradBlk j ctr0)
  let c := c.countConv (sumTally (outs.map (·.cnt)))
  let c := c.countSeen j.d j.src { nonfin := (vs.filter Num.nonFinite).length }
  if !c.live j.d then c
  else
    let c := outs.foldl
      (fun c o =>
        let ws := blkVals o.word o.data
        c.addGradNorm j.x.bLayer (sumSquares ws) (amaxOf ws)) c
    let c := (c.bump 0x5080 9 outs.length).bump 0x5080 0xA ((blks.filter fun b => (amaxOf b).isZero).length)
    c.depositRun j.d (c.bwdDie j.x) (c.hodCount + outs.length + 1) h i0 (outs.map fun o => (o.word, o.data))

/-- Results as the FP32 values that a store or an adder takes (R31 to R35), counted. -/
def Core.asF32 (c : Core) (j : BJob) (xs : List Num) : List Num × Core :=
  let cs := xs.map fun x => (Elem.flt fmtFP32).conv j.x.nfp .rne x
  (cs.map fun q => f32 q.code,
    (c.countConv (elemTally xs cs)).countSeen j.d j.src { nonfin := (xs.filter Num.nonFinite).length })

/-- Results added into FP32 memory. -/
def Core.addF32 (c : Core) (j : BJob) (a : Nat) (xs : List Num) : Core :=
  let (vs, c) := c.asF32 j xs
  if c.live j.d then c.nearAdd j.d j.src a vs else c

/-- Results written as FP32. -/
def Core.putF32 (c : Core) (j : BJob) (a : Nat) (xs : List Num) : Core :=
  let (vs, c) := c.asF32 j xs
  if c.live j.d then c.bwdPut j.d j.src a (vs.flatMap fun v => toLE 4 (f32Code v)) else c

/-- What a load path finds non-finite in a list (R33). -/
def nonFins (xs : List Num) : Seen := { nonfin := (xs.filter Num.nonFinite).length }

/-- The store path (R121): staging written or added, or a deposit of the result with what FINAL alone finds staged.
0x5080:0B counts 64 B for each 64 B written or begun, wherever the staging address lies (log 159: DESIGN CHOICE). -/
def Core.gradStore (c : Core) (j : BJob) (stage h i0 ctr0 : Nat) (vs : List Num) : Core :=
  if !c.live j.d then c
  else
    let lines := ceilDiv (4 * vs.length) 64
    if j.x.bFinal then
      let c := c.countConv (heldTally fmtFP32 [vs])
      let vs := heldIn fmtFP32 vs
      if j.x.bFirst then c.gradDeposit j h i0 ctr0 vs
      else
        match c.lfetch stage (4 * vs.length) with
        | (c, some e) => c.rejectAccess j.d j.src 16 e
        | (c, none) =>
          let old := (unpack 32 vs.length (c.lread stage (4 * vs.length))).map f32
          let c := c.countSeen j.d j.src (nonFins old)
          c.gradDeposit j h i0 ctr0 ((vs.zip old).map fun p => fadd p.1 p.2)
    else
      let c := if j.x.bFirst then c.putF32 j stage vs else c.addF32 j stage vs
      if c.live j.d then c.bump 0x5080 0xB lines else c

/-- dW through the store path. -/
def Core.storeDw (c : Core) (j : BJob) (dw : List (List Num)) : Core :=
  c.gradStore j (j.addr 4) (j.x.f 52 4) (j.x.f 56 8 / 32) 0 dw.flatten

/-- The work ends; deposits held in the send buffers move on. -/
def Core.bwdEnds (c : Core) (d : Nat) : Core := (if c.live d then c.workDone d else c).settle

/-! ### Types 0x50 and 0x56 -/

/-- The two products of a layer: dY·Wᵀ and Xᵀ·dY, and the products lowered to zero. -/
def execProductBackward (d : Nat) : State → Res :=
  lift fun dev c =>
    c.bwdIssue dev d 0x50 fun j c =>
      let x := j.x
      let dy := j.m 0
      let (dx, z1) := prodInto x.bWide (if x.bResident then x.bNa else 0) x.bK dy (j.w 1)
      let (dw, z2) := prodCols x.bWide (if x.bResident then x.bTs else 0) x.bK x.bN (j.m 2) dy
      let c := ((c.bump 0x5080 4 (z1 + z2)).productTime j).productBank j dy (j.w 1) (j.m 2) dx dw
      ((c.bwdOut j 3 x.bK dx).storeDw j dw).bwdEnds d

def execGradientDeposit (d : Nat) : State → Res :=
  lift fun dev c =>
    c.bwdIssue dev d 0x56 fun j c =>
      let e := bEnt j.es 0
      let n := j.x.bN
      c.fetched d j.src [(16, e.addr, ceilDiv (n * fmtBits e.code) 8)] fun c =>
        (c.gradDeposit j (j.x.f 52 4) (j.x.f 56 8 / 32) 0 (c.vec e.addr e.code n)).bwdEnds d

/-! ### Type 0x51 (R116 to R118) -/

/-- Pairs of FP32 values: μ and r of the rows from slot 5, or m and log s. -/
def Core.pairs (c : Core) (a n : Nat) : List (Num × Num) :=
  (List.range n).map fun t => (f32 (c.lnum (a + 8 * t) 4), f32 (c.lnum (a + 8 * t + 4) 4))

/-- Both values of each pair. -/
def flatPairs (st : List (Num × Num)) : List Num := st.flatMap fun p => [p.1, p.2]

/-- x̂ of a row. -/
def xhatRow (mean : Bool) (st : Num × Num) (xs : List Num) : List Num :=
  xs.map fun v => fmul (if mean then fsub v st.1 else v) st.2

/-- dx of a row (R116). (log 73: DEDUCED) -/
def normDx (mean : Bool) (k r a b : Num) (g xh : List Num) : List Num :=
  (g.zip xh).map fun (gj, xj) =>
    let u := if mean then fsub gj (fdiv a k) else gj
    fmul r (fsub u (fdiv (fmul xj b) k))

/-- Is r of a row unusable (R117)? -/
def badR (r : Num) : Bool := r.nonFinite || !Num.lt (.zero false) r

/-- Sums over rows of a function of a row's elements, in FP32. -/
def colSums (n : Nat) (rows : List (List (Num × Num))) : List Num :=
  rows.foldl (fun acc r => (acc.zip r).map fun (s, p) => ffma p.1 p.2 s) (List.replicate n (.zero false))

/-- An element of x or z beyond FP32's range becomes infinite (R31, log 158: DESIGN CHOICE). (log 74: DEDUCED) -/
def execNormalisationBackward (d : Nat) : State → Res :=
  lift fun dev c =>
    c.bwdIssue dev d 0x51 fun j c =>
      let x := j.x
      let t := x.bT
      let k := x.bK
      let n := x.bN
      let pb := j.addr 7
      c.fetched d j.src [(16, j.addr 5, 8 * t), (16, pb, 8 * (k + n))] fun c =>
        let st := c.pairs (j.addr 5) t
        let gamma := c.vec pb 0x0A k
        let beta := c.vec (pb + 4 * k) 0x0A k
        let u := c.vec (pb + 8 * k) 0x0A n
        let v := c.vec (pb + 8 * k + 4 * n) 0x0A n
        let c := c.countSeen d j.src (nonFins (flatPairs st ++ gamma ++ beta ++ u ++ v))
        let dz := j.m 0
        let xh := ((j.m 2).rows.zip st).map fun (r, s) => xhatRow x.bMean s (r.map rnd32)
        let y0 := xh.map fun r => ((r.zip gamma).zip beta).map fun ((a, g), b) => ffma a g b
        let c := c.countConv (heldTally fmtBF16 y0)
        let y : Mat := { rows := y0.map (heldIn fmtBF16), words := [] }
        let (p, z1) := prodInto x.bWide (if x.bResident then x.bNa else 0) k dz (j.w 1)
        let p := p.map fun r => r.map rnd32
        let dots := (dz.rows.zip (j.m 3).rows).map fun (r, z) =>
          ((r.zip u).foldl (fun s (q : Num × Num) => ffma q.1 q.2 s) (Num.zero false),
           ((r.zip z).zip v).foldl (fun s (q : (Num × Num) × Num) => ffma q.1.1 (fsub (rnd32 q.1.2) q.2) s)
             (Num.zero false))
        let bad := (st.filter fun s => badR s.2).length
        let dx := (((p.zip xh).zip dots).zip st).map fun (((pr, xr), ab), s) =>
          if badR s.2 then List.replicate k (Num.zero false)
          else normDx x.bMean (fOfNat k) s.2 ab.1 ab.2 ((pr.zip gamma).map fun (q : Num × Num) => fmul q.2 q.1) xr
        let ys := transpose k y.rows
        let dzs := transpose n dz.rows
        let chunk := if x.bResident then x.bTs else 0
        let dw := ys.map fun a => dzs.map fun b => wideDot chunk a b
        let dg := colSums k ((p.zip xh).map fun q => q.1.zip q.2)
        let db := if x.bMean then colSums k (p.map fun r => r.map fun q => (q, .ofNat 1)) else []
        let c := ((c.bump 0x5080 4 z1).productTime j).productBank j dz (j.w 1) y p dw
        let c := if bad = 0 then c
          else (c.bump 0x5080 0xD bad).raiseOnce d { code := 0x5006, source := j.src }
        let c := (c.bwdOut j 3 k dx).storeDw j dw
        (c.gradStore j (pb + 8 * (k + n)) (x.f 68 4) 0 (2 ^ 63) (dg ++ db)).bwdEnds d

/-! ### Type 0x52 (R119) -/

/-- m and s of a row over tiles of 128, online. -/
def onlineStats : Nat → List Num → Num → Num → Num × Num
  | 0, _, m, s => (m, s)
  | f + 1, ls, m, s =>
    if ls.isEmpty then (m, s)
    else
      let tile := ls.take 128
      let m' := tile.foldl Num.max m
      let s0 := if m == .inf true then .zero false else fmul s (fexp (fsub m m'))
      onlineStats f (ls.drop 128) m' (tile.foldl (fun s l => fadd s (fexp (fsub l m'))) s0)

/-- dh of one vocabulary tile. (log 73: DEDUCED) -/
def headPart (k : Nat) (dls : List (List Num)) (w : Mat) (v : Nat) : List (List Num) :=
  let cols := transpose k ((w.rows.drop (128 * v)).take 128)
  dls.map fun r =>
    let r := (r.drop (128 * v)).take 128
    cols.map fun col => wideDot 0 r col

/-- What type 0x52 leaves in each member that had a vocabulary tile: the loss gradient of the last rows, the last tile
of the hold, and the last tiles of dh (log 149: DESIGN CHOICE). -/
def Core.headBank (c : Core) (j : BJob) (dl : List (List Num)) (w : Mat) (dw : List (List Num)) : Core :=
  let x := j.x
  (j.arrs.zipIdx).foldl
    (fun c (p : Nat × Nat) =>
      match (dealt (ceilDiv x.bN 128) j.arrs.length p.2).getLast? with
      | none => c
      | some v =>
        let r0 := (dl.length - 1) / 256 * 256
        let last := headPart x.bK (dl.drop r0) w v
        let cols := ceilDiv x.bK 128
        c.setArr p.1 fun s =>
          { bank := [({ rows := dl, words := [] } : Mat).panel 16 r0 256 (128 * v) 128]
            hold := if x.bResident then (tileOf dw ((x.bK - 1) / 256) v).map fun r => r.map rnd32 else s.hold
            acc := accAfter s.acc last cols 0 cols }) c

/-- (log 76: DESIGN CHOICE) -/
def execHeadSoftmaxBackward (d : Nat) : State → Res :=
  lift fun dev c =>
    c.bwdIssue dev d 0x52 fun j c =>
      let x := j.x
      let t := x.bT
      let n := x.bN
      c.fetched d j.src [(16, j.addr 6, 8 * t), (16, j.addr 5, if x.bStats then 0 else 8 * t)] fun c =>
        let tau := f32 (x.f 64 4)
        let w := j.w 0
        let h := j.m 1
        let (l, z) := prodRows x.bWide 0 h w
        let l := l.map fun r => r.map fun v => fdiv (rnd32 v) tau
        let st := if x.bStats then
            l.map fun r =>
              let (m, s) := onlineStats r.length r (.inf true) (.zero false)
              (m, flnv s)
          else c.pairs (j.addr 5) t
        let tgt := (List.range t).map fun i => (c.lnum (j.addr 6 + 8 * i) 4, f32 (c.lnum (j.addr 6 + 8 * i + 4) 4))
        let c := c.countSeen d j.src (nonFins (tgt.map (·.2) ++ if x.bStats then [] else flatPairs st))
        let c := if x.bStats then c.putF32 j (j.addr 5) (flatPairs st) else c
        if !c.live d then c.bwdEnds d
        else
          let lp := (l.zip st).map fun (r, s) => r.map fun v => fsub (fsub v s.1) s.2
          let dl0 := (lp.zip tgt).map fun (r, (y, ct)) =>
            (r.zipIdx).map fun (v, i) =>
              fmul (fdiv ct tau) (fsub (fexp v) (if i = y then .ofNat 1 else .zero false))
          let dl := dl0.map (heldIn fmtBF16)
          let bad := (tgt.filter fun p => n ≤ p.1).length
          let c := ((c.bump 0x5080 4 z).countConv (heldTally fmtBF16 dl0)).kernelTime j
            ((List.range j.arrs.length).map fun p => (dealt (ceilDiv n 128) j.arrs.length p).flatMap x.headTiles)
          let c := if bad = 0 then c
            else (c.bump 0x5080 0xD bad).raiseOnce d { code := 0x5007, source := j.src }
          let dls := transpose n dl
          let chunk := if x.bResident then x.bTs else 0
          let dw := (transpose x.bK h.rows).map fun a => dls.map fun b => wideDot chunk a b
          let c := c.headBank j dl w dw
          let c := (List.range (ceilDiv n 128)).foldl
            (fun c v => if c.live d then c.addF32 j (j.addr 3) (headPart x.bK dl w v).flatten else c) c
          let c := c.storeDw j dw
          if !c.live d ∨ j.addr 7 = 0 then c.bwdEnds d
          else
            let (out, c) := (lp.zip tgt).foldl
              (fun (acc : List Num × Core) (p : List Num × Nat × Num) =>
                if p.2.1 < n then (acc.1 ++ [p.1.getD p.2.1 .nan], acc.2)
                else
                  let (v, c) := acc.2.draw (2 ^ 32)
                  (acc.1 ++ [f32 v], c)) ([], c)
            (c.putF32 j (j.addr 7) out).bwdEnds d

/-! ### Type 0x53 (R120) -/

/-- What one key block gives: products lowered to zero, its rows of dK and dV, its dS, and its part of dQ from the first
row that is not skipped. -/
structure KeyOut where
  zeros : Nat
  dk : List (List Num)
  dv : List (List Num)
  ds : List (List Num)
  dq : List (List Num)
  cnt : Tally5
  deriving DecidableEq, Repr

/-- The body of a key block over the query blocks that are not skipped (R120). (log 73: DEDUCED) -/
def BJob.keyBlock (j : BJob) (st : List (Num × Num)) (dt : List Num) (b : Nat) : KeyOut :=
  let x := j.x
  let r0 := x.bFrom b
  let scale := f32 (x.f 64 4)
  let rows (m : Mat) : Mat := m.win r0 (x.bRows - r0) 0 x.bK
  let keys (m : Mat) : Mat := m.win (256 * b) 256 0 x.bK
  let dO := rows (j.m 0)
  let q := rows (j.m 2)
  let k := keys (j.m 1)
  let (s, z1) := prodRows x.bWide 0 q k
  let (dp, z2) := prodRows x.bWide 0 dO (keys (j.m 3))
  let p := ((s.zip (st.drop r0)).zipIdx).map fun ((row, m), r) =>
    (row.zipIdx).map fun (sv, i) =>
      if x.bCausal ∧ x.bPos (r0 + r) < 256 * b + i then Num.zero false
      else fexp (fsub (fsub (fmul scale (rnd32 sv)) m.1) m.2)
  let ds0 := ((p.zip dp).zip (dt.drop r0)).map fun ((pr, dr), dv) =>
    (pr.zip dr).map fun (a, e) => fmul a (fsub (rnd32 e) dv)
  let ds := ds0.map (heldIn fmtBF16)
  let pb := transpose k.rows.length (p.map (heldIn fmtBF16))
  let dOs := transpose x.bK dO.rows
  let qs := transpose x.bK q.rows
  let ks := transpose x.bK k.rows
  { zeros := z1 + z2
    dv := pb.map fun a => dOs.map fun e => wideDot 0 a e
    dk := (transpose k.rows.length ds).map fun a => qs.map fun e => fmul scale (rnd32 (wideDot 0 a e))
    ds := ds
    dq := ds.map fun r => ks.map fun e => fmul scale (rnd32 (wideDot 0 r e))
    cnt := sumTally [heldTally fmtBF16 p, heldTally fmtBF16 ds0] }

/-- What type 0x53 leaves in each member that owned a key block: the block with the last query block, and dK and dV in
two accumulator tiles (R120; log 149: DESIGN CHOICE). -/
def Core.keyBank (c : Core) (j : BJob) (outs : List KeyOut) : Core :=
  let x := j.x
  let q0 := (x.bRows - 1) / 128 * 128
  (j.arrs.zipIdx).foldl
    (fun c (p : Nat × Nat) =>
      match (dealt outs.length j.arrs.length p.2).getLast? with
      | none => c
      | some b =>
        let o := outs.getD b { zeros := 0, dk := [], dv := [], ds := [], dq := [], cnt := {} }
        c.setArr p.1 fun s =>
          { s with
            bank := [(j.m 1).panel 1 (256 * b) 256 0 128, (j.m 3).panel 4 (256 * b) 256 0 128,
              (j.m 2).panel 2 q0 128 0 128, (j.m 0).panel 0 q0 128 0 128,
              { slot := 16, row := q0, col := 256 * b, vals := o.ds.drop (q0 - x.bFrom b), words := [] }]
            acc := [o.dk, o.dv] ++ (s.acc.drop 2) }) c

def execAttentionBackward (d : Nat) : State → Res :=
  lift fun dev c =>
    c.bwdIssue dev d 0x53 fun j c =>
      let x := j.x
      let rows := x.bRows
      c.fetched d j.src [(16, j.addr 5, 8 * rows)] fun c =>
        let st := c.pairs (j.addr 5) rows
        let c := c.countSeen d j.src (nonFins (flatPairs st))
        let dt := ((j.m 0).rows.zip (j.m 4).rows).map fun (a, b) =>
          (a.zip b).foldl (fun s (p : Num × Num) => ffma p.1 p.2 s) (Num.zero false)
        let seen := if x.bCausal then min x.bN x.bSeen else x.bN
        let outs := (List.range (ceilDiv seen 256)).map (j.keyBlock st dt)
        let c := ((c.bump 0x5080 4 (outs.map (·.zeros)).sum).countConv (sumTally (outs.map (·.cnt)))).kernelTime j
          ((List.range j.arrs.length).map fun p => (dealt outs.length j.arrs.length p).flatMap x.keyTiles)
        let c := c.keyBank j outs
        let c := (outs.zipIdx).foldl
          (fun c (o : KeyOut × Nat) =>
            if c.live d then c.addF32 j (j.addr 3 + 4 * x.bK * x.bFrom o.2) o.1.dq.flatten else c) c
        let blank := List.replicate (x.bN - seen) (List.replicate x.bK (Num.zero false))
        ((c.bwdOut j 7 x.bK (outs.flatMap (·.dk) ++ blank)).bwdOut j 8 x.bK (outs.flatMap (·.dv) ++ blank)).bwdEnds d

end Sys2Proof.Machine
end

