-- ==== Sys2Proof/Machine/Complete.lean ====
section
/-! DEFINITION. A descriptor completes (R361), with its plane window (R84 to R86); DRAIN ends (R10, R11). -/

namespace Sys2Proof.Machine

/-- Does a deposited message of the descriptor still wait outside its die's send buffer (R278)? -/
def Core.depositsWait (c : Core) (d : Nat) : Bool :=
  [0, 1].any fun die => ((c.xch.out.filter fun o => o.die == die).drop 16384).any fun o => o.d == some d

/-- Is the descriptor's work done and every write it made acknowledged (R361)? -/
def Core.canComplete (c : Core) (d : Nat) (x : Desc) : Bool :=
  x.issued && x.done && !(c.fwd.spans.any fun s => s.d == d) && !(c.roll.ends.any fun e => e.d == d) &&
    !c.depositsWait d && c.acknowledged (.desc d)

/-- What the units do when their descriptor completes: a forward product's window closes (R84, R85), the precision units
and the array groups count it, an update is applied (R255). -/
def Core.unitsComplete (c : Core) (d : Nat) (x : Desc) : Core :=
  let c := match c.fwd.runs.find? (fun r => r.d == d) with
    | some r => c.closeWindow r
    | none => c
  if 0x58 ≤ x.ty ∧ x.ty ≤ 0x5B then c.bump 0x5880 1 1
  else if (0x50 ≤ x.ty ∧ x.ty ≤ 0x53) ∨ x.ty = 0x56 then c.bump 0x5080 1 1
  else if x.ty = 0x72 then c.updDone x
  else c

/-- A descriptor completes: its signal is given where its action has not given it, its queue counts it, IRQ raises its
vector. -/
def Core.complete (c : Core) (d : Nat) (x : Desc) : Core :=
  let c := c.unitsComplete d x
  ((if x.signalled then c else c.signal x).bump (0xA100 + x.queue) 0xC 1).dropDesc d

/-- The headers of a descriptor get their CRCs, its last writes (R162). -/
def Core.lastWrites (c : Core) (d : Nat) (x : Desc) : Core :=
  ((c.endHeaders x).modDesc d fun x => { x with hdrs := [] }).owe c (.desc d)

/-- With its work done and acknowledged a descriptor makes its last writes, and completes once they are acknowledged
too. -/
def execDescriptorComplete (d : Nat) : State → Res :=
  lift fun _ c =>
    match c.desc? d with
    | some x =>
      if c.canComplete d x then
        let c := c.lastWrites d x
        if c.acknowledged (.desc d) then c.complete d x else c
      else c
    | none => c

/-- Has every descriptor doorbelled before the DRAIN request left (R10)? A DISABLED queue's ring holds none. -/
def Core.drained (c : Core) : Bool :=
  !(c.links.descs.any fun p => p.2.early) &&
  c.links.queues.all fun p => p.2.state == 0 || p.2.head == p.2.tail

/-- DRAIN ends (R10): READY; contexts still STEPPING return to ACTIVE (R11); the buffer is written back (R334). -/
def execDrainComplete : State → Res :=
  liftDev fun dev c =>
    if dev = .drain ∧ c.drained then
      let (n, c) := c.abortStepping
      (.ready, (c.bump 0x6890 0x16 n).writeBackAll)
    else (dev, c)

end Sys2Proof.Machine
end

