-- ==== Sys2Proof/Machine/Kimal.lean ====
section
/-! DEFINITION. The Kimal ring (R384 to R396): frame paths, servicing frames, links, SYNC and the timebase. -/

namespace Sys2Proof.Machine

/-! ### Links and paths (R385) -/

/-- Is a Kimal link up? -/
def Core.kUp (c : Core) (k : Nat) : Bool := if k = 0 then c.dict.k0 else if k = 1 then c.dict.k1 else false

/-- The port processed frames enter, and the one they leave (Table 12.7a). (log 115: DEDUCED) -/
def Core.kEntry (c : Core) : Option Nat := if c.dict.k0 then some 0 else if c.dict.k1 then some 1 else none
/-- (log 115: DEDUCED) -/
def Core.kExit (c : Core) : Nat := if c.dict.k1 then 1 else 0

/-- A frame leaves on a port. (log 115: DEDUCED) -/
def Core.frameOut (c : Core) (port : Nat) (f : KFrame) : Core := { c with dict := { c.dict with ringOut := some (port, f) } }

/-- A link changes: the path changes with it. -/
def Core.setLink (c : Core) (k : Nat) (up : Bool) : Core :=
  let c := { c with dict := if k = 0 then { c.dict with k0 := up } else { c.dict with k1 := up } }
  (c.bump 0x1880 5 1).raise { code := 0x1002, source := srcOf 0x0C 2, fmt := 4, detail := detail4 k 0 0 0 }

/-- K0 or K1 goes down. -/
def execKimalLinkDown (k : Nat) : State → Res :=
  lift fun _ c =>
    if !c.kUp k then c
    else (c.raise { code := 0x1001, source := srcOf 0x0C k, fmt := 4, detail := detail4 k 0 0 0 }).setLink k false

/-- A link has been stable for 100 ms. -/
def execKimalLinkUp (k : Nat) : State → Res :=
  lift fun _ c => if 2 ≤ k ∨ c.kUp k then c else c.setLink k true

/-! ### Time (R392 to R396) -/

/-- The delay of a Kimal link as it is shown. -/
def Core.kDelay (c : Core) (k : Nat) : Nat := c.obj 0x1031 (k + 1)

/-- A port sends a delay-probe block: a probe, or an answer with its turnaround. -/
def Core.probeSend (c : Core) (k : Nat) (turnaround : Option Nat) : Core :=
  { c with dict := { c.dict with probeOut := (k, c.now, turnaround) :: c.dict.probeOut } }

/-- A probe of a link, every 1 ms: its block leaves; with the neighbour's answer the delay is half the round trip less
the turnaround. (log 114: DEDUCED) -/
def execDelayProbe (k : Nat) (roundTrip turnaround : Option Nat) : State → Res :=
  lift fun _ c =>
    if !c.kUp k then c
    else
      match roundTrip, turnaround with
      | some r, some t => (c.probeSend k none).setObj 0x1031 (k + 1) (min 0xFFFF ((r - t) / 2))
      | _, _ => c.probeSend k none

/-- A neighbour's probe block, which arrived at a local time, is answered with the turnaround in three bytes.
(log 114: DEDUCED) -/
def execProbeBlockReceived (k sentAt : Nat) : State → Res :=
  lift fun _ c => if !c.kUp k then c else c.probeSend k (some ((c.now - sentAt) % 2 ^ 24))

/-- Steer the timebase by an offset (R394). (log 114: DEDUCED) -/
def Core.steerBy (c : Core) (offset : Int) : Core :=
  let c := c.setObj 0x1030 5 (ofInt 32 (max (-(2 ^ 31)) (min (2 ^ 31 - 1) offset)))
  if offset.natAbs ≤ 10000 then { c with dict := { c.dict with steer := offset, slewAcc := 0 } }
  else
    ({ c with now := (((c.now : Int) + offset) % 2 ^ 64).toNat, dict := { c.dict with steer := 0, slewAcc := 0 } }).raise
      { code := 0x1021, source := srcOf 0x0C 2 }

/-- What a SYNC does to this module (R393, R396): its position, and the offset when the time is valid; the reference's
own SYNC is valid too. (log 114: DEDUCED) -/
def Core.takeSync (c : Core) (hop time : Nat) (valid : Bool) : Core :=
  let c := c.setObj 0x1021 0 hop
  let c := { c with dict := { c.dict with follows := valid } }
  if valid then (c.steerBy ((time : Int) - (c.now : Int))).setObj 0x1030 4 1
  else if c.flag 0x1030 1 then c.setObj 0x1030 4 1
  else c

/-- The SYNC as it goes on: one hop further; the time, once valid, moves by the residence (up to 64 ns, free) and the
delay of the link it leaves on. Behind a link without a delay no module can be synchronised: the time is not valid
there. (log 114: DEDUCED) -/
def Core.passSync (c : Core) (data : List Byte) : List Byte × Core :=
  let fl := numAt data 8 1
  let hop := numAt data 9 1
  let valid := bitAt fl 0 || c.flag 0x1030 1
  let time := if bitAt fl 0 then numAt data 0 8 else if c.flag 0x1030 1 then c.now else numAt data 0 8
  let (res, c) := c.draw 65
  let delay := c.kDelay c.kExit
  let on := valid && delay != 0xFFFF
  (toLE 8 (if on then time + res + delay else time) ++ toLE 1 (fl / 2 * 2 + if on then 1 else 0) ++ toLE 1 ((hop + 1) % 256) ++
    bytesAt data 10 6, c)

/-- No valid SYNC for 100 ms (R396): the timebase runs free. (log 114: DEDUCED) -/
def execSyncLoss : State → Res :=
  lift fun _ c =>
    (({ c with dict := { c.dict with steer := 0, slewAcc := 0 } }).setObj 0x1030 4 0).raise
      { code := 0x1020, source := srcOf 0x0C 2 }

/-! ### Frames (R386 to R391) -/

/-- What a frame asks of the module once its FCS proves good. (log 110: DEDUCED) -/
inductive KAct where
  | write (g : Datagram)
  | sync (hop time : Nat) (valid : Bool)
  deriving DecidableEq, Repr

/-- Is a datagram addressed to this module (R387)? (log 110: DEDUCED) -/
def Core.addressed (c : Core) (g : Datagram) : Bool :=
  match g.mode with
  | 0 => g.address == 0
  | 1 => g.address != 0 && g.address == c.obj 0x1020 0
  | 2 => g.address < 64 && bitAt (c.obj 0x1022 0) g.address
  | 3 => true
  | _ => false

/-- The datagram as every module passes it on: positions count down. -/
def passPosition (g : Datagram) : Datagram :=
  if g.mode = 0 then { g with address := g.address / 65536 * 65536 + (g.address + 65535) % 65536 } else g

/-- May this module write its status (R389)? -/
def statusOpen (g : Datagram) : Bool := g.status == 0 || g.status == stOk || g.status == stStaged

/-- A datagram with the module's status, where it may stand. -/
def putStatus (g : Datagram) (st : Nat) : Datagram := if statusOpen g then { g with status := st } else g

/-- Set this module's acknowledge bit (R390). -/
def Core.ackBit (c : Core) (g : Datagram) (st : Nat) : Datagram × Core :=
  if g.mode < 2 ∨ !(st == stOk || st == stStaged) then (g, c)
  else
    let k := c.obj 0x1021 0
    if k < 64 then ({ g with ack := g.ack ||| 2 ^ k }, c) else (g, c.bump 0x1880 9 1)

/-- The frame as it passes: the device as the frame's reads find it, the device as its writes would leave it, and what
is to be done once the FCS proves good. -/
structure Passing where
  dev : Dev
  core : Core
  tdev : Dev
  trial : Core
  acts : List KAct

/-- Service one datagram of a frame (R387 to R390). Reads see the state before the frame's writes, which take effect
only after the FCS (R391). -/
def Passing.datagram (p : Passing) (g : Datagram) : Datagram × Passing :=
  let out := passPosition g
  if g.cmd = 0 ∨ 6 ≤ g.cmd ∨ !p.core.addressed g then (out, p)
  else
    let p := { p with core := p.core.bump 0x1880 2 1 }
    if 2 ≤ g.mode ∧ g.cmd ≠ 2 ∧ g.cmd ≠ 5 then (putStatus out stDenied, p)
    else if g.cmd = 5 then
      if g.data.length ≠ 16 then (putStatus out stType, p)
      else
        let (data, c) := p.core.passSync g.data
        (putStatus { out with data := data } stOk,
          { p with core := c, acts := p.acts ++ [.sync (numAt g.data 9 1) (numAt g.data 0 8) (bitAt (numAt g.data 8 1) 0)] })
    else if g.cmd = 2 then
      match p.trial.writeObj p.tdev .ring g.index g.sub g.offset g.data with
      | (td, tc) =>
        let st := tc.dict.lastStatus
        let (out, c) := p.core.ackBit out st
        (putStatus out st, { p with core := c, tdev := td, trial := tc, acts := p.acts ++ [.write g] })
    else
      match p.core.serve p.dev .ring g with
      | (_, _, c) =>
        let o := c.outcome g
        (putStatus { out with data := o.data } o.status, { p with core := c })

/-- The datagrams of a frame, in order. -/
def Passing.datagrams (p : Passing) : List Datagram → List Datagram × Passing
  | [] => ([], p)
  | g :: gs =>
    match p.datagram g with
    | (g, p) =>
      match p.datagrams gs with
      | (gs, p) => (g :: gs, p)

/-- Do what a good frame asks. (log 110: DEDUCED) -/
def runAct (s : Dev × Core) (a : KAct) : Dev × Core :=
  match a with
  | .write g => s.2.writeObj s.1 .ring g.index g.sub g.offset g.data
  | .sync hop time valid => (s.1, s.2.takeSync hop time valid)

/-- Process a frame (R386, R391); an injection spoils the FCS of a frame on arrival (Table 15.5). (log 110: DEDUCED) -/
def Core.processFrame (c : Core) (dev : Dev) (port : Nat) (f : KFrame) : Dev × Core :=
  let (inj, c) := c.inject 0x13 port 0
  let good := f.fcsGood && inj.isNone
  let c := c.bump 0x1880 1 1
  let start : Passing := { dev := dev, core := c, tdev := dev, trial := c, acts := [] }
  match start.datagrams f.datagrams with
  | (gs, p) =>
    let exit := c.kExit
    if good then
      let s := p.acts.foldl runAct (dev, p.core)
      (s.1, s.2.frameOut exit { f with datagrams := gs, fcsGood := true })
    else
      let c := (p.core.bump 0x1880 3 1).raise
        { code := 0x1003, source := srcOf 0x0C 2, fmt := 4, detail := detail4 port 0 0 0, inj := inj.isSome }
      (dev, c.frameOut exit { f with datagrams := gs, fcsGood := false })

/-- Frames the ring forwards unchanged and unserviced (R384). (log 115: DEDUCED) -/
def foreign (f : KFrame) : Bool := f.etherType != 0x88B5 || f.vlan || 1518 < f.size

/-- Do a frame's datagrams fit it (R386, Table 12.7b): 1 to 61 of them, each of up to 1,024 B of data, padded to 4 B,
with its header of 24 B, in what the frame holds beside its own 18 B and the FCS? -/
def frameFits (f : KFrame) : Bool :=
  1 ≤ f.datagrams.length && f.datagrams.length ≤ 61 && f.datagrams.all (fun g => g.data.length ≤ 1024) &&
    22 + (f.datagrams.map fun g => 24 + roundUp g.data.length 4).sum ≤ f.size

/-- A frame arrives on K0 or K1 (R385, R386). -/
def Core.kimalFrame (c : Core) (dev : Dev) (port : Nat) (f : KFrame) : Dev × Core :=
  if !c.kUp port then (dev, c)
  else
    let processed := c.kEntry == some port
    let out := if processed then c.kExit else 0
    if foreign f ∨ (processed ∧ (f.version ≠ 1 ∨ !frameFits f)) then (dev, (c.bump 0x1880 4 1).frameOut out f)
    else if processed then c.processFrame dev port f
    else (dev, c.frameOut out f)

def execKimalFrame (port : Nat) (f : KFrame) : State → Res := liftDev fun dev c => c.kimalFrame dev port f

end Sys2Proof.Machine
end

