-- ==== Sys2Proof/Machine/Tombola.lean ====
section
/-! DEFINITION. The tombola and the ledger (R214, R222 to R228): type 0x60. -/

namespace Sys2Proof.Machine

/-! ### Distributions (R222, R225) -/

/-- A row's sampling distribution: the kept tokens in ascending index with their weights and x, the largest x, their
sum; greedy or not. -/
structure Distr where
  kept : List (Nat × Num × Num)
  top : Num
  sum : Num
  greedy : Bool
  deriving DecidableEq, Repr

/-- A logit as the tombola takes it: none where it has probability 0; +inf reads as the largest finite value (R225). -/
def logit (z : Num) : Option Num :=
  match z with
  | .nan => none
  | .inf true => none
  | .inf false => some (fmtFP32.maxNum false)
  | z => some z

/-- Insert by descending value, ties to the lower index (a later element comes after equals). -/
def insertDesc (v : Nat × Num) : List (Nat × Num) → List (Nat × Num)
  | [] => [v]
  | y :: ys => if Num.lt y.2 v.2 then v :: y :: ys else y :: insertDesc v ys

/-- Sort by descending value. -/
def sortDesc (xs : List (Nat × Num)) : List (Nat × Num) := xs.foldl (fun acc v => insertDesc v acc) []

/-- The shortest prefix whose sum reaches a bound; at least one. -/
def reachPrefix (bound : Num) : Num → List (Nat × Num) → List (Nat × Num)
  | _, [] => []
  | s, v :: vs =>
    let s := fadd s v.2
    if Num.lt s bound then v :: reachPrefix bound s vs else [v]

/-- Held inside the FP32 range (log 27: DEDUCED). -/
def clampFin (x : Num) : Num :=
  match x with
  | .inf s => fmtFP32.maxNum s
  | x => x

/-- The distribution of a logits row under a context's parameters (R222). -/
def distrOf (x : Ctx) (zs : List Num) : Distr :=
  let live := (zs.zipIdx).filterMap fun (z, i) => (logit z).map fun v => (i, v)
  let t := f32 x.temp
  if t.isZero then
    let best := live.foldl
      (fun b v => match b with
        | none => some v
        | some w => if Num.lt w.2 v.2 then some v else some w) (none : Option (Nat × Num))
    match best with
    | none => { kept := [], top := .zero false, sum := .zero false, greedy := true }
    | some v => { kept := [(v.1, .ofNat 1, v.2)], top := v.2, sum := .ofNat 1, greedy := true }
  else
    let xs := live.map fun v => (v.1, clampFin (fdiv v.2 t))
    let xs := if x.topK = 0 then xs else
      let top := ((sortDesc xs).take x.topK).map (·.1)
      xs.filter fun v => top.contains v.1
    let mx := (xs.map (·.2)).foldl Num.max .nan
    let ws := xs.map fun v => (v.1, fexp (fsub v.2 mx))
    let big := (ws.map (·.2)).foldl Num.max (.zero false)
    let ws := ws.filter fun v => !(Num.lt v.2 (fmul (f32 x.minP) big))
    let ws := if Num.lt (f32 x.topP) (.ofNat 1) then
        let sorted := sortDesc ws
        let total := (sorted.map (·.2)).foldl fadd (.zero false)
        let keep := (reachPrefix (fmul (f32 x.topP) total) (.zero false) sorted).map (·.1)
        ws.filter fun v => keep.contains v.1
      else ws
    let kept := ws.filterMap fun v => if v.2.isZero then none else (xs.find? (·.1 == v.1)).map fun y => (v.1, v.2, y.2)
    { kept := kept, top := mx, sum := (kept.map (·.2.1)).foldl fadd (.zero false), greedy := false }

/-- p′ of a token. -/
def Distr.p (q : Distr) (t : Nat) : Num :=
  match q.kept.find? (·.1 == t) with
  | some v => fdiv v.2.1 q.sum
  | none => .zero false

/-- The log-probability of a token; 0 under greedy. -/
def Distr.logp (q : Distr) (t : Nat) : Num :=
  if q.greedy then .zero false
  else
    match q.kept.find? (·.1 == t) with
    | some v => fsub (fsub v.2.2 q.top) (flnv q.sum)
    | none => .inf true

/-- The first token whose running sum exceeds u × S; where none does, which token comes is a free value
(log 27: DEDUCED). -/
def Core.drawToken (c : Core) (u : Num) (ws : List (Nat × Num)) (s : Num) : Nat × Core :=
  let bound := fmul u s
  let run := ws.foldl
    (fun (acc : Num × Option Nat) v =>
      match acc.2 with
      | some t => (acc.1, some t)
      | none =>
        let n := fadd acc.1 v.2
        (n, if Num.lt bound n then some v.1 else none)) (.zero false, none)
  match run.2 with
  | some t => (t, c)
  | none =>
    let (k, c) := c.draw (max 1 ws.length)
    ((ws.getD k (0, .zero false)).1, c)

/-! ### The bank (R224) -/

/-- A 32-bit value of the tombola bank, scaled by 2^-32. -/
def Core.tombolaU (c : Core) (n : Nat) (x : Ctx) (row kind draft : Nat) : Num :=
  let key := mixN (c.obj 0x6410 0 ^^^ mixN x.seed)
  let ctr := n * 2 ^ 50 + x.steps % 2 ^ 24 * 2 ^ 26 + row * 2 ^ 23 + kind * 2 ^ 22 + draft * 2 ^ 21
  .ofScaled ((genWord key ctr % 2 ^ 32 : Nat) : Int) (-32)

/-! ### Issue (R232) -/

def Desc.draftMode (x : Desc) : Bool := bitAt (x.f 70 1) 0

/-- The checks of R17 and R232 for type 0x60. -/
def Core.sampleChecks (c : Core) (x : Desc) : List (Bool × Nat × Nat × Nat) :=
  let m := x.f 70 1
  let j := fld m 3 1
  let v := x.f 60 4
  let n := x.f 56 4
  let fs := x.f 69 1
  [(knownFormat (x.f 68 1), 0x3001, 68, x.f 68 1),
   (fs == 0 || knownFormat fs, 0x3001, 69, fs),
   ((bytesAt x.bytes 72 56).all (· == 0), 0x6032, 72, x.f 72 4),
   (m / 16 == 0, 0x6032, 70, m),
   (x.f 16 8 % 64 == 0, 0x6032, 16, x.f 16 4),
   (if x.draftMode then x.f 48 8 == 0 else x.f 48 8 % 16 == 0, 0x6032, 48, x.f 48 4),
   (1 ≤ n && n ≤ 16384, 0x6032, 56, n),
   (2 ≤ v && v ≤ 262144, 0x6032, 60, v),
   (v ≤ x.f 64 4, 0x6032, 64, x.f 64 4),
   (x.f 68 1 == 0x08 || x.f 68 1 == 0x0A, 0x6032, 68, x.f 68 1),
   (fs == 0 || fs == 0x08 || fs == 0x0A, 0x6032, 69, fs),
   (if x.draftMode then 1 ≤ j else j == 0, 0x6032, 70, m),
   (x.f 71 1 &&& c.obj 0x6400 0 != 0, 0x6032, 71, x.f 71 1)]

/-- The first tombola of a descriptor. -/
def Core.tombolaSrc (c : Core) (x : Desc) : Nat :=
  srcOf 0x06 (((List.range 8).find? fun s => bitAt (x.f 71 1) s && bitAt (c.obj 0x6400 0) s).getD 0)

/-- (log 50: DEDUCED) -/
def Core.sampleDoms (c : Core) (x : Desc) : List Nat :=
  let us := (List.range 8).filter fun s => bitAt (x.f 71 1) s && bitAt (c.obj 0x6400 0) s
  (us.filterMap (domainOf 0x06)).foldl (fun a k => insertNat k a) []

/-- Issue a sample; the batch list's entries are read and checked (R232). -/
def Core.sampleIssue (c : Core) (dev : Dev) (d : Nat) (draft : Bool) (work : Desc → List Nat → Core → Core) : Core :=
  let busy := match c.desc? d with
    | some x => x.draftMode != draft ||
        (c.batch (x.f 16 8) (min (x.f 56 4) 16384)).any fun e => c.ctxHeld (e % 65536)
    | none => true
  if busy then c
  else
    c.issue dev d [0x60] c.sampleDoms fun x c =>
      c.checked d ctxSrc (c.sampleChecks x) fun c =>
        let list := x.f 16 8
        let n := x.f 56 4
        c.fetched d ctxSrc [(16, list, 4 * n)] fun c =>
          let es := c.batch list n
          let rows := es.any fun e => 1 < fld e 23 16
          match es.find? (fun e => 16384 ≤ e % 65536) with
          | some e => c.reject d 0x6032 ctxSrc 16 e
          | none =>
            if rows ∧ (x.f 32 8 = 0 ∨ x.f 40 8 = 0) then c.reject d 0x6032 ctxSrc (if x.f 32 8 = 0 then 32 else 40) 0
            else if rows != (x.f 69 1 != 0) then c.reject d 0x6032 ctxSrc 69 (x.f 69 1)
            else work x es c

/-- A logits row: fetched, counted (R33, R225). none: the descriptor was rejected. -/
def Core.logitsRow (c : Core) (d : Nat) (x : Desc) (off base fmt row : Nat) : Option (List Num) × Core :=
  let w := if fmt = 0x08 then 2 else 4
  let a := base + row * x.f 64 4 * w
  let v := x.f 60 4
  match c.lfetch a (v * w) with
  | (c, some e) => (none, c.rejectAccess d (c.tombolaSrc x) off e)
  | (c, none) =>
    let zs := (unpack (8 * w) v (c.lread a (v * w))).map fun q => if w = 2 then bf16 q else f32 q
    let bad := (zs.filter Num.nonFinite).length
    let c := (c.bump 0x6890 0x10 bad).countSeen d (c.tombolaSrc x) { nonfin := bad }
    (if c.live d then some zs else none, c)

/-! ### A TARGET row group (R223) -/

/-- A token to emit: token, source, row, log-probability. -/
structure Emit where
  t : Nat
  source : Nat
  row : Nat
  logp : Num
  deriving DecidableEq, Repr

/-- What a row group yields: the tokens in order, or a row with no probability, or a rejected descriptor. -/
inductive Group where
  | tokens (es : List Emit)
  | numeric
  | gone
  deriving DecidableEq, Repr

/-- Draw from a row and end the group. -/
def Core.drawRow (c : Core) (n : Nat) (x : Ctx) (q : Distr) (j source : Nat) (acc : List Emit) : Group × Core :=
  let (t, c) := c.drawToken (c.tombolaU n x j 1 0) (q.kept.map fun v => (v.1, v.2.1)) q.sum
  (.tokens (acc ++ [{ t := t, source := source, row := j, logp := q.logp t }]), c)

/-- Rows j, j + 1, … of a group of k rows starting at row r0 (R223). -/
def Core.rowGroup (c : Core) (d : Nat) (y : Desc) (i n : Nat) (x : Ctx) (r0 k : Nat) :
    Nat → Nat → List Emit → Group × Core
  | 0, _, acc => (.tokens acc, c)
  | f + 1, j, acc =>
    match c.logitsRow d y 24 (y.f 24 8) (y.f 68 1) (r0 + j) with
    | (none, c) => (.gone, c)
    | (some zs, c) =>
      let p := distrOf x zs
      if p.kept.isEmpty then (.numeric, c)
      else if j + 1 = k then c.drawRow n x p j (if k = 1 then 0 else 3) acc
      else
        match c.logitsRow d y 32 (y.f 32 8) (y.f 69 1) (r0 + j) with
        | (none, c) => (.gone, c)
        | (some qs, c) =>
          let q := distrOf x qs
          let t := c.lnum (y.f 40 8 + 32 * i + 4 * j) 4
          let pt := p.p t
          let qt := q.p t
          let (ok, c) :=
            if qt.isZero then
              (!pt.isZero, (c.bump 0x6890 0x12 1).raiseOnce d { code := 0x6037, source := ctxSrc })
            else (Num.lt (c.tombolaU n x j 0 0) (fdiv pt qt), c)
          if !c.live d then (.gone, c)
          else if ok then
            c.rowGroup d y i n x r0 k f (j + 1) (acc ++ [{ t := t, source := 1, row := j, logp := p.logp t }])
          else
            let r := p.kept.filterMap fun v =>
              let e := fsub (fdiv v.2.1 p.sum) (q.p v.1)
              if Num.lt (.zero false) e then some (v.1, e) else none
            let s := (r.map (·.2)).foldl fadd (.zero false)
            if s.isZero then c.drawRow n x p j 2 acc
            else
              let (t, c) := c.drawToken (c.tombolaU n x j 1 0) r s
              (.tokens (acc ++ [{ t := t, source := 2, row := j, logp := p.logp t }]), c)

/-! ### The ledger (R227, R228) -/

/-- A ledger entry (Table 7.4). -/
def ledgerEntry (x : Ctx) (e : Emit) (pos drafts : Nat) (stop limit : Bool) : List Byte :=
  toLE 16 (e.t % 2 ^ 18 + e.source * 2 ^ 26 + (if x.forced then 2 ^ 28 else 0) + (if x.changed then 2 ^ 29 else 0) +
    (if limit then 2 ^ 30 else 0) + (if stop then 2 ^ 31 else 0) + pos % 2 ^ 20 * 2 ^ 32 + drafts % 8 * 2 ^ 58 +
    e.row % 8 * 2 ^ 61 + f32Code e.logp * 2 ^ 64 + x.inUse % 2 ^ 32 * 2 ^ 96)

/-- The tokens of a step in position order: the record after them, and how many were emitted and were drafts.
(log 48: DEDUCED) -/
def Core.emitTokens (c : Core) (d drafts : Nat) : List Emit → Ctx → Nat → Nat → Ctx × Nat × Nat × Core
  | [], x, n, a => (x, n, a, c)
  | e :: es, x, n, a =>
    if x.ledCount = x.ledCap then
      ({ x with endReason := 3 }, n, a,
        (c.bump 0x6890 0xF 1).raise { code := 0x6035, source := ctxSrc, d := some d })
    else
      let pos := x.pos + 1
      let stop := (x.stops.take x.stopCount).contains e.t
      let limit := !stop && pos + 1 == x.limit
      let c := (c.put (x.ledBase + 16 * x.ledCount) (ledgerEntry x e pos drafts stop limit)).bump 0x6890 4 1
      let x := { x with ledCount := x.ledCount + 1, changed := false, pos := pos, last := e.t }
      let a := if e.source = 1 then a + 1 else a
      if stop then ({ x with endReason := 1 }, n + 1, a, c)
      else if limit then ({ x with endReason := 2 }, n + 1, a, c)
      else c.emitTokens d drafts es x (n + 1) a

/-- A context's step is sampled: ledger, then the record in one write, then the result (R214). Where the entries still
wait for the stacks, the other two follow once they are acknowledged. -/
def Core.sampleEnds (c : Core) (d : Nat) (y : Desc) (i n k : Nat) (g : Group) : Core :=
  let x := c.ctx n
  let (x', em, acc, c') := match g with
    | .tokens es => c.emitTokens d (k - 1) es x 0 0
    | _ => ({ x with endReason := 4 }, 0, 0,
        (c.bump 0x6890 0x11 1).raiseOnce d { code := 0x6036, source := ctxSrc })
  let next : Ctx := { x' with
    state := if x'.endReason = 0 then 1 else 5
    steps := x.steps + 1, proposed := x.proposed + (k - 1), accepted := x.accepted + acc }
  let e : SampleEnd := { d := d, ctx := n, next := next, res := y.f 48 8 + 16 * i, emitted := em, accepted := acc }
  let waits : Bool := c.mem.entryWaits.length != c'.mem.entryWaits.length
  let c := (((c'.owe c (.desc d)).bump 0x6890 3 1).bump 0x6890 5 (k - 1)).bump 0x6890 6 acc
  if waits then { c with roll := { c.roll with ends := c.roll.ends ++ [e] } } else c.finishSample e

/-- The record that an entry of a sample's list finds: that of a sample still waiting for its ledger entries is the one
it will write (R214). -/
def Core.sampledCtx (c : Core) (n : Nat) : Ctx :=
  match c.roll.ends.find? fun e => e.ctx == n with
  | some e => e.next
  | none => c.ctx n

/-- The entries of a TARGET sample in list order; r0 is the entry's first row. -/
def Core.sampleEntries (c : Core) (d : Nat) (y : Desc) : List Nat → Nat → Nat → Core
  | [], _, _ => c
  | e :: es, i, r0 =>
    let n := e % 65536
    let k := fld e 23 16
    let c := if c.live d then c.ctxRead n else c
    let x := c.sampledCtx n
    let c :=
      if !c.live d then c
      else if x.state ≠ 2 ∨ e / 2 ^ 24 ≠ 1 then c.sampleResult (y.f 48 8 + 16 * i) x.last x.pos 0 0 0x10
      else
        match c.rowGroup d y i n x r0 k k 0 [] with
        | (.gone, c) => c
        | (g, c) => c.sampleEnds d y i n k g
    c.sampleEntries d y es (i + 1) (r0 + k)

/-- Type 0x60 in TARGET mode. -/
def execSampleTarget (d : Nat) : State → Res :=
  lift fun dev c =>
    c.sampleIssue dev d false fun x es c =>
      match c.lbad (x.f 48 8) (16 * es.length) with
      | some e => c.rejectAccess d ctxSrc 48 e
      | none => (c.sampleEntries d x es 0 0).workDone d

/-- The entries of a DRAFT sample: one token for each stepping entry that has a draft of this slot. (log 50: DEDUCED) -/
def Core.draftEntries (c : Core) (d : Nat) (y : Desc) (j : Nat) : List Nat → Nat → Nat → Core
  | [], _, _ => c
  | e :: es, i, r0 =>
    let n := e % 65536
    let k := fld e 23 16
    let c := if c.live d then c.ctxRead n else c
    let x := c.ctx n
    let c :=
      if !c.live d || x.state != 2 || e / 2 ^ 24 != 1 || k ≤ j then c
      else
        match c.logitsRow d y 32 (y.f 32 8) (y.f 69 1) (r0 + j - 1) with
        | (none, c) => c
        | (some zs, c) =>
          let q := distrOf x zs
          if q.kept.isEmpty then c
          else
            let (t, c) := c.drawToken (c.tombolaU n x (j - 1) 1 1) (q.kept.map fun v => (v.1, v.2.1)) q.sum
            let a := y.f 40 8 + 32 * i + 4 * (j - 1)
            match c.lbad a 4 with
            | some b => c.rejectAccess d ctxSrc 40 b
            | none => c.lput a (toLE 4 t)
    c.draftEntries d y j es (i + 1) (r0 + k)

/-- Type 0x60 in DRAFT mode. -/
def execSampleDraft (d : Nat) : State → Res :=
  lift fun dev c =>
    c.sampleIssue dev d true fun x es c => (c.draftEntries d x (fld (x.f 70 1) 3 1) es 0 0).workDone d

end Sys2Proof.Machine
end

