-- ==== Sys2Proof/Machine/Dispatch.lean ====
section
/-! DEFINITION. What each command does: one arm per row of the table. -/

namespace Sys2Proof.Machine

def exec (i : Instr) (s : State) : Host.Outcome State Fault Refusal :=
  match i with
  | .inputTurnOn mv => Sys2Proof.Machine.execInputTurnOn mv s
  | .powerEnable => Sys2Proof.Machine.execPowerEnable s
  | .powerDisable inputMv => Sys2Proof.Machine.execPowerDisable inputMv s
  | .powerOffTimeEnd => Sys2Proof.Machine.execPowerOffTimeEnd s
  | .moduleResetAssert ns => Sys2Proof.Machine.execModuleResetAssert ns s
  | .moduleResetRelease => Sys2Proof.Machine.execModuleResetRelease s
  | .bootComplete found => Sys2Proof.Machine.execBootComplete found s
  | .perstAssert => Sys2Proof.Machine.execPerstAssert s
  | .perstDeassert link => Sys2Proof.Machine.execPerstDeassert link s
  | .thermTripShutdown => Sys2Proof.Machine.execThermTripShutdown s
  | .requestRun src => Sys2Proof.Machine.execRequestRun src s
  | .requestDrain src => Sys2Proof.Machine.execRequestDrain src s
  | .drainComplete => Sys2Proof.Machine.execDrainComplete s
  | .doorbell fn q off v => Sys2Proof.Machine.execDoorbell fn q off v s
  | .tallySet fn t v => Sys2Proof.Machine.execTallySet fn t v s
  | .tallyAdd fn t v => Sys2Proof.Machine.execTallyAdd fn t v s
  | .queueFetch q hostSlot => Sys2Proof.Machine.execQueueFetch q hostSlot s
  | .queueAbort src q => Sys2Proof.Machine.execQueueAbort src q s
  | .abortRemovalDone q => Sys2Proof.Machine.execAbortRemovalDone q s
  | .queueResume src q => Sys2Proof.Machine.execQueueResume src q s
  | .functionLevelReset fn => Sys2Proof.Machine.execFunctionLevelReset fn s
  | .pcieLinkDown => Sys2Proof.Machine.execPcieLinkDown s
  | .bar4Access off len write => Sys2Proof.Machine.execBar4Access off len write s
  | .tallyOp d => Sys2Proof.Machine.execTallyOp d s
  | .copy d engine => Sys2Proof.Machine.execCopy d engine s
  | .descriptorComplete d => Sys2Proof.Machine.execDescriptorComplete d s
  | .forwardProduct d => Sys2Proof.Machine.execForwardProduct d s
  | .gatedFfProduct d => Sys2Proof.Machine.execGatedFfProduct d s
  | .tableLoad d => Sys2Proof.Machine.execTableLoad d s
  | .weightChunkLoad tile => Sys2Proof.Machine.execWeightChunkLoad tile s
  | .laneGroupHandshake tile lg => Sys2Proof.Machine.execLaneGroupHandshake tile lg s
  | .bondRelease tile => Sys2Proof.Machine.execBondRelease tile s
  | .puProduct d => Sys2Proof.Machine.execPuProduct d s
  | .rowStatistics d => Sys2Proof.Machine.execRowStatistics d s
  | .gather d => Sys2Proof.Machine.execGather d s
  | .select d => Sys2Proof.Machine.execSelect d s
  | .productBackward d => Sys2Proof.Machine.execProductBackward d s
  | .normalisationBackward d => Sys2Proof.Machine.execNormalisationBackward d s
  | .headSoftmaxBackward d => Sys2Proof.Machine.execHeadSoftmaxBackward d s
  | .attentionBackward d => Sys2Proof.Machine.execAttentionBackward d s
  | .gradientDeposit d => Sys2Proof.Machine.execGradientDeposit d s
  | .convert d => Sys2Proof.Machine.execConvert d s
  | .spanConvert conv => Sys2Proof.Machine.execSpanConvert conv s
  | .watchRecordsWrite => Sys2Proof.Machine.execWatchRecordsWrite s
  | .attention d => Sys2Proof.Machine.execAttention d s
  | .attentionItem engine => Sys2Proof.Machine.execAttentionItem engine s
  | .pageWaitTimeout engine => Sys2Proof.Machine.execPageWaitTimeout engine s
  | .remoteReadTimeout engine => Sys2Proof.Machine.execRemoteReadTimeout engine s
  | .poolFreePage src pool page => Sys2Proof.Machine.execPoolFreePage src pool page s
  | .quarantineRelease => Sys2Proof.Machine.execQuarantineRelease s
  | .ctxOpen d => Sys2Proof.Machine.execCtxOpen d s
  | .ctxClose d => Sys2Proof.Machine.execCtxClose d s
  | .ctxHold d => Sys2Proof.Machine.execCtxHold d s
  | .ctxRelease d => Sys2Proof.Machine.execCtxRelease d s
  | .ctxPark d => Sys2Proof.Machine.execCtxPark d s
  | .parkPagesAcknowledged ctx => Sys2Proof.Machine.execParkPagesAcknowledged ctx s
  | .ctxResume d => Sys2Proof.Machine.execCtxResume d s
  | .ctxInsert d => Sys2Proof.Machine.execCtxInsert d s
  | .abortStep d => Sys2Proof.Machine.execAbortStep d s
  | .flushPrefix d => Sys2Proof.Machine.execFlushPrefix d s
  | .deferredContextOp ctx => Sys2Proof.Machine.execDeferredContextOp ctx s
  | .decodeStepOpen d => Sys2Proof.Machine.execDecodeStepOpen d s
  | .sampleTarget d => Sys2Proof.Machine.execSampleTarget d s
  | .sampleDraft d => Sys2Proof.Machine.execSampleDraft d s
  | .holdLimitExpiry => Sys2Proof.Machine.execHoldLimitExpiry s
  | .stepOpen d => Sys2Proof.Machine.execStepOpen d s
  | .stepOpenEffect => Sys2Proof.Machine.execStepOpenEffect s
  | .microbatchOpen d => Sys2Proof.Machine.execMicrobatchOpen d s
  | .microbatchClose d => Sys2Proof.Machine.execMicrobatchClose d s
  | .updateSgd d => Sys2Proof.Machine.execUpdateSgd d s
  | .updateAdamw d => Sys2Proof.Machine.execUpdateAdamw d s
  | .updateSignMomentum d => Sys2Proof.Machine.execUpdateSignMomentum d s
  | .refresh d => Sys2Proof.Machine.execRefresh d s
  | .publish d => Sys2Proof.Machine.execPublish d s
  | .load d => Sys2Proof.Machine.execLoad d s
  | .exportBank d => Sys2Proof.Machine.execExportBank d s
  | .exportTimeout d => Sys2Proof.Machine.execExportTimeout d s
  | .bankGrant b => Sys2Proof.Machine.execBankGrant b s
  | .depositReceived m => Sys2Proof.Machine.execDepositReceived m s
  | .endReceived m => Sys2Proof.Machine.execEndReceived m s
  | .hodDeadlineOpen hod => Sys2Proof.Machine.execHodDeadlineOpen hod s
  | .hodDeadlineFirst hod => Sys2Proof.Machine.execHodDeadlineFirst hod s
  | .ringReceived m => Sys2Proof.Machine.execRingReceived m s
  | .ringEndReceived m => Sys2Proof.Machine.execRingEndReceived m s
  | .ringHopTimeout tag => Sys2Proof.Machine.execRingHopTimeout tag s
  | .imageReceived m => Sys2Proof.Machine.execImageReceived m s
  | .xansReceived answers => Sys2Proof.Machine.execXansReceived answers s
  | .resendTimer tag => Sys2Proof.Machine.execResendTimer tag s
  | .novoteTimeout => Sys2Proof.Machine.execNovoteTimeout s
  | .voteReceived step member novote hodCrc memberCrc => Sys2Proof.Machine.execVoteReceived step member novote hodCrc memberCrc s
  | .voteWindowExpiry => Sys2Proof.Machine.execVoteWindowExpiry s
  | .commitReceived step c listeners admitted admitStep => Sys2Proof.Machine.execCommitReceived step c listeners admitted admitStep s
  | .abandonReceived step silent => Sys2Proof.Machine.execAbandonReceived step silent s
  | .commitWaitExpiry => Sys2Proof.Machine.execCommitWaitExpiry s
  | .fpReceived step member summary torn => Sys2Proof.Machine.execFpReceived step member summary torn s
  | .fpWindowExpiry => Sys2Proof.Machine.execFpWindowExpiry s
  | .closeReceived step agreed excluded split => Sys2Proof.Machine.execCloseReceived step agreed excluded split s
  | .rejoinRequest src => Sys2Proof.Machine.execRejoinRequest src s
  | .rejoinReqReceived member lastStep => Sys2Proof.Machine.execRejoinReqReceived member lastStep s
  | .rejoinReqResend => Sys2Proof.Machine.execRejoinReqResend s
  | .grantReceived leader stepR source rejoiner version => Sys2Proof.Machine.execGrantReceived leader stepR source rejoiner version s
  | .rejoinPullDone => Sys2Proof.Machine.execRejoinPullDone s
  | .doneReceived member => Sys2Proof.Machine.execDoneReceived member s
  | .rejoinHoldExpiry => Sys2Proof.Machine.execRejoinHoldExpiry s
  | .hbmSlot pc => Sys2Proof.Machine.execHbmSlot pc s
  | .wcbAgeWriteback stack entry => Sys2Proof.Machine.execWcbAgeWriteback stack entry s
  | .hbmPatrolScrub addr symbols => Sys2Proof.Machine.execHbmPatrolScrub addr symbols s
  | .tileStoreScrub addr flips => Sys2Proof.Machine.execTileStoreScrub addr flips s
  | .repairExecute src => Sys2Proof.Machine.execRepairExecute src s
  | .portTrainingStart f => Sys2Proof.Machine.execPortTrainingStart f s
  | .trainingComplete f failedLanes delayNs peer => Sys2Proof.Machine.execTrainingComplete f failedLanes delayNs peer s
  | .trainingRetry f => Sys2Proof.Machine.execTrainingRetry f s
  | .lossOfSignal f => Sys2Proof.Machine.execLossOfSignal f s
  | .flitBoundary f => Sys2Proof.Machine.execFlitBoundary f s
  | .txnFlitReceived f flit => Sys2Proof.Machine.execTxnFlitReceived f flit s
  | .nakReceived f seq cls credits => Sys2Proof.Machine.execNakReceived f seq cls credits s
  | .linkFlitReceived f ack cls credits => Sys2Proof.Machine.execLinkFlitReceived f ack cls credits s
  | .recoverDone f => Sys2Proof.Machine.execRecoverDone f s
  | .recoverTimeout f => Sys2Proof.Machine.execRecoverTimeout f s
  | .rd src tag addr len => Sys2Proof.Machine.execRd src tag addr len s
  | .rdData tag data => Sys2Proof.Machine.execRdData tag data s
  | .rdErr tag code => Sys2Proof.Machine.execRdErr tag code s
  | .wr src tag addr len data => Sys2Proof.Machine.execWr src tag addr len data s
  | .wrData src tag data => Sys2Proof.Machine.execWrData src tag data s
  | .wrAck tag code => Sys2Proof.Machine.execWrAck tag code s
  | .dreq src tag dg => Sys2Proof.Machine.execDreq src tag dg s
  | .dans tag dg => Sys2Proof.Machine.execDans tag dg s
  | .completionTimeout tag => Sys2Proof.Machine.execCompletionTimeout tag s
  | .objectWrite src index sub offset data => Sys2Proof.Machine.execObjectWrite src index sub offset data s
  | .stagingWrite src index sub data => Sys2Proof.Machine.execStagingWrite src index sub data s
  | .keystoneApply src => Sys2Proof.Machine.execKeystoneApply src s
  | .keystoneDiscard src => Sys2Proof.Machine.execKeystoneDiscard src s
  | .stagingHoldExpiry => Sys2Proof.Machine.execStagingHoldExpiry s
  | .aliasWrite src alias_ sub data => Sys2Proof.Machine.execAliasWrite src alias_ sub data s
  | .mailboxDoorbell fn dg => Sys2Proof.Machine.execMailboxDoorbell fn dg s
  | .kimalFrame port f => Sys2Proof.Machine.execKimalFrame port f s
  | .kimalLinkDown k => Sys2Proof.Machine.execKimalLinkDown k s
  | .kimalLinkUp k => Sys2Proof.Machine.execKimalLinkUp k s
  | .delayProbe k roundTrip turnaround => Sys2Proof.Machine.execDelayProbe k roundTrip turnaround s
  | .syncLoss => Sys2Proof.Machine.execSyncLoss s
  | .timeSet src t => Sys2Proof.Machine.execTimeSet src t s
  | .powerEstimate mw => Sys2Proof.Machine.execPowerEstimate mw s
  | .stagePoll r => Sys2Proof.Machine.execStagePoll r s
  | .stageSilent => Sys2Proof.Machine.execStageSilent s
  | .governorCycle ratesMhs mwAtVoltage => Sys2Proof.Machine.execGovernorCycle ratesMhs mwAtVoltage s
  | .temperatureRead mc cores => Sys2Proof.Machine.execTemperatureRead mc cores s
  | .railMonitorSample rail mv => Sys2Proof.Machine.execRailMonitorSample rail mv s
  | .idleDrop dom => Sys2Proof.Machine.execIdleDrop dom s
  | .pllLockLoss k => Sys2Proof.Machine.execPllLockLoss k s
  | .challengeRequest src => Sys2Proof.Machine.execChallengeRequest src s
  | .response src data => Sys2Proof.Machine.execResponse src data s
  | .challengeExpiry => Sys2Proof.Machine.execChallengeExpiry s
  | .quoteNonce src data => Sys2Proof.Machine.execQuoteNonce src data s
  | .quoteReady => Sys2Proof.Machine.execQuoteReady s
  | .getVersion => Sys2Proof.Machine.execGetVersion s
  | .getCapabilities => Sys2Proof.Machine.execGetCapabilities s
  | .negotiateAlgorithms algs => Sys2Proof.Machine.execNegotiateAlgorithms algs s
  | .getDigests => Sys2Proof.Machine.execGetDigests s
  | .getCertificate slot off len => Sys2Proof.Machine.execGetCertificate slot off len s
  | .challenge slot nonce => Sys2Proof.Machine.execChallenge slot nonce s
  | .getMeasurements index nonce => Sys2Proof.Machine.execGetMeasurements index nonce s
  | .spdmUnsupported code => Sys2Proof.Machine.execSpdmUnsupported code s
  | .updateErase src => Sys2Proof.Machine.execUpdateErase src s
  | .updateImageWrite src kind offset data => Sys2Proof.Machine.execUpdateImageWrite src kind offset data s
  | .updateVerify src => Sys2Proof.Machine.execUpdateVerify src s
  | .updateCommit src => Sys2Proof.Machine.execUpdateCommit src s
  | .updateConfirm src => Sys2Proof.Machine.execUpdateConfirm src s
  | .updateAbandon src => Sys2Proof.Machine.execUpdateAbandon src s
  | .configBlobWrite src data => Sys2Proof.Machine.execConfigBlobWrite src data s
  | .enrolWrite src data => Sys2Proof.Machine.execEnrolWrite src data s
  | .overrideWrite src data => Sys2Proof.Machine.execOverrideWrite src data s
  | .eventLogWrite die => Sys2Proof.Machine.execEventLogWrite die s
  | .eventsDropped die => Sys2Proof.Machine.execEventsDropped die s
  | .faultClear src => Sys2Proof.Machine.execFaultClear src s
  | .stageStall w => Sys2Proof.Machine.execStageStall w s
  | .ringmasterWatchdog target => Sys2Proof.Machine.execRingmasterWatchdog target s
  | .injectionArm src slot => Sys2Proof.Machine.execInjectionArm src slot s
  | .injectionDisarm src slot => Sys2Proof.Machine.execInjectionDisarm src slot s
  | .periodicInjection slot => Sys2Proof.Machine.execPeriodicInjection slot s
  | .stageShutsItselfDown => Sys2Proof.Machine.execStageShutsItselfDown s
  | .internalResetHoldEnd => Sys2Proof.Machine.execInternalResetHoldEnd s
  | .probeBlockReceived k sentAt => Sys2Proof.Machine.execProbeBlockReceived k sentAt s
  | .bar4Resize bytes => Sys2Proof.Machine.execBar4Resize bytes s
  | .directAccessRead fn offset len => Sys2Proof.Machine.execDirectAccessRead fn offset len s
  | .bar2Read fn offset len => Sys2Proof.Machine.execBar2Read fn offset len s
  | .jtagInstruction code => Sys2Proof.Machine.execJtagInstruction code s
  | .serviceRepairCompletes ok => Sys2Proof.Machine.execServiceRepairCompletes ok s
  | .updateCommandEnd flashOk => Sys2Proof.Machine.execUpdateCommandEnd flashOk s
  | .prefixClearingEnds => Sys2Proof.Machine.execPrefixClearingEnds s
  | .imageRequestedAgain member hod => Sys2Proof.Machine.execImageRequestedAgain member hod s

end Sys2Proof.Machine
end

