-- ==== Sys2Proof/Machine/Time.lean ====
section
/-! DEFINITION. The timebase (R392 to R394): what one nanosecond changes. -/

namespace Sys2Proof.Machine

/-- One nanosecond of the timebase. While an offset of up to 10 µs is being slewed, the timebase moves one ns further
(or one less) each 10,000 ns: 100 ppm (R394). (log 2: DESIGN CHOICE) -/
def tickCore (c : Core) : Core :=
  let d := c.dict
  if d.steer = 0 then { c with now := (c.now + 1) % 2 ^ 64 }
  else if d.slewAcc < 9999 then { c with now := (c.now + 1) % 2 ^ 64, dict := { d with slewAcc := d.slewAcc + 1 } }
  else if 0 < d.steer then
    { c with now := (c.now + 2) % 2 ^ 64, dict := { d with slewAcc := 0, steer := d.steer - 1 } }
  else { c with dict := { d with slewAcc := 0, steer := d.steer + 1 } }

/-- A nanosecond passes; the timebase counts while the module is powered (R12). (log 2: DESIGN CHOICE) -/
def tick (s : State) : State := if s.dev = .off ∧ !s.core.pins.pwrGood then s else { s with core := tickCore s.core }

end Sys2Proof.Machine
end

