-- ==== Sys2Proof/WellFormed.lean ====
section
/-! DEFINITION. Well-formed commands: every operand in the range of the object, field or instance it names. The meanings
ask for none of this; it says which commands a source can form. -/

namespace Sys2Proof

/-- A number below 2^n. -/
def inBits (n x : Nat) : Bool := x < 2 ^ n

/-- A source: a VF from 1 to 15, a member from 0 to 255 (R354, R336). -/
def Src.wf : Src → Bool
  | .vf n => 1 ≤ n && n ≤ 15
  | .peer m => m < 256
  | _ => true

/-- A datagram's fields have the widths of Table 12.7, and it carries at most 4,096 bytes. -/
def Datagram.wf (g : Datagram) : Bool :=
  inBits 8 g.cmd && inBits 8 g.mode && inBits 32 g.address && inBits 16 g.index && inBits 8 g.sub && inBits 8 g.status &&
    inBits 32 g.offset && inBits 64 g.ack && g.data.length ≤ 4096

/-- A Kimal frame's fields (Tables 12.6, 12.7b): its count is one byte; frames over 1,518 B exist and are passed on. -/
def KFrame.wf (f : KFrame) : Bool :=
  inBits 16 f.etherType && inBits 16 f.size && inBits 8 f.version && inBits 16 f.ident && inBits 8 f.datagrams.length &&
    f.datagrams.all Datagram.wf

/-- A link of Table 11.7: generation 1 to 7, width 1, 4, 8 or 16, non-flit mode at 32 GT/s (generation 5) and below
only, at most 15 virtual functions. -/
def HostLink.wf (l : HostLink) : Bool :=
  1 ≤ l.gen && l.gen ≤ 7 && [1, 4, 8, 16].contains l.width && (l.flit || l.gen ≤ 5) && l.vfs ≤ 15 &&
    l.masked.all fun v => v.1 < 16 && v.2 < 128

/-- A class-1 message: the fields of Table 9.2 and a payload of 204 bytes. -/
def XMsg.wf (m : XMsg) : Bool :=
  inBits 32 m.step && inBits 32 m.hod && inBits 32 m.first && inBits 8 m.kind && inBits 8 m.sender && inBits 8 m.count &&
    inBits 8 m.esc && inBits 16 m.contribs && inBits 32 m.sent && inBits 64 m.imageOff && m.payload.length == 204

/-- A flit's header fields (Tables 11.3, 11.4) and its 240 payload bytes. -/
def Flit.wf (x : Flit) : Bool :=
  x.kind < 16 && x.cls < 4 && inBits 12 x.seq && inBits 12 x.ack && x.creditClass < 4 && inBits 10 x.credits &&
    inBits 6 x.tkind && inBits 8 x.dest && inBits 8 x.src && inBits 3 x.hops && inBits 17 x.tag &&
    x.payload.length ≤ 240 && inBits 32 x.crc

/-- An answer names a tag (R364) and one of four codes. -/
def XAnswer.wf (a : XAnswer) : Bool := inBits 17 a.tag && a.code < 4

/-- Members of a group: at most 256 (R336). -/
def membersWf (ms : List Nat) : Bool := ms.all fun m => m < 256

/-- Every operand in range. -/
def Instr.wf : Instr → Bool
  | .inputTurnOn _ => true
  | .powerEnable => true
  | .powerDisable _ => true
  | .powerOffTimeEnd => true
  | .moduleResetAssert _ => true
  | .moduleResetRelease => true
  | .bootComplete t => t.lanes.length ≤ 8 && t.times.length ≤ 11
  | .perstAssert => true
  | .perstDeassert link => link.wf
  | .thermTripShutdown => true
  | .requestRun src => src.wf
  | .requestDrain src => src.wf
  | .drainComplete => true
  | .doorbell fn q off v => fn < 16 && q < 512 && off < 4096 && (q < 256 || off % 8 != 0) && inBits 64 v
  | .tallySet fn t v => fn < 16 && t < 4096 && inBits 64 v
  | .tallyAdd fn t v => fn < 16 && t < 4096 && inBits 64 v
  | .queueFetch q slot => q < 256 && (slot.all fun bs => bs.length == 0 || bs.length == 128)
  | .queueAbort src q => src.wf && q < 256
  | .abortRemovalDone q => q < 256
  | .queueResume src q => src.wf && q < 256
  | .functionLevelReset fn => fn < 16
  | .pcieLinkDown => true
  | .bar4Access _ len w => 1 ≤ len && (w.all fun bs => bs.length == len)
  | .tallyOp _ => true
  | .copy _ engine => engine < 8
  | .descriptorComplete _ => true
  | .forwardProduct _ => true
  | .gatedFfProduct _ => true
  | .tableLoad _ => true
  | .weightChunkLoad tile => tile < 192
  | .laneGroupHandshake tile lg => tile < 192 && lg < 16
  | .bondRelease tile => tile < 192
  | .puProduct _ => true
  | .rowStatistics _ => true
  | .gather _ => true
  | .select _ => true
  | .productBackward _ => true
  | .normalisationBackward _ => true
  | .headSoftmaxBackward _ => true
  | .attentionBackward _ => true
  | .gradientDeposit _ => true
  | .convert _ => true
  | .spanConvert conv => conv < 16
  | .watchRecordsWrite => true
  | .attention _ => true
  | .attentionItem engine => engine < 16
  | .pageWaitTimeout engine => engine < 16
  | .remoteReadTimeout engine => engine < 16
  | .poolFreePage src pool page => src.wf && pool < 4 && inBits 32 page
  | .quarantineRelease => true
  | .ctxOpen _ => true
  | .ctxClose _ => true
  | .ctxHold _ => true
  | .ctxRelease _ => true
  | .ctxPark _ => true
  | .parkPagesAcknowledged ctx => ctx < 16384
  | .ctxResume _ => true
  | .ctxInsert _ => true
  | .abortStep _ => true
  | .flushPrefix _ => true
  | .deferredContextOp ctx => ctx < 16384
  | .decodeStepOpen _ => true
  | .sampleTarget _ => true
  | .sampleDraft _ => true
  | .holdLimitExpiry => true
  | .stepOpen _ => true
  | .stepOpenEffect => true
  | .microbatchOpen _ => true
  | .microbatchClose _ => true
  | .updateSgd _ => true
  | .updateAdamw _ => true
  | .updateSignMomentum _ => true
  | .refresh _ => true
  | .publish _ => true
  | .load _ => true
  | .exportBank _ => true
  | .exportTimeout _ => true
  | .bankGrant b => b < 2
  | .depositReceived m => m.wf
  | .endReceived m => m.wf
  | .hodDeadlineOpen hod => hod < 4096
  | .hodDeadlineFirst hod => hod < 4096
  | .ringReceived m => m.wf
  | .ringEndReceived m => m.wf
  | .ringHopTimeout tag => inBits 17 tag
  | .imageReceived m => m.wf
  | .xansReceived answers => answers.all XAnswer.wf
  | .resendTimer tag => inBits 17 tag
  | .novoteTimeout => true
  | .voteReceived step member _ hodCrc memberCrc => inBits 32 step && member < 256 && inBits 64 hodCrc && inBits 64 memberCrc
  | .voteWindowExpiry => true
  | .commitReceived step c listeners admitted admitStep =>
    inBits 32 step && membersWf c && membersWf listeners && membersWf admitted && inBits 32 admitStep
  | .abandonReceived step silent => inBits 32 step && membersWf silent
  | .commitWaitExpiry => true
  | .fpReceived step member summary torn => inBits 32 step && member < 256 && inBits 64 summary && inBits 32 torn
  | .fpWindowExpiry => true
  | .closeReceived step agreed excluded _ => inBits 32 step && inBits 64 agreed && membersWf excluded
  | .rejoinRequest src => src.wf
  | .rejoinReqReceived member lastStep => member < 256 && inBits 32 lastStep
  | .rejoinReqResend => true
  | .grantReceived leader stepR source rejoiner version => leader < 256 && inBits 32 stepR && source < 256 && rejoiner < 256 && inBits 32 version
  | .rejoinPullDone => true
  | .doneReceived member => member < 256
  | .rejoinHoldExpiry => true
  | .hbmSlot pc => pc < 512
  | .wcbAgeWriteback stack _ => stack < 8
  | .hbmPatrolScrub addr symbols => inBits 64 addr && symbols ≤ 32
  | .tileStoreScrub addr flips => inBits 64 addr && inBits 64 flips
  | .repairExecute src => src.wf
  | .portTrainingStart f => f < 6
  | .trainingComplete f failedLanes _ peer => f < 6 && inBits 8 failedLanes && peer < 256
  | .trainingRetry f => f < 6
  | .lossOfSignal f => f < 6
  | .flitBoundary f => f < 6
  | .txnFlitReceived f flit => f < 6 && flit.wf
  | .nakReceived f seq cls credits => f < 6 && inBits 12 seq && cls < 4 && inBits 10 credits
  | .linkFlitReceived f ack cls credits => f < 6 && inBits 12 ack && cls < 4 && inBits 10 credits
  | .recoverDone f => f < 6
  | .recoverTimeout f => f < 6
  | .rd src tag addr len => src < 256 && inBits 17 tag && inBits 64 addr && inBits 32 len
  | .rdData tag _ => inBits 17 tag
  | .rdErr tag code => inBits 17 tag && inBits 8 code
  | .wr src tag addr len data => src < 256 && inBits 17 tag && inBits 64 addr && inBits 32 len && data.length ≤ 224
  | .wrData src tag data => src < 256 && inBits 17 tag && data.length ≤ 240
  | .wrAck tag code => inBits 17 tag && inBits 8 code
  | .dreq src tag dg => src < 256 && inBits 17 tag && dg.wf
  | .dans tag dg => inBits 17 tag && dg.wf
  | .completionTimeout tag => inBits 17 tag
  | .objectWrite src index sub offset data => src.wf && inBits 16 index && inBits 8 sub && inBits 32 offset && data.length ≤ 4096
  | .stagingWrite src index sub data => src.wf && inBits 16 index && inBits 8 sub && data.length ≤ 4096
  | .keystoneApply src => src.wf
  | .keystoneDiscard src => src.wf
  | .stagingHoldExpiry => true
  | .aliasWrite src alias_ sub data => src.wf && 0xD000 ≤ alias_ && alias_ ≤ 0xDFFF && inBits 8 sub && data.length ≤ 8
  | .mailboxDoorbell fn dg => fn < 16 && dg.wf
  | .kimalFrame port f => port < 2 && f.wf
  | .kimalLinkDown k => k < 2
  | .kimalLinkUp k => k < 2
  | .delayProbe k _ _ => k < 2
  | .syncLoss => true
  | .timeSet src t => src.wf && inBits 64 t
  | .powerEstimate _ => true
  | .stagePoll r => inBits 16 r.status
  | .stageSilent => true
  | .governorCycle rates mws => rates.length == 6 && mws.length == 47
  | .temperatureRead mc cores => mc.length == 128 && [0, 96, 128].contains cores.length
  | .railMonitorSample rail _ => rail < 20
  | .idleDrop dom => dom < 6
  | .pllLockLoss k => k < 39
  | .challengeRequest src => src.wf
  | .response src data => src.wf && data.length ≤ 4096
  | .challengeExpiry => true
  | .quoteNonce src data => src.wf && data.length ≤ 4096
  | .quoteReady => true
  | .getVersion => true
  | .getCapabilities => true
  | .negotiateAlgorithms _ => true
  | .getDigests => true
  | .getCertificate slot off len => inBits 8 slot && inBits 16 off && inBits 16 len
  | .challenge slot nonce => inBits 8 slot && nonce.length == 32
  | .getMeasurements index nonce => inBits 8 index && nonce.length == 32
  | .spdmUnsupported code => inBits 8 code
  | .updateErase src => src.wf
  | .updateImageWrite src kind offset data => src.wf && kind < 5 && inBits 32 offset && data.length ≤ 4096
  | .updateVerify src => src.wf
  | .updateCommit src => src.wf
  | .updateConfirm src => src.wf
  | .updateAbandon src => src.wf
  | .configBlobWrite src data => src.wf && inBits 32 data.length
  | .enrolWrite src data => src.wf && inBits 32 data.length
  | .overrideWrite src data => src.wf && inBits 32 data.length
  | .eventLogWrite die => die < 2
  | .eventsDropped die => die < 2
  | .faultClear src => src.wf
  | .stageStall w => w < 16384
  | .ringmasterWatchdog target => target < 3
  | .injectionArm src slot => src.wf && slot < 8
  | .injectionDisarm src slot => src.wf && slot < 8
  | .periodicInjection slot => slot < 8
  | .stageShutsItselfDown => true
  | .internalResetHoldEnd => true
  | .probeBlockReceived k sentAt => k < 2 && inBits 64 sentAt
  | .bar4Resize bytes => inBits 64 bytes
  | .directAccessRead fn offset len => fn < 16 && inBits 32 offset && (len == 4 || len == 8)
  | .bar2Read fn offset len => fn < 16 && inBits 32 offset && (len == 4 || len == 8)
  | .jtagInstruction code => inBits 8 code
  | .serviceRepairCompletes _ => true
  | .updateCommandEnd _ => true
  | .prefixClearingEnds => true
  | .imageRequestedAgain member hod => member < 256 && hod < 4096

end Sys2Proof
end

