-- ==== Sys2Proof/Safety.lean ====
section
/-! DEFINITION. What counts as a safe run, in the terms the claims use: the transitions of Table 0.5, the commands that
may cause them, and what holds between commands. -/

namespace Sys2Proof

/-- Does a command carry one dictionary write at most? A ring frame may carry several. -/
def Instr.oneWrite : Instr → Bool
  | .kimalFrame _ _ => false
  | _ => true

/-- The commands that may write 0x1011:00 (R7): the requests themselves and whatever carries a dictionary write. -/
def Instr.mayRequest : Instr → Bool
  | .requestRun _ | .requestDrain _ | .objectWrite _ _ _ _ _ | .stagingWrite _ _ _ _ | .mailboxDoorbell _ _
  | .kimalFrame _ _ | .dreq _ _ _ => true
  | _ => false

/-- The commands that may take the device out of FAULT_STOP (Table 0.5): a grant, reset, and the rails going down. -/
def Instr.leavesFault : Instr → Bool
  | .grantReceived _ _ _ _ _ | .moduleResetRelease | .powerDisable _ | .thermTripShutdown | .stageShutsItselfDown => true
  | _ => false

/-- The commands of the module's pins, its stage, its reset and its test port, which act while the device is off or held
in reset too. -/
def Instr.ofPins : Instr → Bool
  | .inputTurnOn _ | .powerEnable | .powerDisable _ | .powerOffTimeEnd | .moduleResetAssert _ | .moduleResetRelease
  | .internalResetHoldEnd | .perstAssert | .perstDeassert _ | .thermTripShutdown | .stageShutsItselfDown
  | .jtagInstruction _ => true
  | _ => false

/-- The commands that may change the device state by an effect of their own; the others change it only by an event whose
outcome is FAULT_STOP. -/
def Instr.movesDev : Instr → Bool
  | .powerDisable _ | .moduleResetAssert _ | .moduleResetRelease | .bootComplete _ | .thermTripShutdown
  | .requestRun _ | .requestDrain _ | .drainComplete | .grantReceived _ _ _ _ _ | .rejoinPullDone
  | .aliasWrite _ _ _ _ | .stageShutsItselfDown | .internalResetHoldEnd | .dreq _ _ _
  | .objectWrite _ _ _ _ _ | .stagingWrite _ _ _ _ | .mailboxDoorbell _ _ | .kimalFrame _ _ => true
  | _ => false

end Sys2Proof

namespace Sys2Proof.Machine

/-- A state change that Table 0.5 allows (R7), or none. -/
def devStep (a b : Dev) : Bool :=
  a == b ||
  match a, b with
  | .off, .boot => true
  | .boot, .ready => true
  | .boot, .standby => true
  | .standby, .boot => true
  | .ready, .run => true
  | .run, .drain => true
  | .drain, .ready => true
  | .faultStop, .rejoin => true
  | .ready, .rejoin => true
  | .rejoin, .ready => true
  | .faultStop, .boot => true
  | .off, .faultStop => false
  | _, .faultStop => true
  | _, .off => true
  | _, _ => false

/-- May a command cause a state change (the causes of Table 0.5)? Any command may meet an event whose outcome is
FAULT_STOP. -/
def mayCause (i : Instr) (a b : Dev) : Bool :=
  a == b || b == .faultStop ||
  match i, a, b with
  | .moduleResetRelease, _, .boot | .internalResetHoldEnd, .off, .boot => true
  | .bootComplete _, .boot, .ready | .bootComplete _, .boot, .standby => true
  | .drainComplete, .drain, .ready => true
  | .grantReceived _ _ _ _ _, .faultStop, .rejoin | .grantReceived _ _ _ _ _, .ready, .rejoin => true
  | .rejoinPullDone, .rejoin, .ready => true
  | .powerDisable _, _, .off | .moduleResetAssert _, _, .off | .thermTripShutdown, _, .off => true
  | .stageShutsItselfDown, _, .off => true
  | i, .ready, .run | i, .run, .drain => i.mayRequest
  | _, _, _ => false

/-- Between commands no FAULT_STOP is outstanding: the command that raised it has taken the device there. -/
abbrev State.settled (s : State) : Prop := s.core.faultReq = none

/-- The device is powered, and MOD_RST_N is released (R12, R464). -/
abbrev State.awake (s : State) : Prop := s.held = false

/-- The state with a core and the same device state and queue. -/
def State.withCore (s : State) (c : Core) : State := { s with core := c }

/-- n idle nanoseconds. -/
def idleFor : Nat → Core → Core
  | 0, c => c
  | n + 1, c => idleFor n (tickCore c)

/-- The module's supplies are ready but for what the command at hand brings: no off time runs, no thermal trip stands,
and PWR_GOOD is not yet released (R467, R468, R470). -/
def Pins.ready (p : Pins) : Bool := !p.offTime && !p.thermTrip && !p.pwrGood

/-- The core of a module whose main rails are down (R12): what survives is the module itself, with what a flash write
that was running leaves in it (R426), its pins, what the host holds (its memory, and what it brings to the PCIe link),
and the model's counter of free values. -/
def Core.lost (c : Core) (p : Pins) : Core :=
  { free := c.cutWrites.free, module_ := c.cutWrites.module_, pins := p, mem := { host := c.mem.host }
    links := { link := c.links.link } }

/-- No write of a flash record runs (R426, R441). -/
abbrev Core.flashQuiet (c : Core) : Prop := c.module_.writes = [] ∧ c.ctlRuns = false

/-- Does a queue run with its ring in host memory (R356)? -/
def Core.hostRing (c : Core) (q : Nat) : Bool := (c.queue q).state == 1 && bitAt (c.obj (0xA100 + q) 3) 1

/-- Nothing stored is in error and no injection is armed: reads and writes meet what memory holds. -/
abbrev Core.clean (c : Core) : Prop := c.inj = [] ∧ c.mem.injSyms = [] ∧ c.mem.tsFlips = [] ∧ c.mem.poison = []

/-- The regions that units read for themselves, and P0, hold no poison (R325, R333). -/
abbrev Core.unpoisoned (c : Core) : Prop :=
  ∀ r ∈ [sysRingmaster, sysExchange, sysQueues, sysAllocator], c.sysPoison r = none

/-- The host escalates no event (R452). -/
def Core.plainEvents (c : Core) : Prop := ∀ code, c.escClass code = 0

/-- Every access within [a, a + n) is served (R318). -/
def Core.served (c : Core) (a n : Nat) : Prop := ∀ b m, a ≤ b → b + m ≤ a + n → c.lbad b m = none

/-- A descriptor that a stage may issue: fetched, of this type, its wait over, its header good (R359). -/
abbrev State.issues (s : State) (d : Nat) (x : Desc) (ty : Nat) : Prop :=
  s.core.desc? d = some x ∧ s.core.canIssue s.dev d x [ty] = true ∧ s.core.headerOk x = true

/-- The descriptor is there and its work is done. -/
def Core.isDone (c : Core) (d : Nat) : Prop := ∃ x, c.desc? d = some x ∧ x.issued = true ∧ x.done = true

/-- A context's list is served: its header, and the entries of every layer for blocks [b0, b1) (R309, R318). -/
def Core.listServed (c : Core) (list b0 b1 : Nat) : Prop :=
  c.served list 64 ∧ ∀ r ∈ c.listRanges list b0 b1, c.served r.2.1 r.2.2

/-- Bytes of a logit of a format. -/
def logitBytes (fmt : Nat) : Nat := if fmt = 0x08 then 2 else 4

/-- A row of v logits as memory holds it (R225). -/
def Core.logitsAt (c : Core) (fmt v a : Nat) : List Num :=
  (unpack (8 * logitBytes fmt) v (c.lread a (v * logitBytes fmt))).map fun q => if logitBytes fmt = 2 then bf16 q else f32 q

/-- The descriptor's operand list as memory holds it (R131). -/
def Core.bwdList (c : Core) (x : Desc) : List BEnt := bwdEnts (c.lread (x.f 16 8) 256)

/-- A backward descriptor that its group may begin (R128, R129), that passes its checks (R132), and whose list and
operands memory serves: operands in element formats, every address a plain one, no expansion table. -/
def Core.bwdReady (c : Core) (x : Desc) : Prop :=
  c.bwdFree x = true ∧ x.rc = false ∧ fld (x.f 29 1) 5 4 ≠ 3 ∧ x.f 16 8 % 64 = 0 ∧ x.f 16 8 < 2 ^ 63 ∧
  (knownFormat (x.f 28 1) = true ∨ x.f 28 1 = 0 ∧ (x.ty = 0x52 ∨ x.ty = 0x56)) ∧ c.served (x.f 16 8) 256 ∧
  firstBad (c.bwdChecks x (c.bwdList x)) = none ∧ firstBad (c.hodChecks x) = none ∧
  (∀ e ∈ c.bwdList x, e.addr < 2 ^ 63 ∧ e.isElem = true) ∧ (bEnt (c.bwdList x) 15).addr = 0 ∧
  ∀ o ∈ x.bOpnds (c.bwdList x), c.served (bEnt (c.bwdList x) o.1).addr
    (ceilDiv (o.2.1 * o.2.2 * fmtBits (bEnt (c.bwdList x) o.1).code) 8)

/-- Such a descriptor with its operands as memory holds them. -/
def Core.bwdJob (c : Core) (d : Nat) (x : Desc) : BJob :=
  { d := d, x := x, src := c.bwdSrc x, es := c.bwdList x, arrs := c.bwdMembers x
    ms := (x.bOpnds (c.bwdList x)).map fun o =>
      (c.matOf (c.bwdOpnd x (c.bwdList x) o) [] (c.readRows (c.bwdOpnd x (c.bwdList x) o) [] x.nfp).1).1 }

/-- An event of a code stands in the FIFO of a die, or that FIFO is full and dropped it (R447). -/
def Core.logged (c : Core) (code : Nat) : Prop :=
  ∃ (e : EventRec) (die : Nat), die < 2 ∧ e.code = code ∧
    (e ∈ KMap.getD c.log.fifo die [] ∨ 512 ≤ (KMap.getD c.log.fifo die []).length)

/-- The device's own flits of a class that wait at a port, oldest first; those of class 0 with the ones that wait for
admission (R345). -/
def Port.line (p : Port) (k : Nat) : List Flit :=
  KMap.getD p.txq k [] ++
    (if k = 0 then (p.offers.filter fun o => o.flit.cls == 0 && !o.fwd).map (·.flit) else [])

/-- A class-0 message to a member was handed over, or waits for a tag (R364). -/
def Core.sentTo (c : Core) (m : Nat) (x : XCmd) : Prop := (m, x) ∈ c.xch.sent ∨ (m, x) ∈ c.xch.waits0

end Sys2Proof.Machine
end

