-- ==== Sys2Proof/Certificates/Slice0/Obligations.lean ====
section
/-! DEFINITION. What the model is held to: one proposition for each claim, for the provers. -/

open Sys2Proof Sys2Proof.Machine

/-! ### The step, reset and the whole machine -/

/-- A step takes the command at the front of the queue and runs it with the queue's rest (the block's frame). A
command changes nothing in the queue of commands that wait: a step takes the front one and adds none. -/
def Obligations.StepRunsTheFront : Prop :=
  (∀ (s : State) (i : Instr) (rest : List Instr),
     step { s with pending := i :: rest } = exec i { s with pending := rest }) ∧
  (∀ (s t : State) (i : Instr) (rest : List Instr), s.pending = i :: rest → step s = .next t → t.pending = rest)

/-- With no command waiting one nanosecond passes (the model's choice, log 2): the timebase counts 1, and nothing else
changes while no offset is being slewed. R394 slews an offset at 100 ppm at most; that the timebase gains, or loses,
exactly one nanosecond in each 10,000 is the model's choice (log 2). -/
def Obligations.IdleStepsKeepTime : Prop :=
  (∀ s : State, s.pending = [] → (s.dev ≠ .off ∨ s.core.pins.pwrGood = true) → s.core.dict.steer = 0 →
     step s = .next (s.withCore { s.core with now := (s.core.now + 1) % 2 ^ 64 })) ∧
  (∀ c : Core, c.dict.slewAcc = 0 →
     (0 < c.dict.steer →
       (idleFor 10000 c).now = (c.now + 10001) % 2 ^ 64 ∧
       (idleFor 10000 c).dict.steer = c.dict.steer - 1) ∧
     (c.dict.steer < 0 →
       (idleFor 10000 c).now = (c.now + 9999) % 2 ^ 64 ∧
       (idleFor 10000 c).dict.steer = c.dict.steer + 1))

/-- After reset: BOOT, no command waits, every object at its default, no byte of memory listed, no step open, no event
written. That the state after reset is the one right after the release of MOD_RST_N is the model's choice
(log 1: DESIGN CHOICE). -/
def Obligations.ResetState : Prop :=
  State.reset.dev = .boot ∧ State.reset.pending = [] ∧ State.reset.core.dict.objs = [] ∧
  (∀ i sub, State.reset.core.obj i sub = objDefault i sub) ∧ State.reset.core.mem.mem = [] ∧
  (∀ a n, Mem.read State.reset.core.mem.mem a n = List.replicate n 0) ∧
  State.reset.core.step = 0xFFFFFFFF ∧ State.reset.core.log.written = 0 ∧ State.reset.core.inj = [] ∧
  State.reset.core.links.descs = [] ∧ State.reset.settled

/-- R7: the device changes state only along the transitions of Table 0.5 and by their causes, whatever the command; a
ring frame, which may carry several requests, moves it along two of them at most. -/
def Obligations.OnlyTable05Transitions : Prop :=
  ∀ (s t : State) (i : Instr), s.settled → exec i s = .next t →
    let moves (a b : Dev) : Prop := devStep a b = true ∧ mayCause i a b = true
    (i.oneWrite = true → moves s.dev t.dev) ∧ ∃ m, moves s.dev m ∧ moves m t.dev

/-- R7: RUN begins only from READY; DRAIN ends in READY only when what was doorbelled before it has left; BOOT ends in
READY only where nothing failed verification and every stack trained; FAULT_STOP ends only by a grant of rejoin once
it is cleared, by reset, or with the rails; and REJOIN begins only for a member that asked, from FAULT_STOP or where
no step has been opened since BOOT. -/
def Obligations.TransitionsAreGuarded : Prop :=
  ∀ (s t : State) (i : Instr), s.settled → exec i s = .next t → t.dev ≠ s.dev →
    (t.dev = .run → s.dev = .ready ∧ i.mayRequest = true) ∧
    (s.dev = .drain → t.dev = .ready → s.core.drained = true) ∧
    (s.dev = .boot → t.dev = .ready →
      ∃ f, i = .bootComplete f ∧ untrained f = [] ∧
        (({ s.core with mem := { s.core.mem with lanes := f.lanes } } : Core).runBoot f.romsAgree).sec.bootFail = 0) ∧
    (s.dev = .faultStop → i.leavesFault = true) ∧
    (t.dev = .rejoin → s.core.xch.asked = true ∧
      ((s.dev = .faultStop ∧ s.core.log.cleared = true) ∨
        (s.dev = .ready ∧ s.core.stp.openedSinceBoot = false)))

/-- No step leaves a FAULT_STOP outstanding: an event of that outcome has taken the device there by the end of its
command (R9, R451). -/
def Obligations.StepKeepsSettled : Prop :=
  ∀ s t : State, s.settled → step s = .next t → t.settled

/-- No command faults, and the only refusal is that of the vendor's JTAG instructions. R12, R464: while the device is
off or MOD_RST_N is low, only what comes by the pins, the stage, reset and the test port has an effect. -/
def Obligations.OnlyVendorRefusals : Prop :=
  ∀ (s : State) (i : Instr),
    (∀ e, exec i s ≠ .fault e) ∧
    (∀ r, exec i s = .refused r → s.core.sec.level = 3 ∧ r = .vendorJtag ∧ ∃ n, i = .jtagInstruction n) ∧
    (s.held = true → i.ofPins = false → exec i s = .next s)

/-! ### Pins, power and boot -/

/-- R467: with the input past 39 V, PWR_EN high and nothing holding the stage off, the rails come up and PWR_GOOD is
released, whichever of the two comes last; a reset already released is then held internally. Otherwise only the pin
changes. R468: when the 100 ms off time ends, a PWR_EN raised inside it takes effect; with PWR_EN low only the off
time ends. -/
def Obligations.RailsComeUp : Prop :=
  (∀ (s : State) (mv : Nat), s.settled → s.dev = .off → 39000 ≤ mv →
     (s.core.pins.ready = true → s.core.pins.pwrEn = true →
       exec (.inputTurnOn mv) s = .next { s with core := { s.core with pins := { s.core.pins with
         inputMv := mv, inputOk := true, pwrGood := true, goodAt := s.core.now, hold := s.core.pins.modRstN } } }) ∧
     (s.core.pins.ready = true → s.core.pins.inputOk = true →
       exec .powerEnable s = .next { s with core := { s.core with pins := { s.core.pins with
         pwrEn := true, pwrGood := true, goodAt := s.core.now, hold := s.core.pins.modRstN } } }) ∧
     (s.core.pins.ready = false ∨ s.core.pins.inputOk = false →
       exec .powerEnable s = .next { s with core := { s.core with pins := { s.core.pins with pwrEn := true } } })) ∧
  (∀ s : State, s.settled → s.dev = .off → s.core.pins.thermTrip = false → s.core.pins.pwrGood = false →
     s.core.pins.inputOk = true →
     (s.core.pins.pwrEn = true → exec .powerOffTimeEnd s = .next { s with core := { s.core with pins :=
       { s.core.pins with offTime := false, pwrGood := true, goodAt := s.core.now, hold := s.core.pins.modRstN } } }) ∧
     (s.core.pins.pwrEn = false → exec .powerOffTimeEnd s = .next { s with core := { s.core with pins :=
       { s.core.pins with offTime := false } } }))

/-- R468, R470, R12: when PWR_EN falls, or the input falls below 38 V, the device enters OFF from any state and
nothing on the module holds state; the stage stays off for its 100 ms. So it does, without the 100 ms, when the stage
shuts the rails down. A PWR_EN that was low already does not fall. Where no flash write runs the module keeps its
flash as it is. -/
def Obligations.PowerDownLosesAll : Prop :=
  ∀ (s : State) (mv : Nat), s.settled →
    let down : Pins := { s.core.pins with jtag := 1, pwrGood := false, low := [], hold := false }
    let off : Pins := { down with thermTrip := false, offTime := true }
    (s.core.flashQuiet → ∀ p, (s.core.lost p).module_ = s.core.module_ ∧ (s.core.lost p).free = s.core.free ∧
      (s.core.lost p).dict.objs = [] ∧ (s.core.lost p).mem.mem = []) ∧
    (s.core.pins.pwrEn = true → exec (.powerDisable none) s = .next
      { dev := .off, core := s.core.lost { off with pwrEn := false }, pending := s.pending }) ∧
    (s.core.pins.pwrEn = false → exec (.powerDisable none) s = .next s) ∧
    (s.core.pins.inputOk = true → mv < 38000 → exec (.powerDisable (some mv)) s = .next
      { dev := .off, core := s.core.lost { off with inputMv := mv, inputOk := false }, pending := s.pending }) ∧
    (s.core.pins.thermTrip = true → exec .thermTripShutdown s = .next
      { dev := .off, core := s.core.lost down, pending := s.pending }) ∧
    (s.core.pins.pwrGood = true → exec .stageShutsItselfDown s = .next
      { dev := .off, core := s.core.lost down, pending := s.pending })

/-- R469: MOD_RST_N low for at least 10 µs leaves the rails up in SERVICE_STANDBY and FAULT_STOP; in every other state
the rails go down and come up again on their own, and the device is in OFF and has lost everything. A pulse shorter
than 1 µs is ignored; one in between may be. R467, R469: the release of MOD_RST_N begins BOOT when PWR_GOOD has stood
for 1 ms, or from FAULT_STOP and SERVICE_STANDBY; released earlier, the module holds reset internally until that
millisecond has passed. -/
def Obligations.ModuleReset : Prop :=
  (∀ (s : State) (ns : Nat), s.settled →
     (ns < 1000 → exec (.moduleResetAssert ns) s = .next s) ∧
     (1000 ≤ ns → ns < 10000 → ∃ t, exec (.moduleResetAssert ns) s = .next t ∧ t.pending = s.pending ∧
       (t.dev = s.dev ∨ t.dev = .off)) ∧
     (10000 ≤ ns → s.dev = .standby ∨ s.dev = .faultStop → exec (.moduleResetAssert ns) s = .next
       { s with core := { s.core with pins := { s.core.pins with modRstN := false, hold := false } } }) ∧
     (10000 ≤ ns → s.dev ≠ .standby → s.dev ≠ .faultStop →
       let p := s.core.pins
       let up := p.inputOk && p.pwrEn && !p.offTime && !p.thermTrip
       let p' := { p with jtag := 1, modRstN := false, hold := false, low := [], pwrGood := up
                          goodAt := if up then 0 else p.goodAt }
       exec (.moduleResetAssert ns) s = .next { dev := .off, core := s.core.lost p', pending := s.pending })) ∧
  (∀ s : State, s.settled →
     let boots (p : Pins) : State := { dev := .boot, core := (s.core.lost p).pcieUp, pending := s.pending }
     (s.dev = .off → s.core.pins.pwrGood = true → s.core.pins.goodAt + 1000000 ≤ s.core.now →
       exec .moduleResetRelease s = .next (boots { s.core.pins with modRstN := true })) ∧
     (s.dev = .off → s.core.pins.pwrGood = true → s.core.now < s.core.pins.goodAt + 1000000 →
       exec .moduleResetRelease s = .next
         { s with core := { s.core with pins := { s.core.pins with modRstN := true, hold := true } } }) ∧
     (s.dev = .faultStop ∨ s.dev = .standby → s.core.pins.modRstN = false →
       exec .moduleResetRelease s = .next (boots { s.core.pins with modRstN := true })) ∧
     (s.dev = .off → s.core.pins.pwrGood = true → s.core.pins.hold = true → s.core.pins.modRstN = true →
       exec .internalResetHoldEnd s = .next (boots { s.core.pins with hold := false })))

/-- R430, Table 0.5: the boot sequence completes in READY, with the time of each step, or in SERVICE_STANDBY where
verification fails, with no port up (R366). R133, R204:
an array or an engine that fails its self-test is cleared from its availability mask. R327: a stack that fails training
takes the device to FAULT_STOP. R432: ROMs that disagree fail the verification. -/
def Obligations.BootEnds : Prop :=
  ∀ (s : State) (f : BootFinds), s.awake → s.dev = .boot →
    let b := ({ s.core with mem := { s.core.mem with lanes := f.lanes } } : Core).runBoot f.romsAgree
    b.faultReq = none →
    (b.sec.bootFail = 0 → untrained f = [] →
      ∃ t, exec (.bootComplete f) s = .next t ∧ t.dev = .ready ∧ t.pending = s.pending ∧
        (∀ k, k < f.times.length → k < 11 → t.core.obj 0xC003 (k + 1) = f.times.getD k 0) ∧
        (∀ k, k < 34 → t.core.obj (0x2300 + k) 1 = 1) ∧ t.core.mem.mem = s.core.mem.mem ∧
        (∀ n ∈ f.arrays, bitAt (t.core.obj 0x5002 0) n = false) ∧
        ∀ n ∈ f.engines, bitAt (t.core.obj 0x6001 0) n = false) ∧
    (b.sec.bootFail = 0 → untrained f ≠ [] → b.plainEvents →
      ∃ t, exec (.bootComplete f) s = .next t ∧ t.dev = .faultStop ∧ t.pending = s.pending) ∧
    (b.sec.bootFail ≠ 0 → b.plainEvents →
      ∃ t, exec (.bootComplete f) s = .next t ∧ t.dev = .standby ∧ t.pending = s.pending ∧
        (∀ k, k < 6 → (t.core.port k).state ≠ 2 ∧ (t.core.port k).state ≠ 3 ∧ (t.core.port k).state ≠ 4) ∧
        (∀ dom, dom < 4 → KMap.getD t.core.pow.targets dom 750 = 0)) ∧
    (f.romsAgree = false → b.sec.bootFail ≠ 0)

/-- R469, R363: PERST_N, or the loss of the PCIe link, takes the link down and leaves the device state alone; no queue
stops where none runs with its ring in host memory. R351, R431: deasserted, PERST_N brings the link up as the host
trains it, in every state; which generations, widths and functions a host brings is what the command says (the model's
choice, log 18). R464: JTAG answers IDCODE, BYPASS and boundary scan, under the codes of log 19; every other
instruction acts as BYPASS, unless VENDOR unlock is open: then the manual gives it no effect, and the model refuses
it. R12: with the rails down none is held. -/
def Obligations.PerstAndJtag : Prop :=
  (∀ (s : State) (h : HostLink), s.settled → s.awake →
     let down (c : Core) : Core :=
       (({ c with links := { c.links with link := none } } : Core).setObj 0xA001 0 0).setObj 0xA003 0 0
     ((∀ p ∈ s.core.links.queues, s.core.hostRing p.1 = false) →
       exec .perstAssert s = .next { s with core := down (s.core.setPins fun p => { p with perstN := false }) } ∧
       exec .pcieLinkDown s = .next { s with core := down s.core }) ∧
     exec (.perstDeassert h) s = .next { s with core :=
       (({ s.core.setPins (fun p => { p with perstN := true }) with
           links := { s.core.links with link := some h } } : Core).setObj 0xA001 0
         (h.gen + 16 * h.width + if h.flit then 512 else 0)).setObj 0xA003 0 h.vfs }) ∧
  (∀ (s : State) (code : Nat), s.settled →
     (s.core.pins.pwrGood = true → code ≤ 2 → exec (.jtagInstruction code) s =
       .next { s with core := { s.core with pins := { s.core.pins with jtag := code } } }) ∧
     (s.core.pins.pwrGood = true → 2 < code → s.core.sec.level ≠ 3 → exec (.jtagInstruction code) s =
       .next { s with core := { s.core with pins := { s.core.pins with jtag := 1 } } }) ∧
     (s.core.pins.pwrGood = false → code ≤ 2 → exec (.jtagInstruction code) s = .next s) ∧
     (2 < code → s.core.sec.level = 3 → exec (.jtagInstruction code) s = .refused .vendorJtag))

/-! ### Device state requests, doorbells, queues and tallies -/

/-- R7, R8: a request for RUN is granted in READY and one for DRAIN in RUN; every other is refused with status DENIED
and changes nothing but the status of the last access. R8: a request that meets an event whose outcome is FAULT_STOP is
judged by that state, and refused. R10, R11, R334: once every descriptor doorbelled before the
request has left, DRAIN ends in READY, with the write-combining buffer written back, no context STEPPING, and memory
as it was. -/
def Obligations.RunAndDrainRequests : Prop :=
  (∀ (s : State) (src : Src), s.settled → s.awake → s.core.unpoisoned →
     (s.dev = .ready → s.core.reach .ready src 0x1011 0 true = true → exec (.requestRun src) s = .next { s with
       dev := .run, core := ({ s.core with log := { s.core.log with onceRun := [] } }).noteAnswer src 0x1011 0 stOk }) ∧
     (s.dev ≠ .ready ∨ s.core.reach s.dev src 0x1011 0 true = false → exec (.requestRun src) s = .next { s with
       core := s.core.noteAnswer src 0x1011 0 stDenied }) ∧
     (s.dev = .run → s.core.reach .run src 0x1011 0 true = true → exec (.requestDrain src) s = .next { s with
       dev := .drain, core := s.core.markEarly.writeBackAll.noteAnswer src 0x1011 0 stOk }) ∧
     (s.dev ≠ .run ∨ s.core.reach s.dev src 0x1011 0 true = false → exec (.requestDrain src) s = .next { s with
       core := s.core.noteAnswer src 0x1011 0 stDenied })) ∧
  (∀ (src : Src) (dev : Dev) (c : Core), c.faultReq ≠ none → c.sysPoison sysRingmaster = none →
     requestRun src dev c = (dev, c.noteAnswer src 0x1011 0 stDenied) ∧
     requestDrain src dev c = (dev, c.noteAnswer src 0x1011 0 stDenied)) ∧
  (∀ s : State, s.settled → s.awake → s.dev = .drain → s.core.drained = true →
     ∃ t, exec .drainComplete s = .next t ∧ t.dev = .ready ∧ t.core.mem.wcb = [] ∧
       (∀ p ∈ t.core.roll.ctxs, p.2.state ≠ 2) ∧ t.core.mem.mem = s.core.mem.mem ∧
       t.core.links = s.core.links ∧ t.pending = s.pending)

/-- R357: a doorbell that its function owns is accepted when the device is in RUN, the queue is RUNNING, the new tail
is no further ahead of the head than the ring is long and not behind the tail; any other leaves the tail, is counted
twice, and logs event 0xA001. R353: a write at any other offset, or at a page of another function, is dropped and
counted on 0xA880:08. -/
def Obligations.DoorbellRule : Prop :=
  ∀ (s : State) (fn q off tail : Nat), s.settled → s.awake →
    (off ≠ 0 ∨ s.core.ownsQueue fn q = false →
      exec (.doorbell fn q off tail) s = .next (s.withCore ((s.core.tlp fn).bump 0xA880 8 1))) ∧
    (s.core.ownsQueue fn q = true →
    let c := s.core.tlp fn
    let x := c.queue q
    let accepted : Prop := s.dev = .run ∧ x.state = 1 ∧ (tail + 2 ^ 32 - x.head) % 2 ^ 32 ≤ c.obj (0xA100 + q) 2 ∧
      (tail + 2 ^ 32 - x.tail) % 2 ^ 32 < 2 ^ 31
    (accepted → exec (.doorbell fn q 0 tail) s =
      .next (s.withCore ((c.setQueue q { x with tail := tail % 2 ^ 32 }).bump 0xA880 1 1))) ∧
    (¬accepted → ∃ t : Core, exec (.doorbell fn q 0 tail) s = .next (finish s.dev t s.pending) ∧ t.queue q = x ∧
      t.obj (0xA100 + q) 0xB = min (c.obj (0xA100 + q) 0xB + 1) (objMax (0xA100 + q) 0xB) ∧
      t.obj 0xA880 2 = min (c.obj 0xA880 2 + 1) (objMax 0xA880 2) ∧ t.logged 0xA001 ∧ t.mem = c.mem ∧
      t.links.tallies = c.links.tallies))

/-- R353, R360: a write of VALUE sets a tally, a write of ADD adds to it modulo 2^32 and is counted; a function
reaches its own range, the PF every tally. An access to another tally changes none and counts on 0xA880:08. R353: BAR2
reads answer a queue's TAIL, HEAD and state and a tally's value in the width asked for; a read that reaches nothing
answers zeros and counts on 0xA880:08. -/
def Obligations.TalliesAndReads : Prop :=
  (∀ (s : State) (fn t v : Nat), s.settled → s.awake →
     let c := s.core.tlp fn
     (s.core.reachTally fn t = true →
       exec (.tallySet fn t v) s = .next { s with core := c.setTally t v } ∧
       (c.setTally t v).tally t = v % 2 ^ 32 ∧ (∀ u, u ≠ t → (c.setTally t v).tally u = s.core.tally u) ∧
       exec (.tallyAdd fn t v) s = .next { s with core := (c.setTally t (c.tally t + v)).bump 0xA880 7 1 }) ∧
     (s.core.reachTally fn t = false →
       exec (.tallySet fn t v) s = .next { s with core := c.bump 0xA880 8 1 } ∧
       exec (.tallyAdd fn t v) s = .next { s with core := c.bump 0xA880 8 1 })) ∧
  (∀ (s : State) (fn q len : Nat), s.settled → s.awake →
     let c := s.core.tlp fn
     (s.core.ownsQueue fn q = true →
       exec (.bar2Read fn (4096 * q) len) s = .next { s with core := c.hostAnswer (toLE len (c.queue q).tail) } ∧
       exec (.bar2Read fn (4096 * q + 8) len) s = .next { s with core := c.hostAnswer (toLE len (c.queue q).head) } ∧
       exec (.bar2Read fn (4096 * q + 16) len) s =
         .next { s with core := c.hostAnswer (toLE len (c.queue q).state) }) ∧
     (∀ t, s.core.reachTally fn t = true →
       exec (.bar2Read fn (0x100000 + 16 * t) len) s = .next { s with core := c.hostAnswer (toLE len (c.tally t)) }) ∧
     (q < 256 → s.core.ownsQueue fn q = false → exec (.bar2Read fn (4096 * q) len) s =
       .next { s with core := (c.hostAnswer (List.replicate len 0)).bump 0xA880 8 1 }))

/-- R354, Table 11.8: the host resizes BAR4 to a power of two from 1 to 64 GiB, and to nothing else; in BOOT it is
told to retry (R431). R354: a BAR4 access through a window of this member in a served state reads the bytes of device
memory there, or writes them; the address is the window's base plus the offset in it. -/
def Obligations.Bar4Windows : Prop :=
  (∀ (s : State) (k : Nat), s.settled → s.awake →
     (s.dev ≠ .boot → 30 ≤ k → k ≤ 36 → exec (.bar4Resize (2 ^ k)) s =
       .next { s with core := { s.core with links := { s.core.links with bar4Bytes := 2 ^ k } } }) ∧
     (s.dev ≠ .boot → ∀ n, (∀ j, 30 ≤ j → j ≤ 36 → n ≠ 2 ^ j) → exec (.bar4Resize n) s = .next s) ∧
     (s.dev = .boot → ∀ n, exec (.bar4Resize n) s =
       .next { s with core := { s.core with links := { s.core.links with retries := s.core.links.retries + 1 } } })) ∧
  (∀ (s : State) (off len : Nat) (bs : List Byte), s.settled → s.awake → s.core.inj = [] → apertureServed s.dev = true →
     let c := s.core
     let size := c.links.bar4Bytes / 16
     let w := off / size
     let a := c.obj (0xA010 + w) 1 + off % size
     w < 16 → c.obj (0xA010 + w) 1 % size = 0 → c.obj (0xA010 + w) 2 = 0xFF ∨ c.obj (0xA010 + w) 2 = c.me →
     (c.plainBad a bs.length = none →
       ∃ t, exec (.bar4Access off len (some bs)) s = .next t ∧ t.dev = s.dev ∧
         ∀ x, Mem.get t.core.mem.mem x =
           if a ≤ x ∧ x < a + bs.length then bs.getD (x - a) 0 else Mem.get s.core.mem.mem x) ∧
     (c.plainBad a len = none → (c.touch a len).poisoned a len = false → (c.touch a len).faultReq = none →
       exec (.bar4Access off len none) s =
         .next { s with core := (c.touch a len).hostAnswer ((c.touch a len).bytes a len) }))

/-- R363: an abort sends a RUNNING or STOPPED queue to ABORTING, with the event and the head kept, and removes its
descriptors that have not issued; the removal done, the head is the tail and the queue is STOPPED; a resume lets it
run again. Any other queue state, or a source that does not reach the object, is answered DENIED and nothing changes.
R355, R363: a function-level reset aborts the function's queues, and every virtual function's when the physical
function is reset, which then enables none; in BOOT it is told to retry (R431); when the PCIe link goes down the
queues with host rings stop, and no others. -/
def Obligations.QueuesAbortAndStop : Prop :=
  (∀ (s : State) (src : Src) (q : Nat), s.settled → s.awake → s.core.unpoisoned → q < 256 →
     let x := s.core.queue q
     let may := s.core.reach s.dev src (0xA100 + q) 9 true
     (may = true → x.state = 1 ∨ x.state = 2 → s.core.escClass 0xA007 ≠ 3 →
       ∃ t, exec (.queueAbort src q) s = .next t ∧ t.dev = s.dev ∧ t.pending = s.pending ∧
         (t.core.queue q).state = 3 ∧ (t.core.queue q).lastEvent = 0xA007 * 2 ^ 48 + x.head ∧
         t.core.links.descs = s.core.links.descs.filter (fun p => !(p.2.queue == q && !p.2.issued)) ∧
         (∀ r, r ≠ q → t.core.queue r = s.core.queue r) ∧ t.core.mem = s.core.mem ∧
         t.core.links.tallies = s.core.links.tallies ∧ t.core.dict.lastStatus = stOk) ∧
     (may = false ∨ (x.state ≠ 1 ∧ x.state ≠ 2) →
       exec (.queueAbort src q) s = .next (s.withCore (s.core.answer src (0xA100 + q) 9 stDenied))) ∧
     (x.state = 3 → s.core.escClass 0xA006 ≠ 3 →
       ∃ t, exec (.abortRemovalDone q) s = .next t ∧ t.dev = s.dev ∧ t.pending = s.pending ∧
         (t.core.queue q).state = 2 ∧ (t.core.queue q).head = x.tail ∧ (t.core.queue q).tail = x.tail ∧
         (t.core.queue q).lastEvent = 0xA006 * 2 ^ 48 + x.tail ∧ (∀ r, r ≠ q → t.core.queue r = s.core.queue r) ∧
         t.core.mem = s.core.mem ∧ t.core.links.descs = s.core.links.descs ∧
         t.core.links.tallies = s.core.links.tallies) ∧
     (may = true → x.state = 2 → exec (.queueResume src q) s = .next (s.withCore
       ((s.core.setQueue q { x with state := 1 }).answer src (0xA100 + q) 9 stOk))) ∧
     (may = false ∨ x.state ≠ 2 →
       exec (.queueResume src q) s = .next (s.withCore (s.core.answer src (0xA100 + q) 9 stDenied)))) ∧
  (∀ (s : State) (fn q : Nat), s.settled → s.awake → q < 256 →
     (s.dev = .boot → exec (.functionLevelReset fn) s = .next (s.withCore s.core.retry)) ∧
     (s.dev ≠ .boot → ∃ c : Core, exec (.functionLevelReset fn) s = .next (finish s.dev c s.pending) ∧
       (fn = 0 → c.obj 0xA003 0 = 0) ∧
       (s.core.queueFn q = fn ∨ (fn = 0 ∧ s.core.queueFn q ≠ 0) →
         (s.core.queue q).state = 1 ∨ (s.core.queue q).state = 2 → (c.queue q).state = 3) ∧
       (s.core.queueFn q ≠ fn → fn ≠ 0 ∨ s.core.queueFn q = 0 → c.queue q = s.core.queue q) ∧
       c.mem = s.core.mem ∧ c.links.tallies = s.core.links.tallies) ∧
     (∃ c : Core, exec .pcieLinkDown s = .next (finish s.dev c s.pending) ∧ c.obj 0xA001 0 = 0 ∧
       c.obj 0xA003 0 = 0 ∧
       (s.core.hostRing q = true → (c.queue q).state = 2 ∧ (c.queue q).head = (s.core.queue q).head) ∧
       (s.core.hostRing q = false → c.queue q = s.core.queue q) ∧
       c.mem = s.core.mem ∧ c.links.tallies = s.core.links.tallies ∧ c.links.descs = s.core.links.descs))

/-- R356, R358: the queue engine takes a queue in its turn: it reads the queue's next slot, up to 8 ahead of the head,
and the slot at the head, read now or before, becomes the next descriptor: the head moves on by 1. A slot lies in
device memory, or comes with the PCIe read's completion. A slot whose pending set is full stays at the head, read.
That a fetch out of turn changes nothing, and that the turn is a round over the queues with work, counted from the
queue taken last, is the model's choice (logs 3 and 151). -/
def Obligations.FetchTakesTheHead : Prop :=
  ∀ (s : State) (q : Nat), s.settled → s.awake → s.core.unpoisoned → runsWork s.dev = true →
    let x := s.core.queue q
    let plain (y : Desc) : Desc := { y with readyAt := none }
    let a := s.core.obj (0xA100 + q) 1 + 128 * ((x.head + x.fetched.length) % s.core.obj (0xA100 + q) 2)
    let room (c : Core) (bytes : List Byte) : Prop :=
      ∃ k, ({ queue := q, head := x.head, bytes := bytesAt bytes 0 128 } : Desc).pendingSet = some k ∧
        c.pendingIn k < 64
    let took (c : Core) (slots : List (Option (List Byte))) (h : Option (List Byte)) : Prop :=
      ∀ bytes rest, slots = some bytes :: rest → room c bytes →
        ∃ t, exec (.queueFetch q h) s = .next t ∧
          (t.core.desc? c.links.nextDesc).map plain =
            some { queue := q, head := x.head, bytes := bytesAt bytes 0 128, early := s.dev == .drain } ∧
          t.core.links.nextDesc = c.links.nextDesc + 1 ∧
          (∀ r, r < 256 → r ≠ q → (t.core.queue r).hasWork = true → t.core.fetchTurn q = false) ∧
          (t.core.queue q).head = (x.head + 1) % 2 ^ 32 ∧ (t.core.queue q).tail = x.tail ∧
          (t.core.queue q).state = 1 ∧ (t.core.queue q).fetched = rest ∧ t.core.mem = c.mem ∧ t.dev = s.dev ∧
          t.core.links.tallies = c.links.tallies ∧
          (∀ d, d ≠ c.links.nextDesc → (t.core.desc? d).map plain = (c.desc? d).map plain)
    (s.core.fetchTurn q = false → ∀ h, exec (.queueFetch q h) s = .next s) ∧
    (x.state = 1 → x.head ≠ x.tail → s.core.fetchTurn q = true →
      (x.canFetch = true → bitAt (s.core.obj (0xA100 + q) 3) 1 = false → s.core.plainBad a 128 = none →
        let c := s.core.touch a 128
        c.faultReq = none → c.poisoned a 128 = false → ∀ h, took c (x.fetched ++ [some (c.bytes a 128)]) h) ∧
      (x.canFetch = true → bitAt (s.core.obj (0xA100 + q) 3) 1 = true →
        (∀ b bs, took s.core (x.fetched ++ [some (b :: bs)]) (some (b :: bs))) ∧
        took s.core (x.fetched ++ [some (s.core.hostRead (s.core.queueFn q) a 128)]) (some [])) ∧
      (x.canFetch = false → ∀ h, took s.core x.fetched h ∧
        ∀ bytes rest k, x.fetched = some bytes :: rest →
          ({ queue := q, head := x.head, bytes := bytesAt bytes 0 128 } : Desc).pendingSet = some k →
          64 ≤ s.core.pendingIn k → ∃ t, exec (.queueFetch q h) s = .next t ∧
            t.core.queue q = { x with waitAt := some (x.waitAt.getD s.core.now) } ∧
            t.core.links.descs = s.core.links.descs))

/-- R362: the tally op writes its 64-bit value where its address is nonzero, in host memory with bit 63 set and else
in device memory, and its work is done; with address 0 it only signals. -/
def Obligations.TallyOpWrites : Prop :=
  ∀ (s : State) (d : Nat) (x : Desc), s.settled → s.awake → s.core.desc? d = some x →
    s.core.canIssue s.dev d x [0x01] = true → s.core.headerOk x = true →
    let a := x.f 16 8
    let v := bytesAt x.bytes 24 8
    let c := (s.core.setDesc d { x with issued := true }).noteIssue [4]
    (a = 0 → exec (.tallyOp d) s = .next (s.withCore (c.workDone d))) ∧
    (2 ^ 63 ≤ a → exec (.tallyOp d) s =
      .next (s.withCore ((c.hostStore (s.core.queueFn x.queue) (a % 2 ^ 63) v).workDone d))) ∧
    (0 < a → a < 2 ^ 63 → s.core.plainBad a 8 = none → s.core.inj = [] →
      exec (.tallyOp d) s = .next (s.withCore (((c.store a v).workDone d).owe c (.desc d))) ∧
      (c.store a v).mem.mem = Mem.write s.core.mem.mem a v)

/-- R362: a copy moves its bytes, and its work is done. Host to host it moves any length between ranges that do not
overlap; within device memory this says it of one that fits one chunk and meets no stored error. -/
def Obligations.CopyMovesBytes : Prop :=
  ∀ (s : State) (d e : Nat) (x : Desc), s.settled → s.awake → s.core.desc? d = some x →
    s.core.engineIdle e = true → s.core.canIssue s.dev d x [0x02] = true → s.core.headerOk x = true →
    let src := x.f 16 8
    let dst := x.f 24 8
    let len := x.f 32 8
    let fn := s.core.queueFn x.queue
    1 ≤ len → len ≤ 2 ^ 40 → (bytesAt x.bytes 43 21).all (· == 0) = true → src + len ≤ dst ∨ dst + len ≤ src →
    (x.f 40 1 = 1 → x.f 41 1 = 1 →
      ∃ t, exec (.copy d e) s = .next t ∧ t.dev = s.dev ∧ t.pending = s.pending ∧
        (∀ y, Mem.get (KMap.getD t.core.mem.host fn []) y =
          if dst ≤ y ∧ y < dst + len then Mem.get (KMap.getD s.core.mem.host fn []) (src + (y - dst))
          else Mem.get (KMap.getD s.core.mem.host fn []) y) ∧
        (∀ g, g ≠ fn → KMap.getD t.core.mem.host g [] = KMap.getD s.core.mem.host g []) ∧
        t.core.mem.mem = s.core.mem.mem ∧ t.core.links.tallies = s.core.links.tallies ∧
        t.core.desc? d = some { x with issued := true, done := true }) ∧
    (x.f 40 1 = 0 → x.f 41 1 = 0 → dst % 4096 + len ≤ 4096 → s.core.plainBad src len = none →
      s.core.plainBad dst len = none → s.core.poisoned src len = false → s.core.inj = [] →
      s.core.mem.injSyms = [] → s.core.mem.tsFlips = [] →
      ∃ t, exec (.copy d e) s = .next t ∧ t.dev = s.dev ∧ t.pending = s.pending ∧
        t.core.mem.mem = Mem.write s.core.mem.mem dst (s.core.bytes src len) ∧
        t.core.links.tallies = s.core.links.tallies ∧
        t.core.desc? d = some { x with issued := true, done := true })

/-- R361: a descriptor whose work is done completes once no converter holds a span of it, its deposits stand in the
send buffers (R278), no sample of it waits for its ledger (R214) and its writes have entered the write-combining
buffer (R312, R316), the CRCs of its scale headers, which it writes last, among them: it leaves, its queue counts it,
and unless NS is set its signal tally takes its increment, where its action has not given it already (R239, R246,
R260, R261); no other tally changes. R1, R474: a descriptor that is rejected leaves without its signal: no tally
changes, and memory keeps every byte but the output that the descriptor had written, which is undefined (R80). -/
def Obligations.CompletionAndRejection : Prop :=
  (∀ (s : State) (d : Nat) (x : Desc), s.settled → s.awake → s.core.inj = [] → s.core.desc? d = some x → x.issued = true →
     x.done = true → (∀ sp ∈ s.core.fwd.spans, sp.d ≠ d) → s.core.depositsWait d = false →
     (∀ e ∈ s.core.roll.ends, e.d ≠ d) → s.core.acknowledged (.desc d) = true →
     ((s.core.lastWrites d x).acknowledged (.desc d) = false →
       exec (.descriptorComplete d) s = .next (s.withCore (s.core.lastWrites d x))) ∧
     ((s.core.lastWrites d x).acknowledged (.desc d) = true →
       ∃ c : Core, exec (.descriptorComplete d) s = .next (s.withCore c) ∧ c.desc? d = none ∧
       c.tally x.sigTally = (if x.ns = true ∨ x.signalled = true then s.core.tally x.sigTally
         else (s.core.tally x.sigTally + x.inc) % 2 ^ 32) ∧
       (∀ t, t ≠ x.sigTally → c.tally t = s.core.tally t) ∧
       c.obj (0xA100 + x.queue) 0xC = min (s.core.obj (0xA100 + x.queue) 0xC + 1) (objMax (0xA100 + x.queue) 0xC))) ∧
  (∀ (c : Core) (d code source off val : Nat) (inj : Bool) (x : Desc), c.desc? d = some x →
     let r := c.reject d code source off val inj
     r.desc? d = none ∧ r.links.tallies = c.links.tallies ∧ r.step = c.step ∧ (x.wrote = [] → r.mem = c.mem) ∧
       ∀ a, (∀ p ∈ x.wrote, a < p.1 ∨ p.1 + p.2 ≤ a) → Mem.get r.mem.mem a = Mem.get c.mem.mem a)

/-! ### Forward tiles -/

/-- R76, R77, R72: a forward product whose checks pass starts its run: the descriptor is issued, its group runs it, and
the run holds the chains, plane count and the column blocks it has still to release. Said of element formats, without
tail and stash, in rollout; memory keeps every byte until a tile releases a token. -/
def Obligations.ForwardProductStarts : Prop :=
  ∀ (s : State) (d : Nat) (x : Desc) (gate : Bool), s.settled → s.awake → s.core.desc? d = some x →
    s.core.canIssue s.dev d x [if gate then 0x21 else 0x20] = true → s.core.headerOk x = true →
    let g := x.f 32 1 % 16
    s.core.groupFree d g = true → firstBad (s.core.forwardChecks x gate) = none →
    (blkOfCode (x.f 27 1)).isSome = false → (blkOfCode (x.f 28 1)).isSome = false →
    (blkOfCode (x.f 29 1)).isSome = false → x.f 33 1 % 16 = 0 → x.f 120 8 = 0 → x.f 30 1 = 0 →
    fld (x.f 32 1) 5 4 = 1 →
    ∃ c : Core, exec (if gate then .gatedFfProduct d else .forwardProduct d) s = .next (finish s.dev c s.pending) ∧
      c.desc? d = some { x with issued := true } ∧ KMap.get? c.fwd.active g = some d ∧ c.mem.mem = s.core.mem.mem ∧
      ∃ r ∈ c.fwd.runs, r.d = d ∧ r.tag = x.tag ∧ r.tail = 0 ∧
        r.chains = chainsOf (s.core.members g) (ceilDiv (x.f 42 2) 128) ∧
        r.left = x.f 48 4 * ceilDiv (if gate then 2 * x.f 44 4 else x.f 44 4) 32 ∧
        (r.wide = false → x.f 33 1 / 16 ≠ 0 → r.planes = x.f 33 1 / 16)

/-- R65: a table load whose image is served and in range puts it into its slot of every available member of the group,
and into no other tile; its work is done. -/
def Obligations.TableLoadFillsTheGroup : Prop :=
  ∀ (s : State) (d : Nat) (x : Desc) (tb : ATable), s.settled → s.awake → s.core.clean → s.issues d x 0x23 →
    let g := x.f 22 1
    let a := x.f 16 6
    s.core.groupFree d g = true → s.core.membersBusy g = false → g < 16 → x.f 23 1 < 4 → x.f 24 8 = 0 → a % 64 = 0 →
    s.core.obj (0x4100 + g) 4 ≠ 0 → s.core.members g ≠ [] → s.core.lbad a 1088 = none →
    tableOf (s.core.lread a 1088) = some tb →
    ∃ t, exec (.tableLoad d) s = .next t ∧ t.dev = s.dev ∧ t.pending = s.pending ∧ t.core.isDone d ∧
      (∀ n ∈ s.core.members g, KMap.get? (t.core.tile n).tables (x.f 23 1) = some tb) ∧
      (∀ n, n ∉ s.core.members g → t.core.tile n = s.core.tile n) ∧ t.core.mem.mem = s.core.mem.mem ∧
      t.core.links.tallies = s.core.links.tallies

/-- R50 to R53, R68: a tile loads the chunk it wants next into the slot free for it, where no slot holds it, memory
serves it and its scale words join; a lane group whose slice is formed adds one plane of its token (two of 2-bit
weights) into its block registers, and with its last one puts each lane's runs of those registers into the skew FIFO and
goes on to its next token. (What the runs hold of the registers: `Obligations.PlanesGiveTheDotProduct`.) -/
def Obligations.TilesLoadAndAccumulate : Prop :=
  ∀ (s : State) (tile lg : Nat) (r : FtRun) (ci pos : Nat) (y : Tile) (x : Desc), s.settled → s.awake → runsWork s.dev = true →
    s.core.tileRun tile = some (r, ci, pos, y) → s.core.desc? r.d = some x →
    (∀ n k : Nat,
      let q : ChunkReq := { quant := r.quant x, lat := r.actLat, f := r.wFmt x, wa := r.wAddrs.1, ws := r.wAddrs.2,
                            col := r.colBlk ci n, pos := pos }
      let bs := s.core.chunkBlks x q
      s.core.clean → s.core.plainEvents → y.wants (r.rounds x ci) = some n → y.victim = some k →
      (∀ p ∈ y.slots, p.2.is q.wa (x.f 104 8) q.col pos = false) →
      (∀ p ∈ chunkRanges x q.quant q.f q.wa q.ws q.col pos, s.core.lbad p.2.1 p.2.2 = none) →
      (∀ b ∈ bs.flatten, b.seen.skew = none ∧ b.fraction = false) →
      ∃ t, exec (.weightChunkLoad tile) s = .next t ∧ t.dev = s.dev ∧ t.pending = s.pending ∧
        t.core.mem.mem = s.core.mem.mem ∧ KMap.get? (t.core.tile tile).held n = some k ∧
        (∀ j, j ≠ k → KMap.get? (t.core.tile tile).slots j = KMap.get? y.slots j) ∧
        ∃ w, KMap.get? (t.core.tile tile).slots k = some w ∧ w.is q.wa (x.f 104 8) q.col pos = true ∧ w.bad = false ∧
          w.cols = bs.map fun l => l.map (·.blk)) ∧
    (let g := r.fill (x.f 42 2) pos lg (x.f 48 4) (r.rounds x ci) 16 (KMap.getD y.lgs lg {})
     let wpl := if r.wFmt x == .q2 then 2 else 1
     ∀ (k : Nat) (w : WSlot) (e : SliceEnt), s.core.inj = [] → lg < 16 → g.rnd < r.rounds x ci → g.fifo.length < 8 →
      KMap.get? y.held g.rnd = some k → KMap.get? y.slots k = some w → w.bad = false → g.buf.head? = some e →
      let live := (r.planesOf tile lg pos g.rnd g.tok e.blks).filter fun p => p.2.any fun l => l.any (· == true)
      ∃ t, exec (.laneGroupHandshake tile lg) s = .next t ∧ t.dev = s.dev ∧ t.pending = s.pending ∧
        t.core.mem = s.core.mem ∧
        (∀ m, m ≠ lg → KMap.get? (t.core.tile tile).lgs m = KMap.get? y.lgs m) ∧
        (g.shakes + wpl < live.length → KMap.get? (t.core.tile tile).lgs lg = some { g with
          regs := addPlanes w.cols lg e.blks g.regs ((live.drop g.shakes).take wpl)
          shakes := g.shakes + wpl }) ∧
        (live.length ≤ g.shakes + wpl →
          let regs := addPlanes w.cols lg e.blks g.regs ((live.drop g.shakes).take wpl)
          let lane (n : Nat) : List WBlk := ((w.cols.getD n []).drop (8 * lg)).take 8
          KMap.get? (t.core.tile tile).lgs lg = some {
            tok := if g.tok + 1 = x.f 48 4 then 0 else g.tok + 1
            rnd := if g.tok + 1 = x.f 48 4 then g.rnd + 1 else g.rnd
            shakes := 0, regs := [], buf := g.buf.drop 1
            fifo := g.fifo ++ [{ tok := g.tok, rnd := g.rnd
                                 runs := (List.range 32).map fun n => (laneRuns (laneBlks r x (lane n) e.blks (regs.getD n []))).1
                                 nf := (List.range 32).map fun n => (lane n).any (·.e == 255) || (!(lane n).isEmpty && e.blks.any (·.nf)) }] }))

/-- R54, R55, R56, R61, R64: when all 16 lane groups, and the chain's input for a tile that is not its first, hold a
token, the bond adds them, in the order of log 32 (R44 gives none), and releases it: a non-final tile to the next
tile's chain FIFO; the final tile through the output stage and its output FIFO to memory (said here of an element
format without table, accumulation or rerun, with nothing waiting before it), and nowhere else. -/
def Obligations.BondReleasesTokens : Prop :=
  ∀ (s : State) (tile : Nat) (r : FtRun) (ci pos : Nat) (y : Tile) (x : Desc), s.settled → s.awake → s.core.inj = [] →
    runsWork s.dev = true → s.core.tileRun tile = some (r, ci, pos, y) → s.core.desc? r.d = some x →
    (s.core.tile tile).outq = [] →
    let ready (e : SkewEnt) : Bool := e.tok == y.relTok && e.rnd == y.relRnd
    let ents := ((List.range 16).map fun g => KMap.getD y.lgs g {}).filterMap fun g => g.fifo.head?.filter ready
    let chainIn := y.chain.head?.filter fun e => e.tok == y.relTok && e.rnd == y.relRnd
    let ch := r.chains.getD ci []
    let ws := (List.range 32).map (bondCol ents chainIn)
    16 ≤ ents.length → pos = 0 ∨ chainIn.isSome = true →
    (∀ t z ci' pos' r', ch[pos + 1]? = some t → t ≠ tile → s.core.tileRun t = some (r', ci', pos', z) → r'.d = r.d →
      z.chain.length < 8 →
      ∃ u, exec (.bondRelease tile) s = .next u ∧ u.dev = s.dev ∧ u.pending = s.pending ∧
        (u.core.tile t).chain = z.chain ++ [{ tok := y.relTok, rnd := y.relRnd, vals := ws }] ∧
        (∀ g, g < 16 → (KMap.getD (u.core.tile tile).lgs g {}).fifo = (KMap.getD y.lgs g {}).fifo.drop 1) ∧
        u.core.mem = s.core.mem) ∧
    (∀ e, ch[pos + 1]? = none → s.core.run? r.d = some r → s.core.mem.entryWaits = [] → x.ty = 0x20 →
      bitAt (x.f 34 1) 3 = false → bitAt (x.f 31 1) 7 = false → y.sup ≤ y.relTok → elemOfCode (x.f 29 1) = some e →
      (∀ w ∈ ws, w.nf = false) →
      let k := 32 * r.colBlk ci y.relRnd
      let vs := (outStage x none (ws.take (min 32 (x.f 44 4 - k)))).1.map OutVal.num
      let i0 := y.relTok * x.f 44 4 + k
      let a := r.outAddrs.1 + i0 * (e.width / 8)
      s.core.plainBad a (vs.length * (e.width / 8)) = none → a < 2 ^ 63 →
      ∃ u, exec (.bondRelease tile) s = .next u ∧ u.dev = s.dev ∧ u.pending = s.pending ∧
        u.core.mem.mem = Mem.write s.core.mem.mem a
          ((convElemsTo e x.nfp (fld (x.f 31 1) 5 4) (s.core.convKey x.tag r.actLat.layer) 1 i0 vs).flatMap
            fun q => toLE (e.width / 8) q.code))

/-- R50, R51: with no tail the planes of a block, consumed from the top, add to its register exactly its integer dot
product: signed magnitude times weight, each weight shifted right by its sub-block's offset, in units of 2^-6. R53: the
runs a lane forms of its blocks' registers hold exactly the registers' sum, each register at its block's exponent, where
every register leaves room for its block's alignment shift; they are no more than the blocks, and each stays in the
24-bit range. -/
def Obligations.PlanesGiveTheDotProduct : Prop :=
  (∀ (blks : List (Int × Int × Int)) (m : Int),
    (∀ p ∈ blks, 0 ≤ p.2.2 ∧ (2 : Int) ^ p.2.2.toNat ∣ p.1 ∧ -8388608 ≤ p.1 ∧ p.1 ≤ 8388607 ∧ m ≤ p.2.1 - 6) →
    let runs := (laneRuns blks).1
    (runs.map fun q => q.1 * 2 ^ (q.2 - m).toNat).sum = (blks.map fun p => p.1 * 2 ^ (p.2.1 - 6 - m).toNat).sum ∧
    runs.length ≤ blks.length ∧ ∀ q ∈ runs, -8388608 ≤ q.1 ∧ q.1 ≤ 8388607) ∧
  ∀ (r : FtRun) (tile lg pos rnd tok : Nat) (a : ActBlk) (w : WBlk), r.tail = 0 → a.mag.length = 32 →
    a.neg.length = 32 → w.q.length = 32 → (∀ m ∈ a.mag, m < 2 ^ r.planes) →
    (r.planesOf tile lg pos rnd tok [a]).foldl (fun s p => s + planeAdd p.1 (p.2.getD 0 []) a.neg w) 0 =
      ((List.range 32).map fun i =>
        (if a.neg.getD i false then -w.q.getD i 0 else w.q.getD i 0) * (a.mag.getD i 0 : Int) *
          2 ^ (6 - fld w.off (2 * (i / 8) + 1) (2 * (i / 8)))).sum

/-! ### Precision units, converters, trackers -/

/-- R96, R97: the four types of the precision units compute what Table 3.4 says and write it, where the units are free:
said of one row of FP32 operands at plain addresses, results rounded to nearest even. A product is the FP32 sums of FP32
products, element by element; statistics are mean and reciprocal deviation; a gather scales the rows it names, here by
BF16 products; a selection orders by value, equal values by index, and writes the indices too. Nothing else in memory
changes. -/
def Obligations.PrecisionUnitsCompute : Prop :=
  ∀ (s : State) (d ty : Nat) (x : Desc) (e : Elem), s.settled → s.awake → s.core.clean → s.core.plainEvents →
    s.issues d x ty → s.core.puFree d = true → x.rc = false →
    (∀ o ∈ [64, 72, 80, 88, 96, 104, 112, 120], x.f o 8 < 2 ^ 63) →
    elemOfCode 0x0A = some e → x.f 40 1 = 0x0A → x.f 41 1 = 0x0A → x.f 42 1 = 0x0A → x.f 60 4 = 1 →
    let n := x.f 56 4
    let k := x.f 52 4
    let p := x.f 48 4
    let out := x.f 96 8
    let aux := x.f 120 8
    let rows (a r w : Nat) : List (List Machine.Num) :=
      (s.core.readRows { addr := a, scale := 0, fmt := 0x0A, rows := r, cols := w } [] x.nfp).1
    let row (a w : Nat) : List Machine.Num := (rows a 1 w).getD 0 []
    let codes (vs : List Machine.Num) : List Byte := pack 32 (vs.map fun v => (e.conv x.nfp .rne v).code)
    (ty = 0x58 → firstBad (s.core.puChecks x [40, 41, 42]) = none → x.f 43 1 = 0x40 → x.f 112 8 = 0 → aux = 0 →
      s.core.served (x.f 64 8) (4 * k) → s.core.served (x.f 80 8) (4 * k * n) → s.core.served out (4 * n) →
      ∃ c : Core, exec (.puProduct d) s = .next (s.withCore c) ∧ c.isDone d ∧
        c.mem.mem = Mem.write s.core.mem.mem out (codes
          ((transpose n ((rows (x.f 80 8) k n).map (heldIn fmtFP32))).map fun col =>
            dotRow (heldIn fmtFP32 (row (x.f 64 8) k)) col))) ∧
    (ty = 0x59 → firstBad (s.core.puChecks x [40]) = none → x.f 44 1 < 2 →
      s.core.served (x.f 64 8) (4 * k) → s.core.served aux 8 →
      ∃ c : Core, exec (.rowStatistics d) s = .next (s.withCore c) ∧ c.isDone d ∧
        let st := rowStats (puFmt (bitAt (x.f 43 1) 6)) (x.f 44 1 == 0) (f32 p) (heldIn fmtFP32 (row (x.f 64 8) k))
        c.mem.mem = Mem.write s.core.mem.mem aux
          ([st.1, st.2].flatMap fun v => toLE 4 ((Elem.flt fmtFP32).conv x.nfp .rne v).code)) ∧
    (ty = 0x5A → firstBad (s.core.puChecks x [41, 42]) = none → x.f 43 1 = 0 → x.f 112 8 = 0 →
      s.core.served aux 4 → s.core.served (x.f 80 8) (4 * k * n) → s.core.served out (4 * n) →
      s.core.lnum aux 4 < k →
      ∃ c : Core, exec (.gather d) s = .next (s.withCore c) ∧ c.isDone d ∧
        c.mem.mem = Mem.write s.core.mem.mem out (codes
          ((heldIn fmtBF16 ((rows (x.f 80 8) k n).getD (s.core.lnum aux 4) [])).map (fmul (toBf16 (f32 p)))))) ∧
    (ty = 0x5B → firstBad (s.core.puChecks x [40, 42]) = none → x.f 43 1 = 0 → x.f 44 1 = 0 →
      s.core.served (x.f 64 8) (4 * n) → s.core.served aux (4 * p) → s.core.served out (4 * p) →
      ∃ c : Core, exec (.select d) s = .next (s.withCore c) ∧ c.isDone d ∧
        let l := ((s.core.sortRow true (row (x.f 64 8) n)).1).take p
        c.mem.mem = Mem.write (Mem.write s.core.mem.mem aux (l.flatMap fun q => toLE 4 q.i)) out
          (codes (l.map SortEnt.v)))

/-- R148, R162, R167: a conversion whose checks pass gives its blocks to the converters as spans, every block of the
source once with its place in the destination, and its work is done but for them; a converter that holds an untracked
span of one block fits it its own exponent and writes its data, and its scale word in its line. R155: the trackers
write the oldest step's watch records to its slot of the watch area. -/
def Obligations.ConvertersWrite : Prop :=
  (∀ (s : State) (d : Nat) (x : Desc), s.settled → s.awake → s.issues d x 0x30 → x.rc = false → x.f 16 8 < 2 ^ 63 →
    x.f 32 8 < 2 ^ 63 → x.f 24 8 = 0 → x.f 40 8 = 0 → (elemOfCode (x.f 58 1)).isSome = true →
    (elemOfCode (x.f 59 1)).isSome = true → (blkOfCode (x.f 58 1)).isSome = false →
    (blkOfCode (x.f 59 1)).isSome = false → knownFormat (x.f 58 1) = true → knownFormat (x.f 59 1) = true →
    1 ≤ x.f 48 4 → x.f 48 4 ≤ 2 ^ 20 → 1 ≤ x.f 52 4 → x.f 52 4 ≤ 2 ^ 20 → 1 ≤ x.f 60 1 / 16 → x.f 60 1 / 16 ≤ 5 →
    fld (x.f 60 1) 3 2 = 1 ∨ fld (x.f 60 1) 3 2 = 2 → x.f 60 1 % 4 ≠ 3 → x.f 61 1 < 2 → x.f 62 2 = 0 →
    ∃ t, exec (.convert d) s = .next t ∧ t.dev = s.dev ∧ t.pending = s.pending ∧ t.core.isDone d ∧
      t.core.mem = s.core.mem ∧ t.core.links.tallies = s.core.links.tallies ∧
      let cols := x.f 52 4
      let new := t.core.fwd.spans.drop s.core.fwd.spans.length
      (∀ sp ∈ new, sp.d = d ∧ sp.tgt.fmt = x.f 59 1 ∧ sp.tgt.rmode = x.f 60 1 % 4 ∧ sp.src =
        some ({ addr := x.f 16 8, scale := 0, fmt := x.f 58 1, rows := x.f 48 4, cols := cols }, [])) ∧
      (new.flatMap (·.blks)).length = x.f 48 4 * ceilDiv cols 32 ∧
      ∀ i k, i < x.f 48 4 → k < ceilDiv cols 32 → ∃ sp ∈ new, ∃ b ∈ sp.blks,
        b.blk = i * ceilDiv cols 32 + k ∧ b.elem = i * cols + 32 * k ∧
        b.data = x.f 32 8 + b.elem * fmtBits (x.f 59 1) / 8) ∧
  (∀ (s : State) (v d : Nat) (sp : Span) (b : SpanBlk) (f : BlkFmt) (x : Desc), s.settled → s.awake → s.core.clean →
    s.core.plainEvents → runsWork s.dev = true → s.core.assignSpans.fwd.spans.find? (fun q => q.conv == some v) = some sp →
    sp.d = d → s.core.desc? d = some x → sp.blks = [b] → sp.src = none → sp.item = none → sp.act = false →
    sp.lat.layer = 4096 → sp.lat.tracked = false → blkOfCode sp.tgt.fmt = some f →
    let line := sp.tgt.scale + 64 + 64 * (b.blk / 30)
    let word := line + 4 + 2 * (b.blk % 30)
    let o := convBlk f sp.lat true sp.tgt.nfp sp.tgt.rmode sp.tgt.key (sp.tgt.role * 2 ^ 60 + b.elem) b.vals
    s.core.served b.data f.bytes → s.core.served line 64 → b.data < 2 ^ 63 → line < 2 ^ 63 → b.blk < sp.tgt.blocks →
    b.data + o.data.length ≤ line ∨ line + 64 ≤ b.data →
    ∃ c : Core, exec (.spanConvert v) s = .next (s.withCore c) ∧
      Mem.read c.mem.mem b.data o.data.length = o.data ∧ Mem.read c.mem.mem word 2 = toLE 2 o.word ∧
      (∀ y, (y < b.data ∨ b.data + o.data.length ≤ y) → (y < line ∨ line + 64 ≤ y) →
        Mem.get c.mem.mem y = Mem.get s.core.mem.mem y)) ∧
  (∀ (s : State) (w : WatchSet) (rest : List WatchSet), s.settled → s.awake → s.core.inj = [] →
    s.dev ≠ .faultStop → s.core.fwd.watch = w :: rest → s.core.obj 0x3710 1 ≠ 0 →
    let base := s.core.obj 0x3710 1
    let n := s.core.obj 0x3710 2
    let c := (s.core.watchRecs w).foldl
      (fun (c : Core) (r : Nat × List Byte) => c.store (base + ((w.step % n) * 49152 + r.1) * 64) r.2) s.core
    exec .watchRecordsWrite s = .next (s.withCore
      (({ c with fwd := { c.fwd with watch := rest } }).setObj 0x3710 3 w.step)))

/-! ### Backward arrays -/

/-- R102 to R127: a backward descriptor whose group is free, whose operands memory holds in element formats at plain
addresses and whose results have a place completes: its work is done, and no tally changes by it. Said of FIRST
without FINAL, with nothing waiting in the send buffers. Two of the five types have their results stated: a product
leaves dW = Xᵀ·dY in its staging area as FP32, in the order of sums and as the values of logs 32 and 77, and no byte
changes outside dW and dX (what dX holds is not stated); a deposit counts one block for each 32 gradients. Of the
normalisation, soft-maximum and attention kernels only the completion is stated. -/
def Obligations.BackwardComputes : Prop :=
  ∀ (s : State) (d ty : Nat) (x : Desc), s.settled → s.awake → s.core.clean → s.core.plainEvents → s.issues d x ty →
    s.core.bwdReady x → s.core.xch.out = [] → s.core.xch.waits0 = [] →
    let j := s.core.bwdJob d x
    let runs (i : Instr) (holds : Core → Prop) : Prop :=
      ∃ t, exec i s = .next t ∧ t.dev = s.dev ∧ t.pending = s.pending ∧ t.core.isDone d ∧
        t.core.links.tallies = s.core.links.tallies ∧ holds t.core
    (ty = 0x56 →
      ∃ c : Core, exec (.gradientDeposit d) s = .next (finish s.dev c.settle s.pending) ∧ c.isDone d ∧
        c.obj 0x5080 9 = min (s.core.obj 0x5080 9 + ceilDiv x.bN 32) (objMax 0x5080 9) ∧
        c.mem.mem = s.core.mem.mem) ∧
    (x.bFirst = true → x.bFinal = false → ty = 0x52 → x.bStats = false → s.core.served (j.addr 5) (8 * x.bT) →
      s.core.served (j.addr 6) (8 * x.bT) → j.addr 7 = 0 → j.addr 3 % 64 = 0 →
      j.addr 3 + 4 * (x.bT * x.bK) ≤ tsBase → s.core.served (j.addr 3) (4 * (x.bT * x.bK)) →
      s.core.served (j.addr 4) (4 * x.bK * x.bN) →
      runs (.headSoftmaxBackward d) fun _ => True) ∧
    ∀ e, elemOfCode (x.f 28 1) = some e → blkOfCode (x.f 28 1) = none →
      (x.bFirst = true → x.bFinal = false → ty = 0x50 →
        let dw := ((prodCols x.bWide (if x.bResident then x.bTs else 0) x.bK x.bN (j.m 2) (j.m 0)).1).flatten
        let dx := ceilDiv (x.bT * x.bK * e.width) 8
        s.core.served (j.addr 3) dx → s.core.served (j.addr 4) (4 * dw.length) →
        runs (.productBackward d) fun c =>
          Mem.read c.mem.mem (j.addr 4) (4 * dw.length) = ((s.core.asF32 j dw).1).flatMap (fun v => toLE 4 (f32Code v)) ∧
          ∀ a, (a < j.addr 3 ∨ j.addr 3 + dx ≤ a) → (a < j.addr 4 ∨ j.addr 4 + 4 * dw.length ≤ a) →
            Mem.get c.mem.mem a = Mem.get s.core.mem.mem a) ∧
      (x.bFirst = true → x.bFinal = false → ty = 0x51 → s.core.served (j.addr 5) (8 * x.bT) →
        s.core.served (j.addr 7) (8 * (x.bK + x.bN) + 8 * x.bK) →
        s.core.served (j.addr 3) (ceilDiv (x.bT * x.bK * e.width) 8) → s.core.served (j.addr 4) (4 * x.bK * x.bN) →
        runs (.normalisationBackward d) fun _ => True) ∧
      (ty = 0x53 → s.core.served (j.addr 5) (8 * x.bRows) → j.addr 3 % 64 = 0 →
        j.addr 3 + 4 * (x.bRows * x.bK) ≤ tsBase → s.core.served (j.addr 3) (4 * (x.bRows * x.bK)) →
        s.core.served (j.addr 7) (ceilDiv (x.bN * x.bK * e.width) 8) →
        s.core.served (j.addr 8) (ceilDiv (x.bN * x.bK * e.width) 8) →
        runs (.attentionBackward d) fun _ => True)

/-! ### Attention and pools -/

/-- R201, R202: an attention descriptor of lists in rollout whose checks pass is issued and its items wait for the
engines of its mask. R175 to R182, R203: an engine with a free walker takes the next item of the oldest descriptor
that uses it; said of BF16 rows of DENSE tensors whose keys fit one page, on an idle engine: the outputs of its rows
go to memory, and its status byte says that it completed, and no other byte changes. R198: an item whose remote read
is not answered ends with status 0x04, and the read counts as timed out (R350); R190: one that found no page ends with
0x02; said where no other item of the engine is ready to go on. -/
def Obligations.AttentionRuns : Prop :=
  (∀ (s : State) (d : Nat) (x : Desc), s.settled → s.awake → s.core.clean → s.core.plainEvents → s.issues d x 0x40 →
     firstBad (s.core.attnChecks x) = none → x.dense = false → x.aKind = 1 → x.f 16 8 < 2 ^ 63 →
     s.core.served (x.f 16 8) (64 * x.f 36 4) →
     ∃ c : Core, exec (.attention d) s = .next (s.withCore c) ∧ c.desc? d = some { x with issued := true } ∧
       c.mem.mem = s.core.mem.mem ∧ c.links.tallies = s.core.links.tallies ∧
       ∃ r ∈ c.attn.runs, r.d = d ∧ r.base = x.f 16 8 ∧ r.left = x.f 36 4 ∧ r.waiting.length = x.f 36 4) ∧
  (∀ (s : State) (e : Nat) (r : AttnRun) (x : Desc), s.settled → s.awake → s.core.clean → s.core.plainEvents →
     s.core.desc? r.d = some x → s.core.attn.runs.find? (fun q => q.d == r.d) = some r → r.base < 2 ^ 63 →
     s.core.links.tagWaits = [] → s.core.links.ended = [] →
     let status (it : AItem) : Nat := r.base + 64 * it.idx + 60
     (∀ (w : Nat) (it : AItem) (rest : List AItem),
       runsWork s.dev = true → e < 16 → bitAt (s.core.obj 0x6001 0) e = true → bitAt (x.f 42 2) e = true →
       s.core.attn.items = [] → s.core.freeWalker e = some w → (s.core.eng e).run = none → (s.core.eng e).slots = [] →
       s.core.attn.runs.find? (fun q => !q.waiting.isEmpty && (match s.core.desc? q.d with
         | some y => bitAt (y.f 42 2) e
         | none => false)) = some r →
       r.waiting = it :: rest → x.dense = true → x.f 30 1 = 0x08 → r.k.fmt = 0x08 → r.v.fmt = 0x08 →
       bitAt (x.f 33 1) 3 = false → s.core.itemRange x it = false → it.n ≤ 32 →
       s.core.served it.q (256 * (x.hg * it.c)) →
       (∀ p, p < it.n → s.core.served (r.k.addr + ((it.list + p) * r.k.cols + 128 * it.head) * 2) 256 ∧
         s.core.served (r.v.addr + ((it.list + p) * r.v.cols + 128 * it.head) * 2) 256) →
       let qs := (List.range (x.hg * it.c)).map fun k => bareBf16 (s.core.lread (it.q + 256 * k) 256)
       let kv : PageKV := { fmt := 0x08, key := (s.core.denseRows r.k r.kHdr x.nfp it.list it.head it.n).1
                            val := (s.core.denseRows r.v r.vHdr x.nfp it.list it.head it.n).1 }
       let begun : RowState := { m := .inf true, l := .zero false, o := List.replicate 128 (.zero false) }
       let st := (pagesOf x it).foldl (fun st b => (passPage x it qs b kv false st).1) (qs.map fun _ => begun)
       let outs := st.flatMap fun q =>
         if q.l.isZero then q.o.map fun _ => (Machine.Num.zero false) else q.o.map fun v => fdiv v q.l
       let t : Elem := if x.f 31 1 = 0x08 then .flt fmtBF16 else .flt fmtFP32
       let n := outs.length * (t.width / 8)
       s.core.served it.out n → it.out < 2 ^ 63 → it.out + n ≤ status it ∨ status it < it.out →
       ∃ u, exec (.attentionItem e) s = .next u ∧ u.dev = s.dev ∧ u.pending = s.pending ∧
         Mem.get u.core.mem.mem (status it) = 1 ∧
         Mem.read u.core.mem.mem it.out n = outs.flatMap (fun v => toLE (t.width / 8) (t.conv x.nfp .rne v).code) ∧
         ∀ a, (a < it.out ∨ it.out + n ≤ a) → a ≠ status it → Mem.get u.core.mem.mem a = Mem.get s.core.mem.mem a) ∧
     let alone (i : ItemRun) : Prop :=
       ∀ j ∈ s.core.attn.items, j.engine = e → j.walked = true → j.d = i.d ∧ j.item.idx = i.item.idx
     (∀ i : ItemRun, i.d = r.d → alone i → s.core.attn.items.find? (fun j => j.engine == e && !j.need.isEmpty) = some i →
       ∃ u, exec (.remoteReadTimeout e) s = .next u ∧ u.dev = s.dev ∧ u.pending = s.pending ∧
         Mem.get u.core.mem.mem (status i.item) = 4 ∧
         (∀ j ∈ u.core.attn.items, ¬(j.d = i.d ∧ j.item.idx = i.item.idx))) ∧
     (∀ i : ItemRun, i.d = r.d → alone i → e ≠ 16 →
       s.core.attn.items.find? (fun j => j.engine == e && j.pageWait.isSome) = some i →
       ∃ u, exec (.pageWaitTimeout e) s = .next u ∧ u.dev = s.dev ∧ u.pending = s.pending ∧
         Mem.get u.core.mem.mem (status i.item) = 2 ∧
         (∀ j ∈ u.core.attn.items, ¬(j.d = i.d ∧ j.item.idx = i.item.idx))))

/-- R188, R189: a page that is freed leaves the allocated pages and enters quarantine; when no walk is older than
that, it goes back to the tail of its pool's free ring, and is taken again after those before it. -/
def Obligations.PagesAreFreed : Prop :=
  ∀ (s : State) (src : Src) (n page : Nat), s.settled → s.awake → s.core.unpoisoned →
    (n < 4 → s.core.reach s.dev src (0x6100 + n) 0xB true = true → s.core.attn.quarantine.length < 65536 →
      s.core.poolOn n = true → page ∈ (s.core.pool n).alloc →
      ∃ t, exec (.poolFreePage src n page) s = .next t ∧ t.dev = s.dev ∧ t.pending = s.pending ∧
        page ∉ (t.core.pool n).alloc ∧ (∀ p, p ≠ page → (p ∈ (t.core.pool n).alloc ↔ p ∈ (s.core.pool n).alloc)) ∧
        (t.core.pool n).back = (s.core.pool n).back ∧
        t.core.attn.quarantine = s.core.attn.quarantine ++ [{ pool := n, page := page, at_ := s.core.now }] ∧
        t.core.dict.lastStatus = stOk ∧ t.core.mem = s.core.mem) ∧
    (s.core.attn.items = [] →
      ∃ t, exec .quarantineRelease s = .next t ∧ t.dev = s.dev ∧ t.core.attn.quarantine = [] ∧
        (t.core.pool n).back = (s.core.pool n).back ++
          (s.core.attn.quarantine.filter fun q => q.pool == n).map QPage.page ∧
        (t.core.pool n).alloc = (s.core.pool n).alloc ∧ t.core.mem = s.core.mem)

/-! ### Rollout contexts -/

/-- R209 to R212, R230, R231, Table 7.2: each context op moves its context as the table says, writes status 0x01 with
the state after it as the result's first two bytes, and leaves every other context alone; on a context in a state that
the op does not admit it writes 0x20 and moves nothing. OPEN puts the position at the prompt's last token. -/
def Obligations.ContextOpsMoveStates : Prop :=
  ∀ (s : State) (d : Nat) (x : Desc), s.settled → s.awake → s.core.clean → s.core.plainEvents → s.issues d x 0x61 →
    firstBad (ctxChecks x) = none → s.core.ctxBusy x.ctxNo = false → x.f 32 8 < 2 ^ 63 →
    s.core.served (x.f 32 8) 16 →
    let n := x.ctxNo
    let y := s.core.ctx n
    let moved (i : Instr) (st : Nat) (z : Ctx) : Prop :=
      ∃ c : Core, exec i s = .next (s.withCore c) ∧ c.isDone d ∧ c.ctx n = z ∧ (∀ m, m ≠ n → c.ctx m = s.core.ctx m) ∧
        Mem.read c.mem.mem (x.f 32 8) 2 = toLE 1 st ++ toLE 1 z.state
    (x.op = 3 → y.state = 1 → moved (.ctxHold d) 1 { y with state := 3 }) ∧
    (x.op = 3 → y.state ≠ 1 → y.state ≠ 2 → moved (.ctxHold d) 0x20 y) ∧
    (x.op = 4 → y.state = 3 → moved (.ctxRelease d) 1 { y with state := 1 }) ∧
    (x.op = 4 → y.state ≠ 3 → moved (.ctxRelease d) 0x20 y) ∧
    (x.op = 8 → y.state = 2 → moved (.abortStep d) 1 { y with state := 1 }) ∧
    (x.op = 8 → y.state ≠ 2 → moved (.abortStep d) 0x20 y) ∧
    (x.op = 2 → y.state ≠ 0 → y.state ≠ 2 → y.shared = 0 ∨ s.core.roll.clearing = false →
      y.state = 6 ∨ s.core.listServed y.list y.shared (s.core.listCap y.list) → moved (.ctxClose d) 1 {}) ∧
    (x.op = 6 → y.state = 4 → s.core.parkedEntries y = [] → s.core.roll.resumes = [] →
      s.core.pfxOn = false ∨ s.core.roll.clearing = false → s.core.listServed y.list 0 (s.core.listCap y.list) →
      moved (.ctxResume d) 1 { y with state := if y.endReason = 0 then 1 else 5, parked := 0 }) ∧
    (x.op = 1 → y.state = 0 → s.core.pfxOn = false → s.core.served (x.f 24 8) 256 → x.f 24 8 < 2 ^ 63 →
      let b := s.core.lread (x.f 24 8) 256
      let im := Ctx.ofImage b
      s.core.imageOk b = true → im.list < 2 ^ 63 → im.prompt < 2 ^ 63 → s.core.served im.list 64 →
      s.core.served im.prompt (4 * im.promptLen) →
      ∃ z, moved (.ctxOpen d) 1 z ∧ z.state = 1 ∧ z.pos = im.promptLen - 1 ∧ z.list = im.list ∧ z.openTime = s.core.now ∧
        z.last = s.core.lnum (im.prompt + 4 * (im.promptLen - 1)) 4)

/-- R211, R220, R221, R229, R233: PARK copies the context's local pages to the host, each with its scale slot behind
it at its place in the park image, and waits until they are acknowledged; the context then is PARKED with their
number. An op on a STEPPING context waits, and acts when its step has closed. INSERT writes how far it came and how
many blocks went in, where it meets no row of the table that it cannot read; FLUSH_PREFIX, which no context holds up,
ends likewise with status 0x01, or 0x23 where the prefix table is off. A RESUME that found no page in time ends with
0x22. -/
def Obligations.ContextOpsThatTakeLonger : Prop :=
  ∀ (s : State) (d : Nat) (x : Desc), s.settled → s.awake → s.core.clean → s.core.plainEvents →
    x.f 32 8 < 2 ^ 63 → s.core.served (x.f 32 8) 16 → firstBad (ctxChecks x) = none →
    let n := x.ctxNo
    let y := s.core.ctx n
    let c1 := (s.core.setDesc d { x with issued := true }).noteIssue []
    (s.issues d x 0x61 → s.core.ctxBusy n = false → x.op = 5 → y.state = 1 ∨ y.state = 3 ∨ y.state = 5 →
      y.parkBase ≠ 0 → s.core.listServed y.list y.shared y.parkEnd →
      (∀ p ∈ s.core.parkList y, s.core.served (s.core.pageAddr y.pool p.2.2.1.pageNew) (s.core.pageBytes y.pool) ∧
        s.core.served (s.core.slotAddr y.pool p.2.2.1.pageNew) (s.core.slotBytes y.pool)) →
      ∃ c : Core, exec (.ctxPark d) s = .next (s.withCore c) ∧ c.roll.parks = s.core.roll.parks ++ [(d, n)] ∧
        c.roll.ctxs = s.core.roll.ctxs ∧ c.mem.mem = s.core.mem.mem ∧ c.desc? d = some { x with issued := true } ∧
        let fn := s.core.queueFn x.queue
        (∀ g, g ≠ fn → KMap.getD c.mem.host g [] = KMap.getD s.core.mem.host g []) ∧
        ∀ p ∈ s.core.parkList y, Mem.read (KMap.getD c.mem.host fn []) (y.parkBase + p.2.2.2 * s.core.parkStride y.pool)
            (s.core.pageBytes y.pool + s.core.slotBytes y.pool) =
          s.core.bytes (s.core.pageAddr y.pool p.2.2.1.pageNew) (s.core.pageBytes y.pool) ++
            s.core.bytes (s.core.slotAddr y.pool p.2.2.1.pageNew) (s.core.slotBytes y.pool)) ∧
    (∀ op i, op = 3 ∧ i = .ctxHold d ∨ op = 5 ∧ i = .ctxPark d ∨ op = 2 ∧ i = .ctxClose d → s.issues d x 0x61 →
      s.core.ctxBusy n = false → x.op = op → y.state = 2 → y.shared = 0 ∨ s.core.roll.clearing = false →
      exec i s = .next (s.withCore { c1 with roll := { c1.roll with
        waits := c1.roll.waits ++ [{ d := d, ctx := n, op := op }] } })) ∧
    (∀ w, runsWork s.dev = true → s.core.ctxHeld n = false → s.core.roll.waits.find? (fun w => w.ctx == n) = some w →
      w.d = d → w.op = 3 → x.op = 3 → s.core.desc? d = some x → y.state = 1 →
      ∃ c : Core, exec (.deferredContextOp n) s = .next (s.withCore c) ∧ c.ctx n = { y with state := 3 } ∧
        c.roll.waits = s.core.roll.waits.erase w ∧ Mem.read c.mem.mem (x.f 32 8) 2 = toLE 1 1 ++ toLE 1 3) ∧
    (runsWork s.dev = true → s.core.roll.parks.find? (fun p => p.2 == n) = some (d, n) → s.core.desc? d = some x →
      x.op = 5 → y.state ≠ 6 → s.core.listServed y.list y.shared (s.core.listCap y.list) →
      ∃ c : Core, exec (.parkPagesAcknowledged n) s = .next (s.withCore c) ∧
        c.ctx n = { y with state := 4, parked := (s.core.parkList y).length } ∧
        c.roll.parks = s.core.roll.parks.erase (d, n) ∧
        Mem.read c.mem.mem (x.f 32 8) 2 = toLE 1 1 ++ toLE 1 4) ∧
    (s.issues d x 0x61 → s.core.ctxBusy n = false → x.op = 7 → y.state ≠ 0 → y.state ≠ 6 → s.core.pfxOn = true →
      s.core.roll.clearing = false → s.core.listLayers y.list = s.core.obj 0x6300 4 → y.steps ≠ 0 →
      y.inUse = y.startVer → x.f 20 4 ≤ y.promptLen / 32 →
      s.core.listServed y.list y.shared (max (x.f 20 4) y.shared) → (∀ h, s.core.served (s.core.pfxSet h) 256) →
      let rs := (0xFFFF, y.list, 64) :: s.core.listRanges y.list y.shared (max (x.f 20 4) y.shared)
      let h := if y.node = noEntry then pfxRoot (s.core.obj 0x6300 5) y.startVer y.pool else (s.core.pfx y.node).hash
      let r := ((c1.fetchAll rs).1).insertBlocks d n (x.f 20 4 - y.shared) h 0
      r.2.live d = true → ∃ c : Core, exec (.ctxInsert d) s = .next (s.withCore c) ∧ c.roll.ctxs = r.2.roll.ctxs ∧
        Mem.read c.mem.mem (x.f 32 8) 1 = toLE 1 r.1.1 ∧ Mem.read c.mem.mem (x.f 32 8 + 4) 4 = toLE 4 r.1.2) ∧
    (s.issues d x 0x61 → x.op = 9 → s.core.pfxOn = false ∨ s.core.roll.clearing = false →
      (c1.flushCold d c1.roll.cold).live d = true →
      ∃ c : Core, exec (.flushPrefix d) s = .next (s.withCore c) ∧ c.isDone d ∧ c.roll.ctxs = s.core.roll.ctxs ∧
        Mem.read c.mem.mem (x.f 32 8) 1 = toLE 1 (if s.core.pfxOn then 1 else 0x23)) ∧
    (∀ r, s.core.roll.resumes.find? (fun r => s.core.live r.d) = some r → r.d = d → s.core.desc? d = some x →
      ∃ c : Core, exec (.pageWaitTimeout 16) s = .next (s.withCore c) ∧ c.roll.ctxs = s.core.roll.ctxs ∧
        (∀ q ∈ c.roll.resumes, q.d ≠ d) ∧ Mem.read c.mem.mem (x.f 32 8) 1 = toLE 1 0x22) ∧
    exec .prefixClearingEnds s = .next (s.withCore { s.core with roll := { s.core.roll with clearing := false } })

/-- R213, R214, R216: a decode-step open makes its context STEPPING on the bank, with status 0x01 in the entry; the
hold limit makes the bank's pinned contexts follow. R222 to R228: a sample of a stepping context writes the token at
the next position, its ledger entry and its result, and the context is ACTIVE again, or ENDED at a stop or its limit;
where the entry finds no room in the write-combining buffer (R316), record and result wait until it is acknowledged
(R214; how long they wait is the model's choice, log 163). A draft sample writes its token to the draft's slot. -/
def Obligations.DecodeStepsAndSamples : Prop :=
  ∀ (s : State) (d e : Nat) (x : Desc), s.settled → s.awake → s.core.clean → s.core.plainEvents →
    let n := e % 65536
    (s.issues d x 0x62 → firstBad (openChecks x) = none → x.f 24 4 = 1 → x.f 16 8 < 2 ^ 63 →
      s.core.served (x.f 16 8) 4 → e = s.core.lnum (x.f 16 8) 4 → n < 16384 → s.core.ctxBusy n = false →
      let b := x.f 32 1 % 2
      (s.core.bank b).holds = true → (s.core.bank b).state ≠ 4 → s.core.entryStatus (s.core.bank b).version e [] = 1 →
      ∃ c : Core, exec (.decodeStepOpen d) s = .next (s.withCore c) ∧ c.isDone d ∧ (c.ctx n).state = 2 ∧
        (c.ctx n).bank = b ∧ (c.ctx n).inUse = (s.core.bank b).version ∧ (c.ctx n).pos = (s.core.ctx n).pos ∧
        (∀ m, m ≠ n → c.ctx m = s.core.ctx m) ∧ c.mem.mem = Mem.write s.core.mem.mem (x.f 16 8 + 3) (toLE 1 1)) ∧
    (∀ b t, s.core.roll.hold = some (b, t, false) → s.core.readers b ≠ 0 →
      ∃ c : Core, exec .holdLimitExpiry s = .next (s.withCore c) ∧ c.roll.hold = some (b, t, true) ∧
        (∀ m, (s.core.ctx m).pin = true → (s.core.ctx m).startVer = (s.core.bank b).version →
          c.ctx m = { s.core.ctx m with pin := false, forced := true }) ∧
        (∀ m, (s.core.ctx m).pin = false ∨ (s.core.ctx m).startVer ≠ (s.core.bank b).version →
          c.ctx m = s.core.ctx m)) ∧
    (s.issues d x 0x60 → firstBad (s.core.sampleChecks x) = none → x.f 56 4 = 1 → x.f 16 8 < 2 ^ 63 →
      s.core.served (x.f 16 8) 4 → e = s.core.lnum (x.f 16 8) 4 → n < 16384 → s.core.ctxHeld n = false →
      (s.core.ctx n).state = 2 → e / 2 ^ 24 = 1 →
      let y := s.core.ctx n
      (x.draftMode = false → fld e 23 16 = 1 → x.f 69 1 = 0 → s.core.served (x.f 48 8) 16 → x.f 48 8 < 2 ^ 63 →
        s.core.served (x.f 24 8) (x.f 60 4 * logitBytes (x.f 68 1)) →
        let q := distrOf y (s.core.logitsAt (x.f 68 1) (x.f 60 4) (x.f 24 8))
        let t := (s.core.drawToken (s.core.tombolaU n y 0 1 0) (q.kept.map fun v => (v.1, v.2.1)) q.sum).1
        q.kept ≠ [] → y.ledCount ≠ y.ledCap → y.endReason = 0 →
        let stop := (y.stops.take y.stopCount).contains t
        let limit := !stop && y.pos + 2 == y.limit
        let led := y.ledBase + 16 * y.ledCount
        let room := (s.core.store led (List.replicate 16 0)).mem.entryWaits.length = s.core.mem.entryWaits.length
        s.core.roll.ends = [] → led + 16 ≤ x.f 48 8 ∨ x.f 48 8 + 16 ≤ led →
        (¬room → ∃ u, exec (.sampleTarget d) s = .next u ∧ u.dev = s.dev ∧ u.pending = s.pending ∧
          u.core.ctx n = y ∧ Mem.read u.core.mem.mem led 16 =
            ledgerEntry y { t := t, source := 0, row := 0, logp := q.logp t } (y.pos + 1) 0 stop limit ∧
          ∃ f ∈ u.core.roll.ends, f.d = d ∧ f.ctx = n ∧ f.res = x.f 48 8) ∧
        (room → ∃ u, exec (.sampleTarget d) s = .next u ∧ u.dev = s.dev ∧ u.pending = s.pending ∧ u.core.isDone d ∧
          (u.core.ctx n).state = (if stop || limit then 5 else 1) ∧ (u.core.ctx n).pos = y.pos + 1 ∧
          (u.core.ctx n).last = t ∧ (u.core.ctx n).steps = y.steps + 1 ∧ (u.core.ctx n).ledCount = y.ledCount + 1 ∧
          (∀ m, m ≠ n → u.core.ctx m = s.core.ctx m) ∧
          Mem.read u.core.mem.mem led 16 =
            ledgerEntry y { t := t, source := 0, row := 0, logp := q.logp t } (y.pos + 1) 0 stop limit ∧
          Mem.read u.core.mem.mem (x.f 48 8) 4 = toLE 4 t ∧
          ∀ a, (a < led ∨ led + 16 ≤ a) → (a < x.f 48 8 ∨ x.f 48 8 + 16 ≤ a) →
            Mem.get u.core.mem.mem a = Mem.get s.core.mem.mem a)) ∧
      (let j := fld (x.f 70 1) 3 1
       let row := x.f 32 8 + (j - 1) * x.f 64 4 * logitBytes (x.f 69 1)
       let a := x.f 40 8 + 4 * (j - 1)
       x.draftMode = true → j < fld e 23 16 → x.f 32 8 ≠ 0 → x.f 40 8 ≠ 0 → x.f 69 1 ≠ 0 →
        s.core.served row (x.f 60 4 * logitBytes (x.f 69 1)) → s.core.served a 4 → a < 2 ^ 63 →
        let q := distrOf y (s.core.logitsAt (x.f 69 1) (x.f 60 4) row)
        q.kept ≠ [] →
        ∃ u, exec (.sampleDraft d) s = .next u ∧ u.dev = s.dev ∧ u.pending = s.pending ∧ u.core.isDone d ∧
          u.core.roll.ctxs = s.core.roll.ctxs ∧ u.core.mem.mem = Mem.write s.core.mem.mem a (toLE 4
            (s.core.drawToken (s.core.tombolaU n y (j - 1) 1 1) (q.kept.map fun v => (v.1, v.2.1)) q.sum).1)))

/-! ### The training step -/

/-- R239, R242, R245: a step open whose checks pass waits; it takes effect when no step is OPEN and the tail is the
step before, increments its signal tally in that same action, and gives the head step its number, base, microbatches
and members. A microbatch opens FULL at the ring claim, or BOUNDARY where there is none, and writes its mode; a close
closes it. -/
def Obligations.StepAndMicrobatchOpens : Prop :=
  ∀ (s : State) (d : Nat) (x : Desc), s.settled → s.awake → s.core.clean → s.core.plainEvents → s.core.desc? d = some x →
    let c1 := (s.core.setDesc d { x with issued := true }).noteIssue []
    let m := x.f 16 2
    let a := x.f 24 8
    (s.issues d x 0x70 → firstBad (s.core.openChecks x) = none →
      exec (.stepOpen d) s = .next (s.withCore { c1 with stp := { c1.stp with opens := c1.stp.opens ++ [d] } })) ∧
    (∀ rest, s.core.stp.opens = d :: rest → runsWork s.dev = true → s.core.stp.head = none →
      s.core.stp.everOpened = false ∨ x.f 16 4 = (s.core.step + 1) % 2 ^ 32 → s.core.openReady (x.f 16 4) = true →
      let c := s.core.openStep d x
      exec .stepOpenEffect s = .next (finish s.dev c.applyHeld.checkVote.settle s.pending) ∧ (x.issued = true → c.isDone d) ∧
      (x.signalled = false → x.ns = false → c.tally x.sigTally = (s.core.tally x.sigTally + x.inc) % 2 ^ 32) ∧
      ∃ h : StepSlot, c.step = x.f 16 4 ∧ c.stp.isOpen = true ∧ c.stp.head = some h ∧ h.step = x.f 16 4 ∧ h.st = 1 ∧
        h.base = x.f 20 4 ∧ h.n = x.f 24 2 ∧ h.members = s.core.membersAt (x.f 16 4) ∧ h.tOpen = s.core.now ∧
        c.stp.tail = s.core.stp.tail ∧ c.mem = s.core.mem) ∧
    (s.issues d x 0x71 → firstBad (s.core.mbChecks x) = none → x.f 18 1 = 1 → s.core.auxBad a 8 = none →
      (∀ b, s.core.ringClaim = some b → ∃ c : Core, exec (.microbatchOpen d) s = .next (s.withCore c) ∧ c.isDone d ∧
        KMap.get? c.stp.pal.mbs m = some { full := true, base := b, closed := false } ∧
        c.stp.pal.tail = b + s.core.stp.pal.i ∧
        c.mem.mem = (if a = 0 then s.core.mem.mem else Mem.write s.core.mem.mem a (toLE 8 1))) ∧
      (s.core.ringClaim = none → ∃ c : Core, exec (.microbatchOpen d) s = .next (s.withCore c) ∧ c.isDone d ∧
        KMap.get? c.stp.pal.mbs m = some { full := false, base := 0, closed := false } ∧
        c.stp.pal.tail = s.core.stp.pal.tail ∧
        c.mem.mem = (if a = 0 then s.core.mem.mem else Mem.write s.core.mem.mem a (toLE 8 2)))) ∧
    (s.issues d x 0x71 → firstBad (s.core.mbChecks x) = none → x.f 18 1 = 2 → s.core.auxBad a 8 = none →
      ∀ mb, KMap.get? s.core.stp.pal.mbs m = some mb →
        ∃ c : Core, exec (.microbatchClose d) s = .next (s.withCore c) ∧ c.isDone d ∧
          KMap.get? c.stp.pal.mbs m = some { mb with closed := true } ∧
          c.mem.mem = (if a = 0 then s.core.mem.mem else Mem.write s.core.mem.mem a (toLE 8 mb.mode)))

/-- R252 to R257: an update of a committed step, neither started nor applied, writes the band's masters as its rule
computes them, element by element, and counts those it kept; a REFRESH outside a step gives the bank it names the
masters in the forward format. -/
def Obligations.UpdatesWriteMasters : Prop :=
  ∀ (s : State) (d : Nat) (x : Desc), s.settled → s.awake → s.core.clean → s.core.plainEvents →
    s.issues d x 0x72 → firstBad (s.core.updChecks x) = none → s.core.uus ≠ [] →
    let es := s.core.updElems x
    let a := x.f 16 8 + 2 * x.u0
    let n := x.uCount
    let apart (b m : Nat) : Prop := a + 2 * n ≤ b ∨ b + m ≤ a
    (∀ opt i, opt = 0 ∧ i = .updateSgd d ∨ opt = 1 ∧ i = .updateAdamw d ∨ opt = 2 ∧ i = .updateSignMomentum d →
      x.uOpt = opt → x.uFmt = 0 → s.core.jApplied x.uHod = false → s.core.jStarted x.uHod = false →
      (s.core.stp.tail.any fun t => t.nonfinite) = false →
      (∀ r ∈ s.core.updRanges x true, s.core.served r.2.1 r.2.2) →
      apart (x.f 24 8 + x.u0) n → apart (x.f 32 8 + x.u0) n → apart x.uLines.1 x.uLines.2 →
      apart (x.f 48 8 + x.u0) n →
      ∃ c : Core, exec i s = .next (s.withCore c) ∧ c.isDone d ∧
        Mem.read c.mem.mem a (2 * es.length) = es.flatMap (fun e => toLE 2 e.m) ∧
        c.stp.tail.map StepSlot.kept = s.core.stp.tail.map (fun t => t.kept + (es.filter UpdE.kept).length)) ∧
    (x.uOpt = 3 → x.uFmt = 0x08 → s.core.outside x = true →
      (∀ r ∈ s.core.updRanges x false, s.core.served r.2.1 r.2.2) →
      let b := x.uStep % 2
      ∃ c : Core, exec (.refresh d) s = .next (s.withCore c) ∧ c.isDone d ∧ (c.bank b).state = 4 ∧
        (c.bank b).byStep = false ∧ (c.bank b).holds = false ∧
        c.mem.mem = Mem.write s.core.mem.mem (s.core.bankBase b + x.f 56 8 + 2 * x.u0)
          ((s.core.masters x).flatMap fun p => toLE 2 p.1))

/-- R258 to R261, Table 8.5: a requested bank without readers and references is granted to the tail step; PUBLISH
makes the step's bank NEWEST with the next version, LOAD a bank with the version it names; the other bank becomes
PREVIOUS, and the descriptor's signal tally is incremented in the same action. R263: an export of the version a bank
holds to host memory copies the range, writes its result with status 0x01, and leaves the bank as it found it; one
that takes too long ends with status 0x04 and gives its reference back. -/
def Obligations.BanksAndExports : Prop :=
  (∀ (s : State) (d b : Nat) (x : Desc), s.settled → s.awake →
     let c1 := (s.core.setDesc d { x with issued := true }).noteIssue []
     (runsWork s.dev = true → b < 2 → (s.core.bank b).state = 3 → s.core.bankFree b = true →
       ∃ c : Core, exec (.bankGrant b) s = .next (s.withCore c) ∧
         c.bank b = { s.core.bank b with state := 4, holds := false } ∧ c.bank (1 - b) = s.core.bank (1 - b) ∧
         c.stp.tail = s.core.stp.tail.map (fun t => { t with st := 3, tGrant := s.core.now }) ∧ c.roll.hold = none ∧
         c.mem = s.core.mem) ∧
     (∀ nb, s.issues d x 0x73 → x.f 20 1 = 1 → firstBad (s.core.curtainChecks x) = none → s.core.newest = some nb →
       b = (if (s.core.bank 1).byStep && (s.core.bank 1).state == 4 then 1 else 0) →
       let v := ((s.core.bank nb).version + 1) % 2 ^ 32
       ∃ c : Core, exec (.publish d) s = .next (finish s.dev c.sendFp.settle s.pending) ∧ c.isDone d ∧
         (c.bank b).state = 1 ∧ (c.bank b).version = v ∧ (c.bank b).holds = true ∧
         c.bank (1 - b) = { s.core.bank (1 - b) with state := 2 } ∧
         (x.signalled = false → x.ns = false → c.tally x.sigTally = (s.core.tally x.sigTally + x.inc) % 2 ^ 32) ∧
         c.stp.tail = s.core.stp.tail.map (fun t =>
           { t with st := 4, version := v, published := true, tPublish := s.core.now }) ∧ c.mem = s.core.mem) ∧
     (s.issues d x 0x73 → x.f 20 1 = 2 → firstBad (s.core.curtainChecks x) = none → b = x.f 21 1 →
       let c := ((c1.curtain b (x.f 16 4)).workDone d).signalNow d
       exec (.load d) s = .next (s.withCore c) ∧ c.isDone d ∧ (c.bank b).state = 1 ∧ (c.bank b).version = x.f 16 4 ∧
       (c.bank b).holds = true ∧ c.bank (1 - b) = { s.core.bank (1 - b) with state := 2 } ∧
       (x.signalled = false → x.ns = false → c.tally x.sigTally = (s.core.tally x.sigTally + x.inc) % 2 ^ 32))) ∧
  (∀ (s : State) (d : Nat) (x : Desc), s.settled → s.awake → s.core.clean → s.core.plainEvents →
     (s.issues d x 0x74 → firstBad (s.core.exportChecks x) = none → x.f 21 1 = 0 → s.core.lbad (x.f 48 8) 16 = none →
       let b := x.f 20 1
       let src := s.core.bankBase b + x.f 24 8
       let n := x.f 32 8
       (s.core.bank b).holds = true → (s.core.bank b).version = x.f 16 4 → (s.core.bank b).state ≠ 3 →
       (s.core.bank b).state ≠ 4 → KMap.get? s.core.stp.exports d = none → src < 2 ^ 63 →
       s.core.lbad src n = none →
       ∃ c : Core, exec (.exportBank d) s = .next (s.withCore c) ∧ c.isDone d ∧ c.bank b = s.core.bank b ∧
         c.hostRead (s.core.queueFn x.queue) (x.f 40 8) n = s.core.bytes src n ∧
         c.mem.mem = Mem.write s.core.mem.mem (x.f 48 8)
           (toLE 8 (crc64 (s.core.bytes src n)) ++ toLE 1 1 ++ toLE 7 0)) ∧
     (∀ r, s.core.desc? d = some x → KMap.get? s.core.stp.exports d = some r →
       ∃ c : Core, exec (.exportTimeout d) s = .next (s.withCore c) ∧ KMap.get? c.stp.exports d = none ∧
         (c.bank r.bank).exports = (s.core.bank r.bank).exports - 1 ∧
         c.mem.mem = Mem.write s.core.mem.mem (x.f 48 8) (toLE 8 r.crc ++ toLE 1 4 ++ toLE 7 0)))

/-! ### The exchange -/

/-- R279, R280, R312: the owner of an open hod adds the blocks of a DEPOSIT to the sums its slot keeps in P7, in FP32,
the first arrival of a block being written, and counts them by block and by contributor, all of which memory shows; a
first arrival takes a free slot, with counts of zero; an END marks its sender. R276: a member that does not own the
hod reads the hod's row and refuses both. Said of a slot of aligned blocks that overlaps neither the hod's row nor a
pool's state area. Where the sums and counts lie in a slot is log 52's, where the blocks lie in a message log 60's. -/
def Obligations.ContributionsAreSummed : Prop :=
  ∀ (s : State) (m : XMsg) (h : StepSlot), s.awake → exServes s.dev = true → s.core.stp.head = some h →
    s.core.stp.everOpened = true → m.step = s.core.step → m.hod < s.core.hodCount →
    (∀ a : HodAcc, s.core.clean → s.core.ownsHod m = true → (s.core.hod m.hod).ring = false →
      m.hod ∉ s.core.xch.closed → (s.core.slot? m.hod).isSome = true ∨ s.core.xch.slots.length < s.core.obj 0x8011 3 →
      let c0 := if (s.core.slot? m.hod).isSome then s.core else s.core.openSlot m.hod
      c0.slot? m.hod = some a →
      let x := s.core.hod m.hod
      let base := c0.slotBase a
      let size := 4 * x.elems + 2 * x.blocks + 1088
      let row := s.core.obj 0x8010 1 + 32 * m.hod
      let n := min 6 m.count
      base % 128 = 0 → row + 32 ≤ base ∨ base + size ≤ row → (∀ k < 4, s.core.meetsArea k base size = false) →
      m.sender < 256 → m.first + n ≤ x.blocks →
      ((s.core.slot? m.hod).isSome = false → (∀ i < x.blocks, c0.slotCnt base x i = 0) ∧ a.ended = [] ∧
        a.first = s.core.now ∧ ∀ b ∈ s.core.xch.slots, b.at_ ≠ a.at_) ∧
      (m.kind = 1 → 0 < n → ∃ (c : Core) (b : HodAcc),
        exec (.depositReceived m) s =
          .next (finish s.dev (c.answerX m.sender 0 (some (msgBytes m))).settle s.pending) ∧
        c.slot? m.hod = some b ∧ b.ended = a.ended ∧ b.at_ = a.at_ ∧
        c.slotGot base x m.sender = (c0.slotGot base x m.sender + n) % 2 ^ 32 ∧
        c.obj 0x8880 2 = min (s.core.obj 0x8880 2 + n) (objMax 0x8880 2) ∧
        (∀ j < n, c.slotCnt base x (m.first + j) = (c0.slotCnt base x (m.first + j) + 1) % 2 ^ 16 ∧
          let vs := blkVals (numAt m.payload (34 * j) 2) (bytesAt m.payload (34 * j + 2) 32)
          Mem.read c.mem.mem (base + 128 * (m.first + j)) 128 =
            (if c0.slotCnt base x (m.first + j) = 0 then vs.flatMap fun v => toLE 4 (f32Code (rnd32 v))
             else (vs.zip (c0.slotSum base (m.first + j))).flatMap fun p => toLE 4 (f32Code (fadd p.2 p.1)))) ∧
        (∀ i < x.blocks, i < m.first ∨ m.first + n ≤ i → c.slotCnt base x i = c0.slotCnt base x i ∧
          Mem.read c.mem.mem (base + 128 * i) 128 = Mem.read c0.mem.mem (base + 128 * i) 128) ∧
        ∀ q, q < base ∨ base + size ≤ q → Mem.get c.mem.mem q = Mem.get s.core.mem.mem q) ∧
      (m.kind = 2 → ∃ (c : Core) (b : HodAcc),
        exec (.endReceived m) s =
          .next (finish s.dev (c.answerX m.sender 0 (some (msgBytes m))).settle s.pending) ∧
        c.slot? m.hod = some b ∧ b.ended = insertNat m.sender a.ended ∧ b.at_ = a.at_ ∧
        c.mem.mem = c0.mem.mem)) ∧
    (s.core.ownsHod m = false → m.kind = 1 ∨ m.kind = 2 →
      let t : State := finish s.dev ((s.core.readHod m.hod).2.answerX m.sender 3 (some (msgBytes m))).settle s.pending
      exec (if m.kind = 1 then .depositReceived m else .endReceived m) s = .next t)

/-- R280, R281: at either deadline, once its time has come, the owner closes an open hod: it is counted, and its
image, which passes a receiver's checks, is queued for itself, every other member of the step and every listener. -/
def Obligations.HodsCloseAtDeadlines : Prop :=
  ∀ (s : State) (k : Nat) (h : StepSlot), s.awake → exServes s.dev = true → s.core.clean → s.core.hodOpen k = true →
    s.core.stp.head = some h → h.step < 2 ^ 32 → k < 2 ^ 32 → (s.core.hod k).blocks < 2 ^ 32 →
    ∃ (c : Core) (img : List Byte),
      (s.core.openDue = true → exec (.hodDeadlineOpen k) s = .next (finish s.dev c.settle s.pending)) ∧
      (s.core.firstDue k = true → exec (.hodDeadlineFirst k) s = .next (finish s.dev c.settle s.pending)) ∧
      k ∈ c.xch.closed ∧ c.mem.mem = s.core.mem.mem ∧ imageGood img h.step k (s.core.hod k).blocks = true ∧
      bitAt (numAt img 51 1) 0 = true ∧
      c.obj 0x8880 3 = min (s.core.obj 0x8880 3 + 1) (objMax 0x8880 3) ∧
      c.obj 0x8880 4 = min (s.core.obj 0x8880 4 + 1) (objMax 0x8880 4) ∧
      ∀ mem, mem = s.core.me ∨ mem ∈ h.members ∨ mem ∈ s.core.xch.listened → ∀ i < ceilDiv img.length 204,
        ∃ o ∈ c.xch.out, o.tgt = mem ∧ o.msg.kind = 5 ∧ o.msg.step = h.step ∧ o.msg.hod = k ∧
          o.msg.imageOff = 204 * i ∧ o.msg.payload = bytesAt ((img.drop (204 * i)).take 204) 0 204 ∧ o.tag = none

/-- R283: a part of an image goes to its place in the image area; the last part of a good image makes it held, which
the journal and 0x8880:0D say; while the tail step still needs the image in place the receiver answers BUSY. An owner
asked again queues the image it holds once more. -/
def Obligations.ImagesAreHeld : Prop :=
  ∀ (s : State) (m : XMsg), s.awake → exServes s.dev = true → s.core.clean → m.kind = 5 → m.hod < s.core.hodCount →
    let c := s.core
    let size := (c.hod m.hod).imgBytes
    let n := min 204 (size - m.imageOff)
    let a := c.imgAddr m.hod + m.imageOff
    (c.holdOff m.hod = true → ∃ t : Core,
      exec (.imageReceived m) s = .next (finish s.dev (t.answerX m.sender 2 (some (msgBytes m))).settle s.pending) ∧
      t.mem.mem = c.mem.mem ∧ t.xch = c.xch ∧ t.obj 0x8880 0xA = min (c.obj 0x8880 0xA + 1) (objMax 0x8880 0xA)) ∧
    (∀ rs, c.holdOff m.hod = false → c.heldFor m.hod m.step = false → c.jStep m.hod = m.step →
      KMap.get? c.xch.imgGot m.hod = some rs → 0 < n →
      let done := (addRange (m.imageOff, m.imageOff + n) rs).any fun r => r.1 == 0 && size ≤ r.2
      (done = false → ∃ t : Core,
        exec (.imageReceived m) s = .next (finish s.dev (t.answerX m.sender 0 (some (msgBytes m))).settle s.pending) ∧
        t.mem.mem = Mem.write c.mem.mem a (bytesAt m.payload 0 n) ∧ t.stp = c.stp ∧
        KMap.get? t.xch.imgGot m.hod = some (addRange (m.imageOff, m.imageOff + n) rs)) ∧
      (done = true → (c.hod m.hod).ring = false → c.stp.head = none ∨ c.xch.voted = true →
        let c1 := c.put a (bytesAt m.payload 0 n)
        c1.hod m.hod = c.hod m.hod → c1.jAddr m.hod = c.jAddr m.hod →
        imageGood (c1.bytes (c.imgAddr m.hod) size) m.step m.hod (c.hod m.hod).blocks = true → ∃ t : Core,
        exec (.imageReceived m) s = .next (finish s.dev (t.answerX m.sender 0 (some (msgBytes m))).settle s.pending) ∧
        t.mem.mem = Mem.write (Mem.write c.mem.mem a (bytesAt m.payload 0 n)) (c.jAddr m.hod)
          (toLE 4 1 ++ toLE 4 m.step) ∧
        t.obj 0x8880 0xD = min (c.obj 0x8880 0xD + 1) (objMax 0x8880 0xD) ∧
        KMap.get? t.xch.imgGot m.hod = none)) ∧
    (c.jHeld m.hod = true → ∃ t : Core,
      exec (.imageRequestedAgain m.sender m.hod) s = .next (finish s.dev t.settle s.pending) ∧ t.mem.mem = c.mem.mem ∧
      let img := c.bytes (c.imgAddr m.hod) size
      ∀ i < ceilDiv img.length 204, ∃ o ∈ t.xch.out, o.tgt = m.sender ∧ o.msg.kind = 5 ∧ o.msg.hod = m.hod ∧
        o.msg.imageOff = 204 * i ∧ o.msg.payload = bytesAt ((img.drop (204 * i)).take 204) 0 204)

/-- R284, R285, R287: a hop of a ring hod that holds its own block adds the partial that comes in to it, element by
element in FP32, and sends the sums to the next member, one contribution richer, encoded at the exponent that came in;
where that was 0, at the block's own with the margin. After its last block a RING_END goes on with its own bit set,
and the slot is released. (One block to a message and the slot's release at a hop are the model's reading, log 61;
where sums and blocks lie is that of logs 52 and 60.) A message not accepted in time goes to the member after the one
it was for. R278, R347: an XANS that says ACCEPT ends the message sent under its tag; one that says RETRY or BUSY
leaves it, to be sent again when its timer runs out, which 0x8880:07 counts. -/
def Obligations.RingHopsAndAnswers : Prop :=
  (∀ (s : State) (m : XMsg) (h : StepSlot) (a : HodAcc) (nxt : Nat), s.awake → exServes s.dev = true →
     s.core.clean → s.core.links.ended = [] → s.core.stp.head = some h → nextOf h.members s.core.me = some nxt →
     (s.core.stp.everOpened = true → m.step = s.core.step → m.hod < s.core.hodCount → m.hod ∉ s.core.xch.closed →
       s.core.slot? m.hod = some a → (s.core.hod m.hod).ring = true →
       ownerIn h.members (s.core.hod m.hod).owner ≠ s.core.me →
       nextOf h.members (ownerIn h.members (s.core.hod m.hod).owner) ≠ some s.core.me →
       (∀ (word : Nat) (esc : Bool) (vs : List Machine.Num), m.kind = 3 → m.count = 1 → m.first ∉ a.done →
         m.first < (s.core.hod m.hod).blocks →
         s.core.slotCnt (s.core.slotBase a) (s.core.hod m.hod) m.first ≠ 0 → ringBlocks m 1 0 0 = [(word, esc, vs)] →
         (∀ k < 4, s.core.meetsArea k (s.core.slotBase a + 128 * m.first) 128 = false) →
         let sums := (vs.zip (s.core.slotSum (s.core.slotBase a) m.first)).map fun p => f32 (f32Code (fadd p.2 p.1))
         let out := if word % 256 = 0 then s.core.firstExp 0 sums else word
         let coded := ringBlk (s.core.exKey h.step) m.hod m.first out esc sums
         ∃ c : Core, exec (.ringReceived m) s =
             .next (finish s.dev (c.answerX m.sender 0 (some (msgBytes m))).settle s.pending) ∧
           ∃ o ∈ c.xch.out, o.tgt = nxt ∧ o.msg.kind = 3 ∧ o.msg.step = h.step ∧ o.msg.hod = m.hod ∧
             o.msg.first = m.first ∧ o.msg.count = 1 ∧ o.msg.contribs = m.contribs + 1 ∧
             o.msg.payload = bytesAt (toLE 2 out ++ coded.1) 0 204 ∧ o.msg.esc = if coded.2.1 then 1 else 0) ∧
       (m.kind = 4 → a.closed = false → (s.core.hod m.hod).blocks ≤ a.done.length →
         ∃ c : Core, exec (.ringEndReceived m) s =
             .next (finish s.dev (c.answerX m.sender 0 (some (msgBytes m))).settle s.pending) ∧
           c.slot? m.hod = none ∧ m.hod ∈ c.xch.closed ∧
           ∃ o ∈ c.xch.out, o.tgt = nxt ∧ o.msg.kind = 4 ∧ o.msg.hod = m.hod ∧ o.msg.payload =
             bytesAt (toLE 32 (bitmap (insertNat s.core.me (membersOf (numAt m.payload 0 32))))) 0 204)) ∧
     (∀ (tag : Nat) (o : OutMsg), s.core.outByTag tag false = some o → o.msg.kind = 3 ∨ o.msg.kind = 4 →
       s.core.links.tagWaits = [] → ∃ c : Core,
         exec (.ringHopTimeout tag) s = .next (finish s.dev c.settle s.pending) ∧
         c.obj 0x8880 0xC = min (s.core.obj 0x8880 0xC + 1) (objMax 0x8880 0xC) ∧
         { o with
           tgt := (nextOf (s.core.membersFor o.msg.step) o.tgt).getD o.tgt, tag := none, again := false } ∈ c.xch.out)) ∧
  (∀ (s : State) (tag : Nat) (o : OutMsg), s.awake → exServes s.dev = true → s.core.links.ended = [] →
     (∀ (code h : Nat) (t : Txn), KMap.get? s.core.links.txns tag = some t → t.use = .xmsg h →
       s.core.links.tagWaits = [] → s.core.outByTag tag false = some o →
       let a : XAnswer := { tag := tag, code := code }
       ∃ c : Core, exec (.xansReceived [a]) s = .next (finish s.dev c.settle s.pending) ∧
         KMap.get? c.links.txns tag = none ∧ c.mem = s.core.mem ∧ c.stp = s.core.stp ∧
         (code = 0 ∨ code = 3 → c.xch.out = s.core.xch.out.erase o) ∧
         (code = 1 ∨ code = 2 → { o with again := true } ∈ c.xch.out)) ∧
     (s.core.outByTag tag true = some o → ∃ c : Core,
       exec (.resendTimer tag) s = .next (finish s.dev c.settle s.pending) ∧
       { o with tag := none, again := false } ∈ c.xch.out ∧ c.mem = s.core.mem ∧
       c.obj 0x8880 7 = min (s.core.obj 0x8880 7 + 1) (objMax 0x8880 7)))

/-- R289, R290: the leader counts a vote that carries its own CRCs as a vote and any other as a NOVOTE; when the
window closes, a majority brings COMMIT to every member of the step, anything else ABANDON, naming those that sent
neither. A member that has not voted in time sends NOVOTE. -/
def Obligations.VotesDecide : Prop :=
  ∀ (s : State) (step member hodCrc memberCrc : Nat) (novote : Bool), s.awake → exServes s.dev = true →
    let c := s.core
    let l := c.xch.lead
    let ms := c.membersFor l.step
    (leaderOf ms = some c.me → member ∈ ms → l.step = step → l.decided = false → member ∉ l.votes →
      member ∉ l.novotes → (∃ m ∈ ms, m ≠ member ∧ m ∉ l.votes ∧ m ∉ l.novotes) →
      let good := novote = false ∧ hodCrc = c.obj 0x8010 3 ∧ memberCrc = membershipCrc ms
      ∃ t : Core, exec (.voteReceived step member novote hodCrc memberCrc) s =
          .next (finish s.dev t.settle s.pending) ∧
        (good → t.xch.lead = { l with windowAt := some (l.windowAt.getD c.now), votes := member :: l.votes }) ∧
        (¬good → t.xch.lead = { l with windowAt := some (l.windowAt.getD c.now), novotes := member :: l.novotes }) ∧
        t.mem = c.mem ∧ t.stp = c.stp) ∧
    (l.windowAt.isSome = true → l.decided = false →
      let cset := meets ms l.votes
      ∃ t : Core, exec .voteWindowExpiry s = .next (finish s.dev t.settle s.pending) ∧ t.xch.lead.decided = true ∧
        (ms.length < 2 * cset.length → c.xch.granted = none → c.xch.back = none →
          ({ step := l.step, c := cset, listeners := [] } : Closing) ∈ t.xch.lead.closing ∧
          ∀ m ∈ ms, m ≠ c.me → t.sentTo m (.commit l.step cset [] [] ((l.step + 1) % 2 ^ 32))) ∧
        (2 * cset.length ≤ ms.length → ∀ m ∈ ms, m ≠ c.me →
          t.sentTo m (.abandon l.step (minus ms (l.votes ++ l.novotes))))) ∧
    (∀ (h : StepSlot) (to_ : Nat), c.stp.head = some h → c.xch.voted = false → leaderOf h.members = some to_ →
      to_ ≠ c.me → ∃ t : Core, exec .novoteTimeout s = .next (finish s.dev t.settle s.pending) ∧
        t.xch.voted = true ∧ t.mem = c.mem ∧ t.stp = c.stp ∧
        t.sentTo to_ (.novote h.step c.me ((List.range c.hodCount).filter fun k => c.heldFor k h.step).length))

/-- R240, R291, R292: a member of C forwards a COMMIT once; its head step is COMMITTED with C, its tally goes up by
one, and the members left out leave the next membership. A member outside C stops. An ABANDON, or a wait that runs
out, releases the slots of the step and aborts it; memory and tallies stay; the members it names silent are not in the
step after, be that open already or not (R275). -/
def Obligations.CommitsAndAbandons : Prop :=
  ∀ (s : State) (h : StepSlot) (step as_ : Nat) (cset silent : List Nat), s.awake → exServes s.dev = true →
    s.core.stp.head = some h → h.step = step →
    let c := s.core
    let aborted (t : Core) (gone : List Nat) : Prop :=
      t.stp.head = none ∧ t.stp.isOpen = false ∧ t.stp.tail = c.stp.tail ∧ t.xch.slots = [] ∧
        step ∈ t.xch.abandoned ∧ t.mem = c.mem ∧
        (∀ m, m ∈ t.membersAt ((step + 1) % 2 ^ 32) ↔ m ∈ c.membersAt ((step + 1) % 2 ^ 32) ∧ m ∉ gone) ∧
        t.links.tallies = c.links.tallies ∧ t.obj 0x8880 0x10 = min (c.obj 0x8880 0x10 + 1) (objMax 0x8880 0x10)
    (step ∉ c.xch.seen → step ∉ c.xch.abandoned → c.me ∈ h.members → c.step = step →
      (c.me ∈ cset → c.stp.tail = none → ∃ (t : Core) (u : StepSlot),
        exec (.commitReceived step cset [] [] as_) s = .next (finish s.dev t.settle s.pending) ∧
        (∀ m ∈ h.members, m ≠ c.me → t.sentTo m (.commit step cset [] [] as_)) ∧
        t.stp.head = none ∧ t.stp.tail = some u ∧ u.step = step ∧ u.st = 2 ∧ u.commitSet = cset ∧
        (u.dropped = true ↔ cset ≠ h.members) ∧ u.tCommit = c.now ∧
        t.tally h.tally = (c.tally h.tally + 1) % 2 ^ 32 ∧ t.xch.next = minus c.xch.next (minus h.members cset) ∧
        t.obj 0x8880 0xF = min (c.obj 0x8880 0xF + 1) (objMax 0x8880 0xF)) ∧
      (c.me ∉ cset → c.plainEvents → ∃ t, exec (.commitReceived step cset [] [] as_) s = .next t ∧ t.dev = .faultStop)) ∧
    (c.xch.heldCommit = none → ∃ t : Core,
      exec (.abandonReceived step silent) s = .next (finish s.dev t.settle s.pending) ∧ aborted t silent) ∧
    (∀ k, step = (k + 1) % 2 ^ 32 → c.xch.heldCommit = none → k ≠ step → ∃ t : Core,
      exec (.abandonReceived k silent) s = .next (finish s.dev t.settle s.pending) ∧
      t.stp.head = some { h with members := minus h.members silent } ∧ t.mem = c.mem) ∧
    (c.xch.heldCommit = none → c.xch.voted = true → ∃ t : Core,
      exec .commitWaitExpiry s = .next (finish s.dev t.settle s.pending) ∧ aborted t [])

/-- R294, R295: the leader keeps each member's summary by step, also while the step after is voted on; when its window
closes it sends CLOSE with the summary that more than half of C sent, leaving out who sent another, reports torn hods,
or sent none. A member that CLOSE does not leave out closes its tail step; one left out, and every member of C under
the split flag, enters FAULT_STOP. -/
def Obligations.FingerprintsCloseSteps : Prop :=
  ∀ (s : State) (step member summary torn : Nat), s.awake → exServes s.dev = true →
    let c := s.core
    let ls := c.xch.lead.closing
    (∀ l, ls.find? (fun x => x.step == step) = some l → member ∈ l.c ++ l.listeners →
      (∃ m ∈ l.c, m ≠ member ∧ KMap.get? l.fps m = none) → ∃ t : Core,
        exec (.fpReceived step member summary torn) s = .next (finish s.dev t.settle s.pending) ∧
        t.xch.lead.closing = (ls.map fun x => if x.step = step then
          { l with fps := KMap.set l.fps member (summary, torn), fpAt := some (l.fpAt.getD c.now) } else x) ∧
        t.mem = c.mem ∧ t.stp = c.stp) ∧
    (∀ l, ls.find? (fun x => x.fpAt.isSome) = some l → ∃ (t : Core) (ex : List Nat),
      exec .fpWindowExpiry s = .next (finish s.dev t.settle s.pending) ∧
      (∀ m ∈ l.c ++ l.listeners, m ≠ c.me →
        t.sentTo m (.close l.step ((agreedOf l.c l.fps).getD 0) ex (agreedOf l.c l.fps).isNone)) ∧
      ∀ a, agreedOf l.c l.fps = some a → ∀ m ∈ l.c ++ l.listeners, m ∈ ex ↔
        (KMap.get? l.fps m = none ∧ m ∈ l.c) ∨
          ∃ x n, KMap.get? l.fps m = some (x, n) ∧ (n ≠ 0 ∨ x ≠ a)) ∧
    (∀ (u : StepSlot) (agreed : Nat) (ex : List Nat), c.stp.tail = some u → u.step = step →
      (c.me ∉ ex → ∃ t : Core,
        exec (.closeReceived step agreed ex false) s = .next (finish s.dev t.settle s.pending) ∧
        t.xch.lastClosed = step ∧ t.xch.agreed = agreed ∧
        (c.stp.head = none → t.stp.tail = none ∧ t.xch.next = minus c.xch.next ex)) ∧
      (c.me ∈ ex → c.plainEvents → ∃ t, exec (.closeReceived step agreed ex false) s = .next t ∧ t.dev = .faultStop) ∧
      (c.plainEvents → ∃ t, exec (.closeReceived step agreed ex true) s = .next t ∧ t.dev = .faultStop))

/-- R298 to R300: a member whose fault is cleared asks its leader, and asks again until GRANT; a leader keeps the
request, another member forwards it; GRANT takes the rejoiner into REJOIN with no step and both banks EMPTY; when the
pulls are complete and every image of the next step is held it sends DONE to the leader that granted and is READY; the
leader notes DONE. (That a leader in FAULT_STOP or REJOIN keeps a request is the model's reading, log 147.) Last, a
hold that runs out takes the rejoiner back to FAULT_STOP and ends the grant at the leader. -/
def Obligations.RejoinRuns : Prop :=
  ∀ (s : State) (src : Src) (leader member last r v : Nat), s.awake →
    let c := s.core
    let asks (t : Core) : Prop := ∀ l, c.rejoinLeader = some l → t.sentTo l (.rejoinReq c.me c.xch.lastClosed)
    (c.reach s.dev src 0x8050 0 true = true → directBad src 0x8050 0 = false →
      (s.dev = .faultStop ∧ c.log.cleared = true) ∨ (s.dev = .ready ∧ c.stp.openedSinceBoot = false) → ∃ t : Core,
        exec (.rejoinRequest src) s = .next (finish s.dev t s.pending) ∧ t.xch.asked = true ∧ asks t ∧
        t.dict.lastStatus = stOk ∧ t.mem = c.mem ∧ t.stp = c.stp) ∧
    (s.dev = .ready → c.xch.asked = true → c.xch.grant = none → ∃ t : Core,
      exec .rejoinReqResend s = .next (finish s.dev t s.pending) ∧ asks t ∧ t.mem = c.mem ∧ t.stp = c.stp) ∧
    (exServes s.dev = true → ∀ l, leaderOf c.xch.next = some l → ∃ t : Core,
      exec (.rejoinReqReceived member last) s = .next (finish s.dev t.settle s.pending) ∧ t.mem = c.mem ∧
      t.stp = c.stp ∧ (l = c.me → (member, last) ∈ t.xch.reqs) ∧ (l ≠ c.me → t.sentTo l (.rejoinReq member last))) ∧
    (s.dev = .faultStop ∨ s.dev = .rejoin → leaderOf c.xch.next = some c.me → ∃ t : Core,
      exec (.rejoinReqReceived member last) s = .next (finish s.dev t s.pending) ∧ (member, last) ∈ t.xch.reqs) ∧
    (c.xch.asked = true →
      (s.dev = .faultStop ∧ c.log.cleared = true) ∨ (s.dev = .ready ∧ c.stp.openedSinceBoot = false) → ∃ t : Core,
        exec (.grantReceived leader r member c.me v) s = .next (finish .rejoin t s.pending) ∧
        t.xch.grant = some (r, member, v) ∧ t.xch.granter = leader ∧ t.xch.pulled = 0 ∧ t.xch.slots = [] ∧ t.stp.isOpen = false ∧
        t.stp.head = none ∧ t.stp.tail = none ∧ (t.bank 0).state = 0 ∧ (t.bank 1).state = 0) ∧
    (∀ n, s.dev = .rejoin → c.xch.grant = some (r, n, v) → c.xch.pullImages = true → c.xch.pullLeft = [] →
      c.xch.pullFlight = 0 → (∀ h < c.hodCount, c.heldFor h ((r + 1) % 2 ^ 32) = true) → ∃ t : Core,
        exec .rejoinPullDone s = .next (finish .ready t s.pending) ∧ t.xch.asked = false ∧ t.mem = c.mem ∧
        t.xch.pulled = c.xch.pulled ∧ (c.xch.granter ≠ c.me → t.sentTo c.xch.granter (.done c.me))) ∧
    (exServes s.dev = true → c.xch.granted = some (member, r) → c.xch.lead.ready = none → ∃ t : Core,
      exec (.doneReceived member) s = .next (finish s.dev t.settle s.pending) ∧ t.xch.granted = none ∧
      t.xch.back = some (member, r) ∧ t.mem = c.mem ∧ t.stp = c.stp) ∧
    (s.dev = .rejoin → c.plainEvents → ∃ t, exec .rejoinHoldExpiry s = .next t ∧ t.dev = .faultStop) ∧
    (exServes s.dev = true → c.xch.granted.isSome = true → c.xch.lead.ready = none → ∃ t : Core,
      exec .rejoinHoldExpiry s = .next (finish s.dev t.settle s.pending) ∧ t.xch.granted = none)

/-! ### Memory and ports -/

/-- R309, R313, R319, R320: a slot serves the request that its pseudo-channel picks, counts it and takes its tokens;
an aged entry of the write-combining buffer leaves it, and memory reads as before. R323 to R326, R333: patrol corrects
one bad symbol of a sector and one flipped bit of a word, counting it, and poisons the unit where two are bad. R328:
an accepted repair runs and ends APPLIED with its row replaced, or failed with nothing replaced. -/
def Obligations.MemoryKeepsItself : Prop :=
  ∀ (s : State), s.settled → s.awake → s.core.unpoisoned →
    let c := s.core
    (∀ (pc : Nat) (r : HbmReq) (sp : Bool), c.pickReq pc = some (r, sp) → c.roll.ends = [] →
      let sub := if r.kind = 0 then 1 else 2
      let k := pc % 8 * 16 + r.part
      ∃ t : Core, exec (.hbmSlot pc) s = .next (s.withCore t) ∧ t.mem.reqs = c.mem.reqs.erase r ∧
        KMap.getD t.mem.tokens k 0 = max (c.tokens (pc % 8) r.part - 2048000) (-2048000) ∧ t.mem.mem = c.mem.mem ∧
        t.mem.wcb = c.mem.wcb ∧
        t.obj (0x9180 + r.part) sub = min (c.obj (0x9180 + r.part) sub + 1) (objMax (0x9180 + r.part) sub)) ∧
    (∀ (stack n : Nat) (e : WcbEntry), (c.mem.wcb.filter fun x => x.stack == stack)[n]? = some e → ∃ t : Core,
      exec (.wcbAgeWriteback stack n) s = .next (s.withCore t) ∧ t.mem.mem = c.mem.mem ∧ e ∉ t.mem.wcb ∧
      ∀ x ∈ c.mem.wcb, ¬(x.pc = e.pc ∧ x.j = e.j) → x ∈ t.mem.wcb) ∧
    (∀ u, u % 64 = 0 → patrols s.dev = true → u < c.hbmBytes → u < tsBase → KMap.get? c.mem.injSyms u = none →
      u ∉ c.mem.poison →
      (∃ t : Core, exec (.hbmPatrolScrub u 1) s = .next (finish s.dev t s.pending) ∧ t.mem.mem = c.mem.mem ∧
        t.mem.poison = c.mem.poison ∧ t.obj 0x9880 1 = min (c.obj 0x9880 1 + 1) (objMax 0x9880 1)) ∧
      ∃ t : Core, exec (.hbmPatrolScrub u 2) s = .next (finish s.dev t s.pending) ∧ t.mem.mem = c.mem.mem ∧
        u ∈ t.mem.poison ∧ t.obj 0x9880 3 = min (c.obj 0x9880 3 + 1) (objMax 0x9880 3)) ∧
    (∀ u flips, u % 8 = 0 → patrols s.dev = true → tsBase ≤ u → u < tsBase + tsBytes →
      KMap.get? c.mem.tsFlips u = none → u ∉ c.mem.poison → flips < 2 ^ 64 →
      (singleBit flips = true → ∃ t : Core, exec (.tileStoreScrub u flips) s = .next (s.withCore t) ∧ t.mem = c.mem ∧
        t.obj 0x9880 6 = min (c.obj 0x9880 6 + 1) (objMax 0x9880 6)) ∧
      (flips ≠ 0 → singleBit flips = false → ∃ t : Core,
        exec (.tileStoreScrub u flips) s = .next (finish s.dev t s.pending) ∧ u ∈ t.mem.poison ∧
        t.mem.mem = c.mem.mem ∧ t.obj 0x9880 7 = min (c.obj 0x9880 7 + 1) (objMax 0x9880 7))) ∧
    (∀ src, c.opGate s.dev src 0x9800 3 = stOk → s.dev = .ready → c.mem.repairRun = none →
      let g := c.obj 0x9800 1
      let k := c.obj 0x9800 2
      c.repairTargetOk g k = true → c.spareLeft g k = true → ∃ t : Core,
        exec (.repairExecute src) s = .next (s.withCore t) ∧ t.mem.repairRun = some (g, k) ∧
        t.mem.mem = c.mem.mem ∧ t.dict.lastStatus = stOk ∧ ∀ e ∈ t.mem.wcb, e ∈ c.mem.wcb ∧ e.pc ≠ targetPc g) ∧
    (∀ g k, c.mem.repairRun = some (g, k) →
      (∃ t : Core, exec (.serviceRepairCompletes true) s = .next (finish s.dev t s.pending) ∧
        t.mem.repairRun = none ∧ t.mem.repairs = c.mem.repairs ++ [(g, k)] ∧ t.obj 0x9800 4 = 1) ∧
      ∃ t : Core, exec (.serviceRepairCompletes false) s = .next (finish s.dev t s.pending) ∧
        t.mem.repairRun = none ∧ t.mem.repairs = c.mem.repairs ∧ 2 ≤ t.obj 0x9800 4 ∧ t.obj 0x9800 4 ≤ 5)

/-- Table 11.2 (R339, R340): a DOWN port that is enabled starts training; training that succeeds makes it ACTIVE with
full credits for every class, one that fails leaves it DOWN; a lost signal, and a RECOVER that takes too long, take it
DOWN, which 0x8900+f:0B counts; one that ends within 2 µs makes it ACTIVE again. -/
def Obligations.PortsChangeState : Prop :=
  ∀ (s : State) (f : Nat), s.settled → s.awake → f < 6 →
    let c := s.core
    let p := c.port f
    let down (t : Core) : Prop := (t.port f).state = 1 ∧ t.mem = c.mem ∧
      t.obj (0x8900 + f) 0xB = min (c.obj (0x8900 + f) 0xB + 1) (objMax (0x8900 + f) 0xB) ∧
      ∀ g, g ≠ f → t.port g = c.port g
    (p.state = 1 → c.flag (0x8100 + f) 1 = true → portsServed s.dev = true →
      exec (.portTrainingStart f) s = .next (s.withCore (c.setPort f { p with state := 2 })) ∧
      exec (.trainingRetry f) s = .next (s.withCore (c.setPort f { p with state := 2 }))) ∧
    (∀ lanes delay peer, p.state = 2 →
      let low : Prop := lanes % 16 ≠ 0
      let high : Prop := lanes / 16 % 16 ≠ 0
      (delay ≤ 30 → ¬(low ∧ high) → ∃ q : Port,
        exec (.trainingComplete f lanes delay peer) s = .next (s.withCore (c.setPort f q)) ∧ q.state = 3 ∧
        q.peer = peer ∧ q.delay = delay ∧ (q.lanes = 4 ↔ low ∨ high) ∧ (q.lanes = 8 ↔ ¬low ∧ ¬high) ∧
        ∀ k < 4, KMap.getD q.credits k 0 = classBuffer k) ∧
      (30 < delay ∨ low ∧ high → ∃ t : Core,
        exec (.trainingComplete f lanes delay peer) s = .next (finish s.dev t s.pending) ∧ (t.port f).state = 1 ∧
        t.logged 0x8102)) ∧
    (p.state = 3 → ∃ t : Core, exec (.lossOfSignal f) s = .next (finish s.dev t s.pending) ∧ down t) ∧
    (p.state = 4 →
      (c.now ≤ p.recovers.headD 0 + 2000 →
        exec (.recoverDone f) s = .next (s.withCore (c.setPort f { p with state := 3 }))) ∧
      (p.recovers.headD 0 + 2000 < c.now → ∃ t : Core,
        exec (.recoverDone f) s = .next (finish s.dev t s.pending) ∧ down t) ∧
      ∃ t : Core, exec (.recoverTimeout f) s = .next (finish s.dev t s.pending) ∧ down t)

/-- R341 to R345, R349: at a flit boundary, once a NAK that is due has gone (that it goes first is the model's choice,
log 20), class-0 replays go out, then an admitted class-0 flit that holds a credit, with the next sequence number and
its CRC-32C, to wait in the replay buffer; then other replays, then the classes 1 to 3 by weighted round robin; where
nothing waits a LINK flit carries the ack. What arrives in sequence is delivered here, goes on one hop less, or is
dropped and counted where its hops are 0; a flit lost is NAKed. A NAK has its flit sent again, the second time through
RECOVER, and returns credits as any flit's header does; acks empty the replay buffer and credits come back, too many
taking the port DOWN. -/
def Obligations.FlitsMove : Prop :=
  ∀ (s : State) (f : Nat), s.settled → s.awake → f < 6 →
    let c := s.core
    let b := ((((if exServes s.dev then c.settle else c).pullWork s.dev).flushAnswers).flushAcks).admitAll f
    let q := b.port f
    let p := c.port f
    let sends (x : Flit) (rr left : Nat) : Prop := ∃ (t : Core) (y : Flit),
      exec (.flitBoundary f) s = .next (finish s.dev t s.pending) ∧
      (t.port f).out = some y ∧ y.seq = q.seq ∧ y.payload = x.payload ∧ y.cls = x.cls ∧ y.dest = x.dest ∧
      y.ack = q.ackNow ∧ y.crcGood = true ∧ (t.port f).seq = (q.seq + 1) % 4096 ∧
      KMap.getD (t.port f).credits x.cls 0 = KMap.getD q.credits x.cls 0 - 1 ∧
      (∃ z, (t.port f).replay = q.replay ++ [{ flit := z, sends := 1 }] ∧ z.seq = q.seq ∧ z.payload = x.payload) ∧
      (t.port f).rr = rr ∧ (t.port f).rrLeft = left ∧
      t.obj (0x8900 + f) 1 = min (b.obj (0x8900 + f) 1 + 1) (objMax (0x8900 + f) 1)
    let replays (n : Nat) : Prop := ∀ y, q.replay.find? (fun x => x.flit.seq == n) = some y →
      ∃ (t : Core) (z : Flit), exec (.flitBoundary f) s = .next (finish s.dev t s.pending) ∧
        (t.port f).out = some z ∧ z.seq = n ∧ z.payload = y.flit.payload ∧ n ∉ (t.port f).again ∧
        t.obj (0x8900 + f) 6 = min (b.obj (0x8900 + f) 6 + 1) (objMax (0x8900 + f) 6)
    let first0 := q.again.find? fun n => q.replay.any fun y => y.flit.seq == n && y.flit.cls == 0
    (q.state = 3 → b.links.ended = [] →
      (∀ n ns, q.naks = n :: ns → ∃ (t : Core) (z : Flit),
        exec (.flitBoundary f) s = .next (finish s.dev t s.pending) ∧ (t.port f).out = some z ∧ z.kind = 3 ∧ z.ack = n ∧
        (t.port f).naks = ns ∧ (t.port f).replay = q.replay) ∧
      (∀ (x : Flit) (q' : Port), q.naks = [] → x.kind = 1 → first0 = none → q.canSend 0 = true →
        q.headOf 0 = some (x, q') → q.replay.length < 1024 → sends x q.rr q.rrLeft) ∧
      (∀ n, q.naks = [] → first0 = some n → replays n) ∧
      (∀ n ns, q.naks = [] → first0 = none → q.canSend 0 = false ∨ 1024 ≤ q.replay.length → q.again = n :: ns →
        replays n) ∧
      (∀ (x : Flit) (q' : Port) (k : Nat), q.naks = [] → x.kind = 1 → x.cls = k → q.again = [] → q.canSend 0 = false →
        q.replay.length < 1024 → q.headOf k = some (x, q') → q.canSend k = true →
        (k = q.rr → 0 < q.rrLeft → sends x k (q.rrLeft - 1)) ∧
        (k = q.rr % 3 + 1 → q.rrLeft = 0 ∨ q.canSend q.rr = false → sends x k (b.weight f k - 1))) ∧
      (q.naks = [] → q.again = [] → (∀ k, q.headOf k = none) → ∃ (t : Core) (z : Flit),
        exec (.flitBoundary f) s = .next (finish s.dev t s.pending) ∧ (t.port f).out = some z ∧ z.kind = 2 ∧
        z.ack = q.ackNow ∧ (t.port f).replay = q.replay)) ∧
    (∀ x : Flit, p.state = 3 → c.inj = [] → p.lost = [] → x.kind = 1 → x.seq = p.expect → s.dev ≠ .faultStop →
      s.dev ≠ .rejoin → KMap.getD p.credits (x.creditClass % 4) 0 + x.credits ≤ classBuffer (x.creditClass % 4) →
      ∃ t : Core, exec (.txnFlitReceived f x) s = .next (finish s.dev t s.pending) ∧
        (t.port f).expect = (p.expect + 1) % 4096 ∧
        (x.fecFailed = false → x.crcGood = true → p.spoilLeft = 0 →
          t.obj (0x8900 + f) 2 = min (c.obj (0x8900 + f) 2 + 1) (objMax (0x8900 + f) 2) ∧
          KMap.getD (t.port f).owed x.cls 0 = KMap.getD p.owed x.cls 0 + 1 ∧
          KMap.getD (t.port f).credits (x.creditClass % 4) 0 =
            KMap.getD p.credits (x.creditClass % 4) 0 + x.credits ∧
          (x.hops = 0 → (t.port f).delivered = [] ∧ t.obj 0x8980 2 = min (c.obj 0x8980 2 + 1) (objMax 0x8980 2)) ∧
          (x.dest = c.me → x.hops ≠ 0 → (t.port f).delivered = [x]) ∧
          (x.dest ≠ c.me → x.hops ≠ 0 → ∀ g, g ≠ f → c.route x.dest = .via g →
            let y := { x with hops := x.hops - 1 }
            (x.cls ≠ 0 → KMap.getD (t.port g).fwq x.cls [] = KMap.getD (c.port g).fwq x.cls [] ++ [y]) ∧
            (x.cls = 0 → y ∈ KMap.getD (t.port g).fwq 0 [] ∨ ∃ o ∈ (t.port g).offers, o.flit = y ∧ o.fwd = true))) ∧
        (x.fecFailed = true ∨ x.crcGood = false ∨ p.spoilLeft ≠ 0 →
          (t.port f).naks = p.naks ++ [x.seq] ∧ (t.port f).lost = [(x.seq, x.cls)] ∧ (t.port f).delivered = [])) ∧
    (∀ n y k cr, p.state = 3 → p.replay.find? (fun x => x.flit.seq == n) = some y → k < 4 →
      KMap.getD p.credits k 0 + cr ≤ classBuffer k →
      (y.sends < 2 → n ∉ p.again → ∃ t : Core, exec (.nakReceived f n k cr) s = .next (s.withCore t) ∧
        (t.port f).again = p.again ++ [n] ∧ (t.port f).state = 3 ∧ (t.port f).replay = p.replay ∧
        KMap.getD (t.port f).credits k 0 = KMap.getD p.credits k 0 + cr) ∧
      (2 ≤ y.sends → (p.recovers.filter fun t => c.now < t + 1000000).length < 2 → ∃ t : Core,
        exec (.nakReceived f n k cr) s = .next (finish s.dev t s.pending) ∧ (t.port f).state = 4 ∧
        (t.port f).again = p.replay.map fun x => x.flit.seq)) ∧
    (∀ ack k n, p.state = 3 ∨ p.state = 4 → k < 4 →
      (KMap.getD p.credits k 0 + n ≤ classBuffer k → ∃ t : Core,
        exec (.linkFlitReceived f ack k n) s = .next (s.withCore t) ∧ (t.port f).state = p.state ∧
        (t.port f).replay = p.replay.filter (fun x => !seqBelow x.flit.seq ack) ∧
        KMap.getD (t.port f).credits k 0 = KMap.getD p.credits k 0 + n) ∧
      (classBuffer k < KMap.getD p.credits k 0 + n → ∃ t : Core,
        exec (.linkFlitReceived f ack k n) s = .next (finish s.dev t s.pending) ∧ (t.port f).state = 1))

/-- R347, R348: a peer's RD is answered with the bytes; a WR that is complete writes them and is acknowledged once
they have entered the buffers, over the class asked; one outside what peers may reach is answered with its status, and
memory stays. A peer's DREQ is serviced and returned as DANS. The answers to this device's own requests end them: data
reaches whoever asked, an error or a wait that runs out fails the request (R350). -/
def Obligations.TransactionsAreAnswered : Prop :=
  ∀ (s : State) (src tag addr len : Nat) (data : List Byte), s.settled → s.awake → s.core.clean →
    let c := s.core
    let sent (t u : Core) (k : Nat) (xs : List Flit) : Prop := ∀ f, u.route src = .via f →
      (t.port f).line k = (u.port f).line k ++ xs
    let rk := c.askedClass 1 src tag
    let wk := c.askedClass 4 src tag
    let wrote (t : Core) (addr : Nat) (bs : List Byte) : Prop :=
      let e := (c.put addr bs).owe c (.peer src tag)
      t.mem.mem = Mem.write c.mem.mem addr bs ∧
      (e.acknowledged (.peer src tag) = true → sent t c wk [c.mkFlit wk src 6 tag [0]]) ∧
      (e.acknowledged (.peer src tag) = false → t.links.ackWaits = c.links.ackWaits ++ [(src, tag, wk)] ∧
        t.links.ports = c.links.ports)
    (portsServed s.dev = true → 0 < len → len ≤ 16384 →
      (c.peerStatus s.dev false addr len = 0 → ∃ t : Core,
        exec (.rd src tag addr len) s = .next (s.withCore t) ∧ t.mem.mem = c.mem.mem ∧
        sent t c rk (c.dataFlits rk src tag (c.bytes addr len))) ∧
      (∀ st, c.peerStatus s.dev false addr len = st → st ≠ 0 → ∃ t : Core,
        exec (.rd src tag addr len) s = .next (finish s.dev t s.pending) ∧ t.mem = c.mem ∧
        sent t c rk [c.mkFlit rk src 3 tag [BitVec.ofNat 8 st]] ∧
        (st = 1 → t.obj 0x8980 3 = min (c.obj 0x8980 3 + 1) (objMax 0x8980 3))) ∧
      (c.peerStatus s.dev true addr len = 0 →
        (len ≤ 224 → ∃ t : Core, exec (.wr src tag addr len data) s = .next (s.withCore t) ∧
          wrote t addr (bytesAt data 0 len)) ∧
        (224 < len → ∃ t : Core, exec (.wr src tag addr len data) s = .next (s.withCore t) ∧ t.mem = c.mem ∧
          { src := src, tag := tag, addr := addr, len := len, got := bytesAt data 0 224 } ∈ t.links.inWrs)) ∧
      (∀ st, c.peerStatus s.dev true addr len = st → st ≠ 0 → ∃ t : Core,
        exec (.wr src tag addr len data) s = .next (finish s.dev t s.pending) ∧ t.mem = c.mem ∧
        sent t c wk [c.mkFlit wk src 6 tag [BitVec.ofNat 8 st]])) ∧
    (∀ w : InWr, portsServed s.dev = true → c.links.inWrs.find? (fun x => x.src == src && x.tag == tag) = some w →
      c.peerStatus s.dev true w.addr w.len = 0 →
      let got := w.got ++ bytesAt data 0 (min (w.len - w.got.length) 240)
      ∃ t : Core, exec (.wrData src tag data) s = .next (s.withCore t) ∧
        (w.len ≤ got.length → wrote t w.addr (got.take w.len)) ∧
        (got.length < w.len → t.mem = c.mem ∧ { w with got := got } ∈ t.links.inWrs)) ∧
    (∀ dg : Datagram, portsServed s.dev = true → s.dev ≠ .rejoin →
      (dg.cmd = 1 →
        let r := (c.readObj s.dev (.peer src) dg.index dg.sub dg.offset dg.data.length false).bump 0x1880 2 1
        let g := (c.readObj s.dev (.peer src) dg.index dg.sub dg.offset dg.data.length false).outcome dg
        ∃ t : Core, exec (.dreq src tag dg) s = .next (finish s.dev t s.pending) ∧ t.dict = r.dict ∧
          sent t r 0 [r.mkFlit 0 src 0xA tag (dgBytes g)]) ∧
      (dg.cmd = 2 →
        let w := c.writeObj s.dev (.peer src) dg.index dg.sub dg.offset dg.data
        ∃ t : Core, exec (.dreq src tag dg) s = .next (finish w.1 t s.pending) ∧
          t.dict.lastStatus = w.2.dict.lastStatus ∧ t.mem = w.2.mem)) ∧
    (∀ t : Txn, KMap.get? c.links.txns tag = some t → c.links.tagWaits = [] → c.links.ended = [] →
      let ended (u : Core) : Prop := KMap.get? u.links.txns tag = none ∧ u.mem = c.mem
      ((t.got ++ data).length < t.len → exec (.rdData tag data) s =
        .next (s.withCore (c.openTxn tag { t with got := t.got ++ data }))) ∧
      (∀ read, t.use = .bar4 read →
        (t.len ≤ (t.got ++ data).length → ∃ u : Core, exec (.rdData tag data) s = .next (s.withCore u) ∧ ended u ∧
          u.links.hostData = (t.got ++ data).take t.len) ∧
        (∀ code, ∃ u : Core, exec (.rdErr tag code) s = .next (finish s.dev u s.pending) ∧ ended u ∧
          (read = true → u.links.hostData = List.replicate t.len 0xFF) ∧
          u.obj 0xA880 8 = min (c.obj 0xA880 8 + 1) (objMax 0xA880 8)) ∧
        (∃ u : Core, exec (.wrAck tag 0) s = .next (s.withCore u) ∧ ended u ∧ u.dict = c.dict) ∧
        ∃ u : Core, exec (.completionTimeout tag) s = .next (finish s.dev u s.pending) ∧ ended u ∧
          (read = true → u.links.hostData = List.replicate t.len 0xFF) ∧
          u.obj 0x8980 4 = min (c.obj 0x8980 4 + 1) (objMax 0x8980 4)) ∧
      (∀ h o, t.use = .xmsg h → c.outByTag tag false = some o → ∃ u : Core,
        exec (.completionTimeout tag) s = .next (finish s.dev u.settle s.pending) ∧ ended u ∧
        u.xch.out = c.xch.out.erase o) ∧
      (∀ dg : Datagram, t.use = .dict → ∃ u : Core, exec (.dans tag dg) s = .next (s.withCore u) ∧ ended u ∧
        u.dict.lastStatus = dg.status ∧ u.dict.lastData = dg.data ∧ u.dict.objs = c.dict.objs))

/-! ### The object dictionary and the control ring -/

/-- R372, R373, R378: a write of a RW scalar takes effect and is answered OK; one of a read-only object is DENIED and
changes nothing; one to an alias reaches the instances of its mask, all or none, and with none or one that the family
lacks is NO_OBJECT. R379, R380: a direct write carries 4 or 8 bytes, of which the object takes its size, the rest
zero; a direct read answers the object's value, or all ones where it is refused; a mailbox holds the outcome of its
datagram, shows it to its function's own reads, and a doorbell that comes while it is in service is counted and
ignored. -/
def Obligations.AccessesAreAnswered : Prop :=
  ∀ (s : State) (src : Src) (index sub : Nat) (data d : List Byte), s.settled → s.awake → s.core.unpoisoned →
    let c := s.core.srcTlp src
    let v := ofLE d
    let carried (i : Nat) : Prop := if src = .pf true then directValue i sub 0 data = some d else d = data
    (carried index → aliasFamily index = none → c.accessGate s.dev src index sub true = stOk →
      c.opGate s.dev src index sub = stOk → (objRow? index sub).isSome = true → isScalar index sub = true →
      (accessOf index sub = 2 → d.length = c.objSize index sub →
        ((objRow? index sub).any (fun r => r.ty == 7) = true → v ≤ 1) → index ≠ 0x1011 →
        ownWrite src index sub v s.dev c = none → c.slotArmed index sub = false → rwRange index sub v = true →
        ∃ t : Core, exec (.objectWrite src index sub 0 data) s = .next (s.withCore t) ∧ t.obj index sub = v ∧
          t.dict.lastStatus = stOk ∧ t.mem = c.mem ∧
          (isSelector index sub = false → t = (c.setObj index sub v).answer src index sub stOk)) ∧
      (accessOf index sub = 1 →
        exec (.objectWrite src index sub 0 data) s = .next (s.withCore (c.answer src index sub stDenied)))) ∧
    (∀ size, directSize index sub = some size → size ≤ 8 →
      (directValue index sub 0 data = some d ↔ (data.length = 4 ∨ data.length = 8) ∧ (size = 8 → data.length = 8) ∧
        d = data.take size ∧ ∀ b ∈ data.drop size, b = 0) ∧
      (src = .pf true → directValue index sub 0 data = none →
        exec (.objectWrite src index sub 0 data) s = .next (s.withCore (c.answer src index sub stType)))) ∧
    (∀ a base n, aliasFamily a = some (base, n) → carried a → c.reach s.dev src a sub true = true →
      (c.aliasMask a = [] ∨ (∃ i ∈ c.aliasMask a, n ≤ i) → exec (.aliasWrite src a sub data) s =
        .next (s.withCore (c.answer src a sub stNoObject))) ∧
      ((∀ i ∈ c.aliasMask a, i < n) →
        (∀ i, c.aliasMask a = [i] →
          let w := c.writeOne s.dev src (base + i) sub 0 d
          w.2.dict.lastStatus = stOk ∨ w.2.dict.lastStatus = stStaged → ∃ t : Core,
            exec (.aliasWrite src a sub data) s = .next (finish w.1 t s.pending) ∧ t.dict.objs = w.2.dict.objs ∧
            t.dict.staged = w.2.dict.staged ∧ t.mem = w.2.mem ∧ t.dict.lastStatus = w.2.dict.lastStatus) ∧
        (∀ i rest, c.aliasMask a = i :: rest →
          let w := c.writeOne s.dev src (base + i) sub 0 d
          w.2.dict.lastStatus ≠ stOk → w.2.dict.lastStatus ≠ stStaged → ∃ t : Core,
            exec (.aliasWrite src a sub data) s = .next (s.withCore t) ∧ t.dict.staged = c.dict.staged ∧
            t.mem = c.mem ∧ t.dict.lastStatus = w.2.dict.lastStatus ∧
            ∀ j u, okey j u ≠ okey 0x1880 0xA → t.obj j u = c.obj j u))) ∧
    (∀ off len, off < 0x08000000 → off / 2048 = index → off / 8 % 256 = sub → off % 8 = 0 → len = 4 ∨ len = 8 →
      let n := (directSize index sub).getD 1
      (n = 8 → len = 8) →
      let r := (s.core.tlp 0).readObj s.dev (.pf true) index sub 0 n false
      ∃ t : Core, exec (.directAccessRead 0 off len) s = .next (s.withCore t) ∧ t.dict = r.dict ∧
        (r.dict.lastStatus = stOk → t.links.hostData = directBytes index sub len r.dict.lastData) ∧
        (r.dict.lastStatus ≠ stOk → t.links.hostData = List.replicate len 0xFF)) ∧
    (∀ fn off len, fn ≠ 0 → ∃ t : Core, exec (.directAccessRead fn off len) s = .next (s.withCore t) ∧
      t.dict = s.core.dict ∧ (off = 0x2008 → t.links.hostData = toLE len (KMap.getD s.core.dict.mboxLast fn 0)) ∧
      (off ≠ 0x2008 → t.links.hostData = s.core.mailboxBytes fn off len)) ∧
    (∀ (fn : Nat) (g : Datagram), fn < 16 → g.index = index →
      let b := s.core.tlp fn
      (b.now < KMap.getD b.dict.mboxDone fn 0 →
        exec (.mailboxDoorbell fn g) s = .next (s.withCore (b.bump 0x1880 0xC 1))) ∧
      (KMap.getD b.dict.mboxDone fn 0 ≤ b.now → g.cmd = 1 →
        let r := b.readObj s.dev (fnSrc fn) g.index g.sub g.offset g.data.length false
        ∃ t : Core, exec (.mailboxDoorbell fn g) s = .next (s.withCore t) ∧
          KMap.get? t.dict.mbox fn = some (r.outcome g) ∧
          KMap.getD t.dict.mboxLast fn 0 = (r.outcome g).status + 256 * okey g.index g.sub ∧
          b.now ≤ KMap.getD t.dict.mboxDone fn 0 ∧ KMap.getD t.dict.mboxDone fn 0 ≤ b.now + 40000 ∧
          t.dict.objs = (r.bump 0x1880 2 1).dict.objs))

/-- R375 to R377: a write of a staged object waits in the staging set and the applied value stays; a keystone whose
checks pass gives every staged object its value and leaves the others that a write could change, one that fails changes
none of them; a discard and the hold limit empty the set. -/
def Obligations.StagingAndKeystone : Prop :=
  ∀ (s : State) (src : Src), s.settled → s.awake → s.core.unpoisoned →
    let c := s.core
    let d := c.dict
    let empty (t : Core) (result : Nat) : Prop :=
      t.dict.staged = [] ∧ t.dict.owner = 0 ∧ t.dict.ksResult = result ∧ t.mem.mem = c.mem.mem
    let settable (i u : Nat) : Prop := accessOf i u = 2 ∨ accessOf i u = 4
    (∀ index sub raw data,
      let e := c.srcTlp src
      (if src = .pf true then directValue index sub 0 raw = some data else data = raw) → aliasFamily index = none →
      e.accessGate s.dev src index sub true = stOk → e.opGate s.dev src index sub = stOk →
      (objRow? index sub).isSome = true → isScalar index sub = true → accessOf index sub = 4 →
      data.length = e.objSize index sub → ((objRow? index sub).any (fun r => r.ty == 7) = true → ofLE data ≤ 1) →
      index ≠ 0x1011 → ¬(index = 0x9100 ∧ sub ≤ 2) → ownWrite src index sub (ofLE data) s.dev e = none →
      d.owner = 0 ∨ d.owner = ownerCode src → d.staged.length < 4096 → ∃ t : Core,
        exec (.stagingWrite src index sub raw) s = .next (s.withCore t) ∧
        KMap.get? t.dict.staged (okey index sub) = some (ofLE data) ∧ t.dict.owner = ownerCode src ∧
        t.dict.objs = e.dict.objs ∧ t.dict.lastStatus = stStaged ∧ t.mem = e.mem) ∧
    (c.opGate s.dev src 0x1F00 0 = stOk → d.owner = 0 ∨ d.owner = ownerCode src →
      (d.staged ≠ [] → (d.staged.map Prod.fst).Nodup → ksFailing s.dev c c.overlay (d.staged.map Prod.fst) = none →
        ∃ t : Core, exec (.keystoneApply src) s = .next (finish s.dev t s.pending) ∧
          t.dict.staged = [] ∧ t.dict.owner = 0 ∧ t.dict.ksResult = 1 ∧ t.dict.lastStatus = stOk ∧
          (∀ k v, (k, v) ∈ d.staged → settable (k / 256) (k % 256) → t.obj (k / 256) (k % 256) = v) ∧
          (∀ i u, u < 256 → settable i u → okey i u ∉ d.staged.map Prod.fst → t.obj i u = c.obj i u) ∧
          (∀ i u, i < 0x8000 → u < 256 → okey i u ≠ okey 0x1880 6 → okey i u ∉ d.staged.map Prod.fst →
            t.obj i u = c.obj i u) ∧
          t.obj 0x1880 6 = min (c.overlay.obj 0x1880 6 + 1) (objMax 0x1880 6)) ∧
      (∀ k, d.staged ≠ [] → ksFailing s.dev c c.overlay (d.staged.map Prod.fst) = some k → ∃ t : Core,
        exec (.keystoneApply src) s = .next (finish s.dev t s.pending) ∧ t.dict.ksResult = 2 ∧
        t.dict.ksFail = k ∧ t.dict.staged = d.staged ∧ (∀ i u, u < 256 → settable i u → t.obj i u = c.obj i u) ∧
        (∀ i u, i < 0x8000 → u < 256 → okey i u ≠ okey 0x1880 7 →
          t.obj i u = c.obj i u)) ∧
      ∃ t : Core, exec (.keystoneDiscard src) s = .next (s.withCore t) ∧ empty t 4 ∧ t.dict.objs = d.objs ∧
        t.dict.lastStatus = stOk) ∧
    (d.owner ≠ 0 → ∃ t : Core, exec .stagingHoldExpiry s = .next (finish s.dev t s.pending) ∧ empty t 5 ∧
      t.obj 0x1880 8 = min (c.obj 0x1880 8 + 1) (objMax 0x1880 8))

/-- R385 to R391: a frame that enters where frames are only passed on leaves unchanged; one that is processed has its
addressed WRITE done once its FCS proves good, and nothing done where it does not. A link that goes down or comes up
changes the path. R392 to R396: the reference that follows no valid SYNC takes the time it is set to, and every other
module DENIES it; a port's probe block leaves, and with its answer gives the link its delay, half the round trip less
the turnaround; a neighbour's probe is answered with the turnaround; without SYNC the timebase runs free and says so.
Which module is the reference, and how a turnaround is counted, is the model's reading (log 114); so is what counts a
frame that is passed on (log 115). -/
def Obligations.RingAndTimebase : Prop :=
  (∀ (s : State) (port : Nat) (f : KFrame), s.settled → s.awake → s.core.inj = [] →
     let c := s.core
     (c.kUp port = true → c.kEntry ≠ some port →
       exec (.kimalFrame port f) s = .next (s.withCore (if foreign f then (c.bump 0x1880 4 1).frameOut 0 f
         else c.frameOut 0 f))) ∧
     (∀ g : Datagram, c.kUp port = true → c.kEntry = some port → foreign f = false → f.version = 1 → frameFits f = true →
       f.datagrams = [g] → g.cmd = 2 → g.mode ≤ 1 → c.addressed g = true →
       let a := c.bump 0x1880 1 1
       let st := (a.writeObj s.dev .ring g.index g.sub g.offset g.data).2.dict.lastStatus
       let w := (a.bump 0x1880 2 1).writeObj s.dev .ring g.index g.sub g.offset g.data
       let gs := [putStatus (passPosition g) st]
       (f.fcsGood = true → exec (.kimalFrame port f) s =
         .next (finish w.1 (w.2.frameOut c.kExit { f with datagrams := gs, fcsGood := true }) s.pending)) ∧
       (f.fcsGood = false → ∃ t : Core, exec (.kimalFrame port f) s = .next (finish s.dev t s.pending) ∧
         t.dict.ringOut = some (c.kExit, { f with datagrams := gs, fcsGood := false }) ∧
         t.obj 0x1880 3 = min (c.obj 0x1880 3 + 1) (objMax 0x1880 3) ∧ t.mem = c.mem ∧
         t.dict.staged = c.dict.staged ∧ ∀ i u, i < 0xB000 → u < 256 → i ≠ 0x1880 → t.obj i u = c.obj i u)) ∧
     (∀ k < 2, let other := 1 - k
       (c.kUp k = true → ∃ t : Core, exec (.kimalLinkDown k) s = .next (finish s.dev t s.pending) ∧
         t.kUp k = false ∧ t.kUp other = c.kUp other ∧
         t.obj 0x1880 5 = min (c.obj 0x1880 5 + 1) (objMax 0x1880 5)) ∧
       (c.kUp k = false → ∃ t : Core, exec (.kimalLinkUp k) s = .next (finish s.dev t s.pending) ∧
         t.kUp k = true ∧ t.kUp other = c.kUp other ∧
         t.obj 0x1880 5 = min (c.obj 0x1880 5 + 1) (objMax 0x1880 5)))) ∧
  (∀ (s : State) (src : Src) (t : Nat), s.settled → s.awake → s.core.unpoisoned →
     let c := s.core
     (c.opGate s.dev src 0x1030 3 = stOk →
       (c.flag 0x1030 1 = true → c.dict.follows = false → ∃ u : Core,
         exec (.timeSet src t) s = .next (s.withCore u) ∧ u.now = t % 2 ^ 64 ∧ u.dict.steer = 0 ∧
         u.dict.lastStatus = stOk) ∧
       (c.flag 0x1030 1 = false ∨ c.dict.follows = true →
         exec (.timeSet src t) s = .next (s.withCore (c.answer src 0x1030 3 stDenied)))) ∧
     (∀ k < 2, c.kUp k = true →
       (∀ r n, ∃ u : Core, exec (.delayProbe k (some r) (some n)) s = .next (s.withCore u) ∧
         u.dict.probeOut = (k, c.now, none) :: c.dict.probeOut ∧ u.obj 0x1031 (k + 1) = min 0xFFFF ((r - n) / 2) ∧
         u.mem = c.mem) ∧
       (∃ u : Core, exec (.delayProbe k none none) s = .next (s.withCore u) ∧
         u.dict.probeOut = (k, c.now, none) :: c.dict.probeOut ∧ u.dict.objs = c.dict.objs) ∧
       (∀ sentAt, ∃ u : Core, exec (.probeBlockReceived k sentAt) s = .next (s.withCore u) ∧
         u.dict.probeOut = (k, c.now, some ((c.now - sentAt) % 2 ^ 24)) :: c.dict.probeOut ∧
         u.dict.objs = c.dict.objs)) ∧
     ∃ u : Core, exec .syncLoss s = .next (finish s.dev u s.pending) ∧ u.dict.steer = 0 ∧ u.obj 0x1030 4 = 0 ∧
       u.now = c.now)

/-! ### Power, temperature and clocks -/

/-- R403 to R409, R417: the estimate, corrected by what the stage last reported, shows in 0x2020:01, and any 1 ms
window, one ending with each estimate (log 83), whose average is over the cap is counted; a stage fault is a
FAULT_STOP, a stage that is silent brings the guard; a cycle of the governor moves no domain by more than 50 mV, and
counts the time a rate target is out of reach once; the target of a domain that was idle long enough (log 86) is 0.62
V. R407, R411 to R413, R416, R464: a rail outside its limits for 200 ns, 20 samples (log 87), is a FAULT_STOP, and
PWR_GOOD follows the rails it watches; the highest reading of each die and stack shows, the hottest sensors step the
throttle, up only while it binds (log 88), and assert the trip at 110 °C; a lost lock is counted and takes a link
down, or stops the device, and a lost reference (34 to 38 are the model's numbers for the references of Table 13.5,
log 152) does so for every domain that uses it. -/
def Obligations.PowerIsGoverned : Prop :=
  ∀ (s : State), s.settled → s.awake →
    let c := s.core
    let p := c.pow
    (∀ mw : Nat,
      let e := ((mw : Int) + p.correction).toNat
      let recent := (e :: p.recent).take 1000
      ∃ t : Core, exec (.powerEstimate mw) s = .next (s.withCore t) ∧ t.pow.estimate = mw ∧
        t.obj 0x2020 1 = milli e ∧ t.pow.recent = recent ∧
        t.obj 0x2880 5 = if recent.length = 1000 ∧ 1000 * c.capMw < recent.sum then
          min (c.obj 0x2880 5 + 1) (objMax 0x2880 5) else c.obj 0x2880 5) ∧
    (∀ r : StageReport,
      (r.fault = false → ∃ t : Core, exec (.stagePoll r) s = .next (finish s.dev t s.pending) ∧
        t.pow.correction = (r.inMw : Int) - p.estimate ∧ t.pow.guard = false ∧ t.obj 0x2020 1 = milli r.inMw ∧
        t.obj 0x2020 2 = milli r.inMv ∧ t.obj 0x2020 3 = milli r.inMa ∧ t.obj 0x2021 1 = milliI r.tempMc ∧
        t.obj 0x2021 2 = r.status % 65536 ∧ t.mem = c.mem) ∧
      (r.fault = true → c.plainEvents → ∃ t, exec (.stagePoll r) s = .next t ∧ t.dev = .faultStop)) ∧
    (∃ t : Core, exec .stageSilent s = .next (finish s.dev t s.pending) ∧ t.pow.guard = true ∧
      t.pow.correction = 0 ∧ t.mem = c.mem) ∧
    (∀ rates mws, s.dev ≠ .boot → ∃ t : Core,
      exec (.governorCycle rates mws) s = .next (finish s.dev t s.pending) ∧ t.mem = c.mem ∧
      t.obj 0x2880 1 = min (c.obj 0x2880 1 + 1) (objMax 0x2880 1) ∧
      (t.obj 0x2880 4 = c.obj 0x2880 4 ∨ t.obj 0x2880 4 = min (c.obj 0x2880 4 + 10000) (objMax 0x2880 4)) ∧
      (p.limited = false → 0 < c.vMin → ∀ d < 6, ¬(s.dev = .standby ∧ d < 4) →
        let was := KMap.getD p.volts d 750
        let is_ := KMap.getD t.pow.volts d 750
        is_ ≤ was + 50 ∧ was ≤ is_ + 50 ∧ t.obj (0x2100 + d) 1 = milli is_)) ∧
    (∀ d < 6, s.dev = .ready ∨ s.dev = .run ∨ s.dev = .drain ∨ s.dev = .rejoin → d ∉ p.idle →
      (c.now < KMap.getD p.idleSince d 0 + c.obj 0x2012 0 → exec (.idleDrop d) s = .next s) ∧
      (KMap.getD p.idleSince d 0 + c.obj 0x2012 0 ≤ c.now → ∃ t : Core,
        exec (.idleDrop d) s = .next (s.withCore t) ∧ d ∈ t.pow.idle ∧ KMap.getD t.pow.targets d 0 = 620 ∧
        t.obj (0x2100 + d) 4 = 4 ∧ t.pow.volts = p.volts)) ∧
    (∀ rail mv, rail < 20 → ¬(s.dev = .standby ∧ rail < 4) → c.inj = [] → KMap.getD p.forced rail 0 < 2 →
      let low := if rail < 6 then 560 else fixedMv rail * 92 / 100
      let high := if rail < 6 then 900 else fixedMv rail * 108 / 100
      (low ≤ mv → mv ≤ high → ∃ t : Core, exec (.railMonitorSample rail mv) s = .next (s.withCore t) ∧
        KMap.getD t.pow.underFor rail 0 = 0 ∧ KMap.getD t.pow.overFor rail 0 = 0 ∧ t.mem = c.mem ∧
        (4 ≤ rail → rail ∉ t.pins.low)) ∧
      (4 ≤ rail → mv < low ∨ high < mv → ∃ t : Core,
        exec (.railMonitorSample rail mv) s = .next (finish s.dev t s.pending) ∧ rail ∈ t.pins.low ∧
        t.pwrGoodPin = false) ∧
      (c.plainEvents → (mv < low ∧ KMap.getD p.underFor rail 0 = 19) ∨
        (high < mv ∧ KMap.getD p.overFor rail 0 = 19) →
        ∃ t, exec (.railMonitorSample rail mv) s = .next t ∧ t.dev = .faultStop)) ∧
    (∀ mc cores : List Int, mc.length = 128 → cores.length = 0 ∨ cores.length = 8 * c.coreDies → c.inj = [] →
      let all := mc ++ if cores = [] then p.cores else cores
      let limit (k : Nat) : Int := if k < 96 then ofMilli (c.obj 0x2201 0) else 95000
      let hot : Prop := ∃ k x, all[k]? = some x ∧ limit k ≤ x
      let cool : Prop := ∀ k x, all[k]? = some x → x ≤ limit k - 2000
      ∃ t : Core, exec (.temperatureRead mc cores) s = .next (finish s.dev t s.pending) ∧ t.mem.mem = c.mem.mem ∧
        (∀ e < 12, t.obj 0x2200 (e + 1) = milliI (maxInt
          ((all.zipIdx).filterMap fun r => if sensorDie c.coreDies r.2 = e then some r.1 else none))) ∧
        (∃ x ∈ all, (∀ y ∈ all, y ≤ x) ∧ t.obj 0x2200 0xD = milliI x) ∧
        (hot → t.pow.thermal = max 620 (p.thermal - 5) ∧ t.pow.throttling = true) ∧
        (¬hot → cool → (∃ v ∈ p.wanted, p.thermal < v) → t.pow.thermal = min 850 (p.thermal + 5)) ∧
        (¬hot → ¬(cool ∧ ∃ v ∈ p.wanted, p.thermal < v) → t.pow.thermal = p.thermal) ∧
        ((∃ x ∈ all, 110000 ≤ x) → t.pins.thermTrip = true)) ∧
    (∀ k < 34, let link : Prop := k < 2 ∨ 10 ≤ k ∧ k < 16
      (link → ∃ t : Core, exec (.pllLockLoss k) s = .next (finish s.dev t s.pending) ∧
        t.obj (0x2300 + k) 3 = min (c.obj (0x2300 + k) 3 + 1) (objMax (0x2300 + k) 3) ∧
        (10 ≤ k → (c.port (k - 10)).state = 3 → (t.port (k - 10)).state = 1)) ∧
      (¬link → c.plainEvents → ∃ t, exec (.pllLockLoss k) s = .next t ∧ t.dev = .faultStop)) ∧
    (∀ r, 34 ≤ r → r < 39 → c.plainEvents → ∃ t, exec (.pllLockLoss r) s = .next t ∧
      (∀ k ∈ refDomains r, t.core.obj (0x2300 + k) 3 = min (c.obj (0x2300 + k) 3 + 1) (objMax (0x2300 + k) 3)) ∧
      (r ≠ 34 → r ≠ 36 → t.dev = .faultStop))

/-! ### Security -/

/-- R437, R439: a challenge is a nonce of 32 bytes; a response signed over it by a key that may give the level opens
it (that it uses the challenge up is the model's reading, log 89); a challenge is gone once it has lived 60 s, and no
sooner. A nonce asks for a quote, which is signed by the device key and carries the nonce. -/
def Obligations.UnlockAndQuote : Prop :=
  ∀ (s : State) (src : Src) (data n : List Byte), s.settled → s.awake → s.core.unpoisoned →
    let c := s.core
    (c.opGate s.dev src 0xC100 1 = stOk → ringOrPf src = true → c.sec.locked = false → ∃ (t : Core) (b : List Byte),
      exec (.challengeRequest src) s = .next (s.withCore t) ∧ t.sec = { c.sec with challenge := some b, challengeAt := c.now } ∧
      b.length = 32 ∧ t.dict.lastStatus = stOk ∧ t.mem = c.mem) ∧
    (let level := numAt data 0 1
      let key := numAt data 1 1
      let may := if key = 0 then c.obj 0xC043 0 else 2
      let pubs := if key = 0 then c.sec.debugKeys else c.sec.ownerDebugKeys
      c.opGate s.dev src 0xC100 3 = stOk → ringOrPf src = true → data.length = 72 → 1 ≤ level → level ≤ 3 → key ≤ 1 →
      numAt data 2 6 = 0 → c.liveChallenge = some n → level ≤ may →
      (∃ pk ∈ pubs, sigOk pk (n ++ c.serialBytes ++ toLE 1 level) (bytesAt data 8 64) = true) → ∃ t : Core,
        exec (.response src data) s = .next (finish s.dev t s.pending) ∧ t.logged 0xC010 ∧
        t.sec = { c.sec with challenge := none, level := max c.sec.level level } ∧ t.dict.lastStatus = stOk) ∧
    (c.sec.challengeAt + 60000000000 ≤ c.now →
      exec .challengeExpiry s = .next (s.withCore (c.modSec fun x => { x with challenge := none }))) ∧
    (c.liveChallenge = some n → exec .challengeExpiry s = .next s) ∧
    (c.opGate s.dev src 0xC200 1 = stOk → c.sec.identity = true → data.length = 32 → ∃ t : Core,
      exec (.quoteNonce src data) s = .next (s.withCore t) ∧ t.sec = { c.sec with nonce := some data } ∧
      t.dict.lastStatus = stOk) ∧
    (c.sec.nonce = some n → n.length = 32 → ∃ (t : Core) (b : List Byte),
      exec .quoteReady s = .next (s.withCore t) ∧ t.sec.nonce = none ∧
      t.sec.quote = b ++ edSign (identitySeed c.module_) (sha512 b) ∧ bytesAt b 32 32 = n ∧
      t.obj 0xC880 1 = min (c.obj 0xC880 1 + 1) (objMax 0xC880 1))

/-- R440: a response with a bad signature, one for a level above what its key may open, and one with no live challenge
each discard the challenge, count on 0xC100:05 and log event 0xC011; at the eighth failure event 0xC012 is logged, and
from then on a challenge is DENIED. -/
def Obligations.UnlockFailures : Prop :=
  ∀ (s : State) (src : Src) (data : List Byte), s.settled → s.awake → s.core.unpoisoned →
    let c := s.core
    let level := numAt data 0 1
    let key := numAt data 1 1
    let may := if key = 0 then c.obj 0xC043 0 else 2
    let pubs := if key = 0 then c.sec.debugKeys else c.sec.ownerDebugKeys
    let bad : Prop := c.liveChallenge = none ∨ may < level ∨ ∃ n, c.liveChallenge = some n ∧
      ∀ pk ∈ pubs, sigOk pk (n ++ c.serialBytes ++ toLE 1 level) (bytesAt data 8 64) = false
    (c.opGate s.dev src 0xC100 3 = stOk → ringOrPf src = true → data.length = 72 → 1 ≤ level → level ≤ 3 → key ≤ 1 →
      numAt data 2 6 = 0 → bad → ∃ t : Core, exec (.response src data) s = .next (finish s.dev t s.pending) ∧
        t.sec.challenge = none ∧ t.sec.level = c.sec.level ∧ t.logged 0xC011 ∧
        t.obj 0xC100 5 = min (c.obj 0xC100 5 + 1) (objMax 0xC100 5) ∧
        (t.obj 0xC100 5 = 8 → t.sec.locked = true ∧ (c.sec.locked = false → t.logged 0xC012)) ∧
        (t.obj 0xC100 5 ≠ 8 → t.sec.locked = c.sec.locked)) ∧
    (c.sec.locked = true → c.opGate s.dev src 0xC100 1 = stOk →
      exec (.challengeRequest src) s = .next (s.withCore (c.answer src 0xC100 1 stDenied))) ∧
    State.reset.core.sec.locked = false

/-- R438, R431: SPDM answers the version, the capabilities and the algorithms; then digests, certificates, challenge
and measurements; a request out of order, one it does not have, and every one without the device key is answered
ERROR; in BOOT each is answered with Request Retry Status. The codes and the layout of the answers are SPDM 1.3's as
this model knows it (log 29: PRESUMED). -/
def Obligations.SpdmAnswers : Prop :=
  ∀ (s : State) (nonce : List Byte) (algs : List Nat) (off len index x : Nat), s.settled → s.awake →
    s.core.pins.perstN = true →
    let c := s.core
    let tells (i : Instr) (code : Nat) (algs' : Bool) : Prop := ∃ t : Core, exec i s = .next (s.withCore t) ∧
      numAt t.sec.doe 1 1 = code ∧ t.sec.spdmAlgs = algs' ∧ t.sec.level = c.sec.level ∧
      t.obj 0xC880 2 = min (c.obj 0xC880 2 + 1) (objMax 0xC880 2) ∧ t.mem = c.mem ∧ t.links = c.links
    let now := c.sec.spdmAlgs
    (s.dev = .boot → ∀ i ∈ [Instr.getVersion, .getCapabilities, .negotiateAlgorithms algs, .getDigests,
      .getCertificate 0 off len, .challenge 0 nonce, .getMeasurements index nonce, .spdmUnsupported x],
      exec i s = .next (s.withCore c.retry)) ∧
    (s.dev ≠ .boot →
      (c.sec.identity = false →
        tells .getVersion 0x7F now ∧ tells .getCapabilities 0x7F now ∧ tells (.negotiateAlgorithms algs) 0x7F now ∧
        tells .getDigests 0x7F now ∧ tells (.getCertificate 0 off len) 0x7F now ∧ tells (.challenge 0 nonce) 0x7F now ∧
        tells (.getMeasurements index nonce) 0x7F now) ∧
      tells (.spdmUnsupported x) 0x7F now ∧
      (c.sec.identity = true →
        tells .getVersion 0x04 now ∧ tells .getCapabilities 0x61 now ∧
        tells (.negotiateAlgorithms algs) 0x63 (algs.contains 1) ∧
        (now = false → tells .getDigests 0x7F now ∧ tells (.getCertificate 0 off len) 0x7F now ∧
          tells (.challenge 0 nonce) 0x7F now ∧ tells (.getMeasurements index nonce) 0x7F now) ∧
        (now = true → tells .getDigests 0x01 now ∧
          (off ≤ c.certChain.length → tells (.getCertificate 0 off len) 0x02 now ∧
            ∃ t : Core, exec (.getCertificate 0 off len) s = .next (s.withCore t) ∧
              t.sec.doe.drop 8 = (c.certChain.drop off).take len) ∧
          (nonce.length = 32 → tells (.challenge 0 nonce) 0x03 now ∧
            (index = 0 ∨ index = 0xFF ∨ (c.measurement index).isSome = true →
              tells (.getMeasurements index nonce) 0x60 now)))))

/-- R441: erase, verify, commit and confirm start where their conditions hold, verify and commit on the bank that was
erased and no other; abandon ends what runs, but neither a commit nor a confirm; an image is gathered and its last
segment starts the programming; when the command ends the bank is erased, holds the image, is verified, is the bank of
the next boot, or the minimums rise; a flash that fails leaves status 7 and nothing done, but for one copy of the boot
control record, which the other outlives (R426). -/
def Obligations.FirmwareUpdates : Prop :=
  ∀ (s : State) (src : Src) (kind : Nat) (data : List Byte), s.settled → s.awake → s.core.unpoisoned →
    let c := s.core
    let u := c.sec
    let b := u.updBank
    let same : Prop := c.updTargetBank = u.updBank
    let runs (i : Instr) (r final : Nat) : Prop := ∃ t : Core, exec i s = .next (s.withCore t) ∧
      t.sec.updRun = some r ∧ t.sec.updFinal = final ∧ t.obj 0xC300 3 = 1 ∧ t.module_ = c.module_ ∧
      t.dict.lastStatus = stOk
    let sequence (i : Instr) : Prop := ∃ t : Core, exec i s = .next (finish s.dev t s.pending) ∧ t.sec = u ∧
      t.obj 0xC300 3 = 8 ∧ t.module_ = c.module_
    (c.opGate s.dev src 0xC300 2 = stOk →
      (u.updRun = none → c.updTarget = 0 →
        runs (.updateErase src) 1 2 ∧ (∀ t, exec (.updateErase src) s = .next t →
          t.core.sec.updBank = c.updTargetBank ∧ t.core.sec.updStage = 0) ∧
        (same → u.updStage ≠ 0 → runs (.updateVerify src) 2 c.updVerdict) ∧
        (same → u.updStage = 2 → runs (.updateCommit src) 3 2) ∧
        (¬same ∨ u.updStage = 0 → sequence (.updateVerify src)) ∧
        (¬same ∨ u.updStage ≠ 2 → sequence (.updateCommit src))) ∧
      (u.updRun = none → s.dev = .ready → c.obj 0xC010 0 = u.bank → runs (.updateConfirm src) 4 2) ∧
      (u.updRun ≠ some 3 → u.updRun ≠ some 4 → ∃ t : Core, exec (.updateAbandon src) s = .next (s.withCore t) ∧
        t.sec.updRun = none ∧ t.sec.updStage = 0 ∧ t.obj 0xC300 3 = 2 ∧ t.module_ = c.module_) ∧
      (u.updRun = some 3 ∨ u.updRun = some 4 →
        exec (.updateAbandon src) s = .next (s.withCore (c.answer src 0xC300 2 stBusy)))) ∧
    (kind ≤ 4 → c.opGate s.dev src (0xC310 + kind) 0 = stOk → u.updRun = none → same → u.updStage = 1 →
      c.updTarget = 0 → data ≠ [] →
      (data.length < (updRegion kind).2 → ∃ t : Core,
        exec (.updateImageWrite src kind 0 data) s = .next (s.withCore t) ∧ t.sec = u ∧ t.module_ = c.module_ ∧
        ∃ g ∈ t.dict.gathers, g.src = src ∧ g.key = okey (0xC310 + kind) 0 ∧ g.data = data) ∧
      (data.length = (updRegion kind).2 →
        runs (.updateImageWrite src kind 0 data) (16 + kind) 2 ∧ ∃ t : Core,
          exec (.updateImageWrite src kind 0 data) s = .next (s.withCore t) ∧ t.sec.updBuf = data)) ∧
    (∀ r, u.updRun = some r →
      (∃ t : Core, exec (.updateCommandEnd true) s = .next (finish s.dev t s.pending) ∧ t.sec.updRun = none ∧
        t.obj 0xC300 3 = u.updFinal ∧
        (r = 1 → t.sec.updStage = 1 ∧ ∀ a n, a + n ≤ 0x1050000 →
          Flash.read (t.module_.flash b) a n = List.replicate n 0xFF) ∧
        (r = 2 → u.updFinal = 2 → t.sec.updStage = 2) ∧
        (r = 3 → t.obj 0xC010 0 = b ∧ t.sec.updStage = 3) ∧
        (r = 4 → ∀ i < 4, t.obj 0xC030 (i + 1) = c.obj (0xC021 + i) 2) ∧
        (r = 16 + kind → kind ≤ 4 →
          Flash.read (t.module_.flash b) (updRegion kind).1 u.updBuf.length = u.updBuf)) ∧
      ∃ t : Core, exec (.updateCommandEnd false) s = .next (finish s.dev t s.pending) ∧ t.sec.updRun = none ∧
        t.obj 0xC300 3 = 7 ∧ t.obj 0xC010 0 = c.obj 0xC010 0 ∧ (r ≠ 3 → r ≠ 4 → t.module_ = c.module_) ∧
        ∃ k < 2, Flash.read (t.module_.flash k) bootCtlOff 88 = Flash.read (c.module_.flash k) bootCtlOff 88 ∨
          Flash.read (t.module_.flash k) bootCtlOff (c.updRecord r).length = c.updRecord r)

/-- R426, R429, R442: a configuration blob, an enrolment record and an override record that pass their checks are
written to both flash devices, an enrolment record in the place of the one in force or in the middle of the area (the
model's choice, log 15); one that does not is refused with TYPE, and the module keeps what it holds. A reset inside
such a write leaves one copy whole: the new one, once it stands, and the old one before. -/
def Obligations.RecordsAreChecked : Prop :=
  ∀ (s : State) (src : Src) (data : List Byte), s.settled → s.awake → s.core.unpoisoned →
    let c := s.core
    let m := c.module_
    let wrote (i : Instr) (off : Nat) (bs : List Byte) : Prop := ∃ t : Core, exec i s = .next (s.withCore t) ∧
      Flash.read t.module_.flash0 off bs.length = bs ∧ Flash.read t.module_.flash1 off bs.length = bs ∧
      t.dict.lastStatus = stOk ∧ t.obj 0xC880 3 = min (c.obj 0xC880 3 + 2 * bs.length) (objMax 0xC880 3)
    let refused (i : Instr) : Prop := ∃ t : Core, exec i s = .next (finish s.dev t s.pending) ∧ t.module_ = m ∧
      t.dict.lastStatus = stType ∧ t.sec = c.sec
    (c.opGate s.dev src 0xC401 0 = stOk →
      let k := numAt data 5 1
      let old := ((setInForce m c.keys).1.map Prod.snd).getD []
      let seq := ((setInForce m c.keys).1.map fun x => numAt x.1 4 4).getD (c.obj 0xC400 0)
      (256 ≤ data.length → data.length = 256 + numAt data 24 4 → blobOk m c.keys data = true →
        wrote (.configBlobWrite src data) configOff (setBytes (seq + 1)
          ((old.filter fun b => numAt b 5 1 < k) ++ [data] ++ (old.filter fun b => k < numAt b 5 1)))) ∧
      (blobOk m c.keys data = false → refused (.configBlobWrite src data))) ∧
    (c.opGate s.dev src 0xC410 0 = stOk →
      (data.length = 256 → enrolOk c.keys m.serial data = true → wrote (.enrolWrite src data) (enrolOff c.keys m) data) ∧
      (enrolOk c.keys m.serial data = false → refused (.enrolWrite src data))) ∧
    (c.opGate s.dev src 0xC420 0 = stOk →
      (data.length = 256 → overrideOk c data = true → wrote (.overrideWrite src data) overrideOff data) ∧
      (overrideOk c data = false → refused (.overrideWrite src data))) ∧
    (∀ w, m.writes = [w] → c.ctlRuns = false → w.dev < 2 → c.now < w.second →
      (w.first ≤ c.now → c.cutWrites.module_.flash w.dev = m.flash w.dev) ∧
      (c.now < w.first → Flash.read (c.cutWrites.module_.flash (1 - w.dev)) w.off w.oldB.length = w.oldB))

/-! ### Events and injection -/

/-- R447 to R450: the event unit moves the oldest record of a die into the log, counts it and notifies from its class
on, where the host has the vector enabled; dropped records are told by one event in the FIFO that dropped them. R454:
a clearable cause is cleared in FAULT_STOP, anything else DENIED. R455, R456: a stalled stage and a missed kick stop
the device. -/
def Obligations.EventsAreLogged : Prop :=
  ∀ (s : State) (src : Src) (die : Nat), s.settled → s.awake → s.core.unpoisoned →
    let c := s.core
    (∀ e rest, KMap.getD c.log.fifo die [] = e :: rest → ∃ t : Core,
      exec (.eventLogWrite die) s = .next (s.withCore t) ∧ KMap.getD t.log.fifo die [] = rest ∧
      t.log.recs = (e :: c.log.recs).take 65536 ∧ t.log.written = c.log.written + 1 ∧
      KMap.getD t.log.codes e.code 0 = min (KMap.getD c.log.codes e.code 0 + 1) (2 ^ 64 - 1) ∧
      t.log.msix = (if c.obj 0xB020 2 ≤ e.cls ∧ c.vectorOn 0 (c.obj 0xB020 1) = true then
        (0, c.obj 0xB020 1) :: c.log.msix else c.log.msix) ∧
      t.mem = c.mem) ∧
    (0 < KMap.getD c.log.dropped die 0 → (KMap.getD c.log.fifo die []).length < 512 → ∃ t : Core,
      exec (.eventsDropped die) s = .next (finish s.dev t s.pending) ∧ KMap.getD t.log.dropped die 0 = 0 ∧
      ∃ e : EventRec, e.code = 0xB011 ∧ e.detail = detail6 0 0 0 (KMap.getD c.log.dropped die 0) ∧
        KMap.getD t.log.fifo die [] = KMap.getD c.log.fifo die [] ++ [e]) ∧
    (c.opGate s.dev src 0xB031 0 = stOk →
      (s.dev = .faultStop → c.clearable = true → ∃ t : Core, exec (.faultClear src) s = .next (s.withCore t) ∧
        t.log = { c.log with cause := none, cleared := true } ∧ t.dict.lastStatus = stOk) ∧
      (s.dev ≠ .faultStop ∨ c.clearable = false →
        exec (.faultClear src) s = .next (s.withCore (c.answer src 0xB031 0 stDenied)))) ∧
    (c.plainEvents →
      (∀ w, w < 16384 → ∃ t, exec (.stageStall w) s = .next t ∧ t.dev = .faultStop) ∧
      ∀ k, k ≤ 2 → s.dev ≠ .standby → ∃ t, exec (.ringmasterWatchdog k) s = .next t ∧ t.dev = .faultStop)

/-- R457, R458: an arm whose fields are good, in a state that runs work and with the unlock that its detector asks
for, arms its slot with them; a slot that is disarmed carries no more; a periodic slot's moment makes the next
operation carry an injection. -/
def Obligations.InjectionSlots : Prop :=
  ∀ (s : State) (src : Src) (i : Nat), s.settled → s.awake → s.core.unpoisoned →
    let c := s.core
    let o := injObj i
    let others (t : Core) : Prop := ∀ j, j ≠ i → KMap.get? t.inj j = KMap.get? c.inj j
    (i < 8 → c.reach s.dev src o 7 true = true →
      (c.obj o 2 = 1 ∨ c.obj o 2 = 2 → 1 ≤ c.obj o 1 → c.obj o 1 ≤ 0x19 →
        c.obj o 3 = 0xFFFF ∨ c.obj o 3 < injTargets (c.obj o 1) → injPatternOk (c.obj o 1) (c.obj o 4) = true →
        c.obj o 5 % 64 = 0 → 1000 ≤ c.obj o 6 → c.obj o 6 ≤ 1000000000000 →
        s.dev = .ready ∨ s.dev = .run ∨ s.dev = .drain → injProtected (c.obj o 1) = false ∨ 2 ≤ c.sec.level →
        ∃ (t : Core) (x : InjSlot), exec (.injectionArm src i) s = .next (s.withCore t) ∧
          KMap.get? t.inj i = some x ∧ x.detector = c.obj o 1 ∧ x.target = c.obj o 3 ∧ x.pattern = c.obj o 4 ∧
          x.address = c.obj o 5 ∧ x.period = c.obj o 6 ∧ (x.periodic = true ↔ c.obj o 2 = 2) ∧ x.state = 1 ∧
          x.count = 0 ∧ others t ∧ t.dict.lastStatus = stOk ∧ t.mem = c.mem) ∧
      ∃ t : Core, exec (.injectionDisarm src i) s = .next (s.withCore t) ∧ others t ∧ t.mem = c.mem ∧
        ∀ x, KMap.get? c.inj i = some x → KMap.get? t.inj i = some { x with state := 0, due := false }) ∧
    ∃ t : Core, exec (.periodicInjection i) s = .next (s.withCore t) ∧ others t ∧ t.mem = c.mem ∧ t.dict = c.dict ∧
      ∀ x, KMap.get? c.inj i = some x →
        KMap.get? t.inj i = some (if x.state = 1 ∧ x.periodic = true then { x with due := true } else x)
end

