-- ==== Sys2Proof/Laws/State.lean ====
section
/-! SUPPORT. What each named update of the state leaves alone: one lemma per field and update, all true by unfolding. -/

namespace Sys2Proof.Machine

/-! ### setObj -/

@[simp] theorem Core.setObj_now (c : Core) (index sub v : Nat) : (c.setObj index sub v).now = c.now := rfl
@[simp] theorem Core.setObj_free (c : Core) (index sub v : Nat) : (c.setObj index sub v).free = c.free := rfl
@[simp] theorem Core.setObj_step (c : Core) (index sub v : Nat) : (c.setObj index sub v).step = c.step := rfl
@[simp] theorem Core.setObj_incs (c : Core) (index sub v : Nat) : (c.setObj index sub v).incs = c.incs := rfl
@[simp] theorem Core.setObj_faultReq (c : Core) (index sub v : Nat) : (c.setObj index sub v).faultReq = c.faultReq := rfl
@[simp] theorem Core.setObj_log (c : Core) (index sub v : Nat) : (c.setObj index sub v).log = c.log := rfl
@[simp] theorem Core.setObj_inj (c : Core) (index sub v : Nat) : (c.setObj index sub v).inj = c.inj := rfl
@[simp] theorem Core.setObj_mem (c : Core) (index sub v : Nat) : (c.setObj index sub v).mem = c.mem := rfl
@[simp] theorem Core.setObj_links (c : Core) (index sub v : Nat) : (c.setObj index sub v).links = c.links := rfl
@[simp] theorem Core.setObj_fwd (c : Core) (index sub v : Nat) : (c.setObj index sub v).fwd = c.fwd := rfl
@[simp] theorem Core.setObj_bwd (c : Core) (index sub v : Nat) : (c.setObj index sub v).bwd = c.bwd := rfl
@[simp] theorem Core.setObj_attn (c : Core) (index sub v : Nat) : (c.setObj index sub v).attn = c.attn := rfl
@[simp] theorem Core.setObj_roll (c : Core) (index sub v : Nat) : (c.setObj index sub v).roll = c.roll := rfl
@[simp] theorem Core.setObj_stp (c : Core) (index sub v : Nat) : (c.setObj index sub v).stp = c.stp := rfl
@[simp] theorem Core.setObj_xch (c : Core) (index sub v : Nat) : (c.setObj index sub v).xch = c.xch := rfl
@[simp] theorem Core.setObj_pow (c : Core) (index sub v : Nat) : (c.setObj index sub v).pow = c.pow := rfl
@[simp] theorem Core.setObj_pins (c : Core) (index sub v : Nat) : (c.setObj index sub v).pins = c.pins := rfl
@[simp] theorem Core.setObj_module_ (c : Core) (index sub v : Nat) : (c.setObj index sub v).module_ = c.module_ := rfl
@[simp] theorem Core.setObj_sec (c : Core) (index sub v : Nat) : (c.setObj index sub v).sec = c.sec := rfl

/-! ### setBlob -/

@[simp] theorem Core.setBlob_now (c : Core) (index sub : Nat) (b : List Byte) : (c.setBlob index sub b).now = c.now := rfl
@[simp] theorem Core.setBlob_free (c : Core) (index sub : Nat) (b : List Byte) : (c.setBlob index sub b).free = c.free := rfl
@[simp] theorem Core.setBlob_step (c : Core) (index sub : Nat) (b : List Byte) : (c.setBlob index sub b).step = c.step := rfl
@[simp] theorem Core.setBlob_incs (c : Core) (index sub : Nat) (b : List Byte) : (c.setBlob index sub b).incs = c.incs := rfl
@[simp] theorem Core.setBlob_faultReq (c : Core) (index sub : Nat) (b : List Byte) : (c.setBlob index sub b).faultReq = c.faultReq := rfl
@[simp] theorem Core.setBlob_log (c : Core) (index sub : Nat) (b : List Byte) : (c.setBlob index sub b).log = c.log := rfl
@[simp] theorem Core.setBlob_inj (c : Core) (index sub : Nat) (b : List Byte) : (c.setBlob index sub b).inj = c.inj := rfl
@[simp] theorem Core.setBlob_mem (c : Core) (index sub : Nat) (b : List Byte) : (c.setBlob index sub b).mem = c.mem := rfl
@[simp] theorem Core.setBlob_links (c : Core) (index sub : Nat) (b : List Byte) : (c.setBlob index sub b).links = c.links := rfl
@[simp] theorem Core.setBlob_fwd (c : Core) (index sub : Nat) (b : List Byte) : (c.setBlob index sub b).fwd = c.fwd := rfl
@[simp] theorem Core.setBlob_bwd (c : Core) (index sub : Nat) (b : List Byte) : (c.setBlob index sub b).bwd = c.bwd := rfl
@[simp] theorem Core.setBlob_attn (c : Core) (index sub : Nat) (b : List Byte) : (c.setBlob index sub b).attn = c.attn := rfl
@[simp] theorem Core.setBlob_roll (c : Core) (index sub : Nat) (b : List Byte) : (c.setBlob index sub b).roll = c.roll := rfl
@[simp] theorem Core.setBlob_stp (c : Core) (index sub : Nat) (b : List Byte) : (c.setBlob index sub b).stp = c.stp := rfl
@[simp] theorem Core.setBlob_xch (c : Core) (index sub : Nat) (b : List Byte) : (c.setBlob index sub b).xch = c.xch := rfl
@[simp] theorem Core.setBlob_pow (c : Core) (index sub : Nat) (b : List Byte) : (c.setBlob index sub b).pow = c.pow := rfl
@[simp] theorem Core.setBlob_pins (c : Core) (index sub : Nat) (b : List Byte) : (c.setBlob index sub b).pins = c.pins := rfl
@[simp] theorem Core.setBlob_module_ (c : Core) (index sub : Nat) (b : List Byte) : (c.setBlob index sub b).module_ = c.module_ := rfl
@[simp] theorem Core.setBlob_sec (c : Core) (index sub : Nat) (b : List Byte) : (c.setBlob index sub b).sec = c.sec := rfl

/-! ### setPins -/

@[simp] theorem Core.setPins_now (c : Core) (f : Pins → Pins) : (c.setPins f).now = c.now := rfl
@[simp] theorem Core.setPins_free (c : Core) (f : Pins → Pins) : (c.setPins f).free = c.free := rfl
@[simp] theorem Core.setPins_step (c : Core) (f : Pins → Pins) : (c.setPins f).step = c.step := rfl
@[simp] theorem Core.setPins_incs (c : Core) (f : Pins → Pins) : (c.setPins f).incs = c.incs := rfl
@[simp] theorem Core.setPins_faultReq (c : Core) (f : Pins → Pins) : (c.setPins f).faultReq = c.faultReq := rfl
@[simp] theorem Core.setPins_log (c : Core) (f : Pins → Pins) : (c.setPins f).log = c.log := rfl
@[simp] theorem Core.setPins_inj (c : Core) (f : Pins → Pins) : (c.setPins f).inj = c.inj := rfl
@[simp] theorem Core.setPins_dict (c : Core) (f : Pins → Pins) : (c.setPins f).dict = c.dict := rfl
@[simp] theorem Core.setPins_mem (c : Core) (f : Pins → Pins) : (c.setPins f).mem = c.mem := rfl
@[simp] theorem Core.setPins_links (c : Core) (f : Pins → Pins) : (c.setPins f).links = c.links := rfl
@[simp] theorem Core.setPins_fwd (c : Core) (f : Pins → Pins) : (c.setPins f).fwd = c.fwd := rfl
@[simp] theorem Core.setPins_bwd (c : Core) (f : Pins → Pins) : (c.setPins f).bwd = c.bwd := rfl
@[simp] theorem Core.setPins_attn (c : Core) (f : Pins → Pins) : (c.setPins f).attn = c.attn := rfl
@[simp] theorem Core.setPins_roll (c : Core) (f : Pins → Pins) : (c.setPins f).roll = c.roll := rfl
@[simp] theorem Core.setPins_stp (c : Core) (f : Pins → Pins) : (c.setPins f).stp = c.stp := rfl
@[simp] theorem Core.setPins_xch (c : Core) (f : Pins → Pins) : (c.setPins f).xch = c.xch := rfl
@[simp] theorem Core.setPins_pow (c : Core) (f : Pins → Pins) : (c.setPins f).pow = c.pow := rfl
@[simp] theorem Core.setPins_module_ (c : Core) (f : Pins → Pins) : (c.setPins f).module_ = c.module_ := rfl
@[simp] theorem Core.setPins_sec (c : Core) (f : Pins → Pins) : (c.setPins f).sec = c.sec := rfl

/-! ### setDesc -/

@[simp] theorem Core.setDesc_now (c : Core) (d : Nat) (x : Desc) : (c.setDesc d x).now = c.now := rfl
@[simp] theorem Core.setDesc_free (c : Core) (d : Nat) (x : Desc) : (c.setDesc d x).free = c.free := rfl
@[simp] theorem Core.setDesc_step (c : Core) (d : Nat) (x : Desc) : (c.setDesc d x).step = c.step := rfl
@[simp] theorem Core.setDesc_incs (c : Core) (d : Nat) (x : Desc) : (c.setDesc d x).incs = c.incs := rfl
@[simp] theorem Core.setDesc_faultReq (c : Core) (d : Nat) (x : Desc) : (c.setDesc d x).faultReq = c.faultReq := rfl
@[simp] theorem Core.setDesc_log (c : Core) (d : Nat) (x : Desc) : (c.setDesc d x).log = c.log := rfl
@[simp] theorem Core.setDesc_inj (c : Core) (d : Nat) (x : Desc) : (c.setDesc d x).inj = c.inj := rfl
@[simp] theorem Core.setDesc_dict (c : Core) (d : Nat) (x : Desc) : (c.setDesc d x).dict = c.dict := rfl
@[simp] theorem Core.setDesc_mem (c : Core) (d : Nat) (x : Desc) : (c.setDesc d x).mem = c.mem := rfl
@[simp] theorem Core.setDesc_fwd (c : Core) (d : Nat) (x : Desc) : (c.setDesc d x).fwd = c.fwd := rfl
@[simp] theorem Core.setDesc_bwd (c : Core) (d : Nat) (x : Desc) : (c.setDesc d x).bwd = c.bwd := rfl
@[simp] theorem Core.setDesc_attn (c : Core) (d : Nat) (x : Desc) : (c.setDesc d x).attn = c.attn := rfl
@[simp] theorem Core.setDesc_roll (c : Core) (d : Nat) (x : Desc) : (c.setDesc d x).roll = c.roll := rfl
@[simp] theorem Core.setDesc_stp (c : Core) (d : Nat) (x : Desc) : (c.setDesc d x).stp = c.stp := rfl
@[simp] theorem Core.setDesc_xch (c : Core) (d : Nat) (x : Desc) : (c.setDesc d x).xch = c.xch := rfl
@[simp] theorem Core.setDesc_pow (c : Core) (d : Nat) (x : Desc) : (c.setDesc d x).pow = c.pow := rfl
@[simp] theorem Core.setDesc_pins (c : Core) (d : Nat) (x : Desc) : (c.setDesc d x).pins = c.pins := rfl
@[simp] theorem Core.setDesc_module_ (c : Core) (d : Nat) (x : Desc) : (c.setDesc d x).module_ = c.module_ := rfl
@[simp] theorem Core.setDesc_sec (c : Core) (d : Nat) (x : Desc) : (c.setDesc d x).sec = c.sec := rfl

/-! ### noteFetch -/

@[simp] theorem Core.noteFetch_now (c : Core) (q : Nat) : (c.noteFetch q).now = c.now := rfl
@[simp] theorem Core.noteFetch_free (c : Core) (q : Nat) : (c.noteFetch q).free = c.free := rfl
@[simp] theorem Core.noteFetch_step (c : Core) (q : Nat) : (c.noteFetch q).step = c.step := rfl
@[simp] theorem Core.noteFetch_incs (c : Core) (q : Nat) : (c.noteFetch q).incs = c.incs := rfl
@[simp] theorem Core.noteFetch_faultReq (c : Core) (q : Nat) : (c.noteFetch q).faultReq = c.faultReq := rfl
@[simp] theorem Core.noteFetch_log (c : Core) (q : Nat) : (c.noteFetch q).log = c.log := rfl
@[simp] theorem Core.noteFetch_inj (c : Core) (q : Nat) : (c.noteFetch q).inj = c.inj := rfl
@[simp] theorem Core.noteFetch_dict (c : Core) (q : Nat) : (c.noteFetch q).dict = c.dict := rfl
@[simp] theorem Core.noteFetch_mem (c : Core) (q : Nat) : (c.noteFetch q).mem = c.mem := rfl
@[simp] theorem Core.noteFetch_fwd (c : Core) (q : Nat) : (c.noteFetch q).fwd = c.fwd := rfl
@[simp] theorem Core.noteFetch_bwd (c : Core) (q : Nat) : (c.noteFetch q).bwd = c.bwd := rfl
@[simp] theorem Core.noteFetch_attn (c : Core) (q : Nat) : (c.noteFetch q).attn = c.attn := rfl
@[simp] theorem Core.noteFetch_roll (c : Core) (q : Nat) : (c.noteFetch q).roll = c.roll := rfl
@[simp] theorem Core.noteFetch_stp (c : Core) (q : Nat) : (c.noteFetch q).stp = c.stp := rfl
@[simp] theorem Core.noteFetch_xch (c : Core) (q : Nat) : (c.noteFetch q).xch = c.xch := rfl
@[simp] theorem Core.noteFetch_pow (c : Core) (q : Nat) : (c.noteFetch q).pow = c.pow := rfl
@[simp] theorem Core.noteFetch_pins (c : Core) (q : Nat) : (c.noteFetch q).pins = c.pins := rfl
@[simp] theorem Core.noteFetch_module_ (c : Core) (q : Nat) : (c.noteFetch q).module_ = c.module_ := rfl
@[simp] theorem Core.noteFetch_sec (c : Core) (q : Nat) : (c.noteFetch q).sec = c.sec := rfl
@[simp] theorem Core.noteFetch_queues (c : Core) (q : Nat) : (c.noteFetch q).links.queues = c.links.queues := rfl
@[simp] theorem Core.noteFetch_descs (c : Core) (q : Nat) : (c.noteFetch q).links.descs = c.links.descs := rfl
@[simp] theorem Core.noteFetch_lastFetch (c : Core) (q : Nat) : (c.noteFetch q).links.lastFetch = q := rfl

/-! ### setQueue -/

@[simp] theorem Core.setQueue_now (c : Core) (q : Nat) (x : Queue) : (c.setQueue q x).now = c.now := rfl
@[simp] theorem Core.setQueue_free (c : Core) (q : Nat) (x : Queue) : (c.setQueue q x).free = c.free := rfl
@[simp] theorem Core.setQueue_step (c : Core) (q : Nat) (x : Queue) : (c.setQueue q x).step = c.step := rfl
@[simp] theorem Core.setQueue_incs (c : Core) (q : Nat) (x : Queue) : (c.setQueue q x).incs = c.incs := rfl
@[simp] theorem Core.setQueue_faultReq (c : Core) (q : Nat) (x : Queue) : (c.setQueue q x).faultReq = c.faultReq := rfl
@[simp] theorem Core.setQueue_log (c : Core) (q : Nat) (x : Queue) : (c.setQueue q x).log = c.log := rfl
@[simp] theorem Core.setQueue_inj (c : Core) (q : Nat) (x : Queue) : (c.setQueue q x).inj = c.inj := rfl
@[simp] theorem Core.setQueue_dict (c : Core) (q : Nat) (x : Queue) : (c.setQueue q x).dict = c.dict := rfl
@[simp] theorem Core.setQueue_mem (c : Core) (q : Nat) (x : Queue) : (c.setQueue q x).mem = c.mem := rfl
@[simp] theorem Core.setQueue_fwd (c : Core) (q : Nat) (x : Queue) : (c.setQueue q x).fwd = c.fwd := rfl
@[simp] theorem Core.setQueue_bwd (c : Core) (q : Nat) (x : Queue) : (c.setQueue q x).bwd = c.bwd := rfl
@[simp] theorem Core.setQueue_attn (c : Core) (q : Nat) (x : Queue) : (c.setQueue q x).attn = c.attn := rfl
@[simp] theorem Core.setQueue_roll (c : Core) (q : Nat) (x : Queue) : (c.setQueue q x).roll = c.roll := rfl
@[simp] theorem Core.setQueue_stp (c : Core) (q : Nat) (x : Queue) : (c.setQueue q x).stp = c.stp := rfl
@[simp] theorem Core.setQueue_xch (c : Core) (q : Nat) (x : Queue) : (c.setQueue q x).xch = c.xch := rfl
@[simp] theorem Core.setQueue_pow (c : Core) (q : Nat) (x : Queue) : (c.setQueue q x).pow = c.pow := rfl
@[simp] theorem Core.setQueue_pins (c : Core) (q : Nat) (x : Queue) : (c.setQueue q x).pins = c.pins := rfl
@[simp] theorem Core.setQueue_module_ (c : Core) (q : Nat) (x : Queue) : (c.setQueue q x).module_ = c.module_ := rfl
@[simp] theorem Core.setQueue_sec (c : Core) (q : Nat) (x : Queue) : (c.setQueue q x).sec = c.sec := rfl

/-! ### setTally -/

@[simp] theorem Core.setTally_now (c : Core) (t v : Nat) : (c.setTally t v).now = c.now := rfl
@[simp] theorem Core.setTally_free (c : Core) (t v : Nat) : (c.setTally t v).free = c.free := rfl
@[simp] theorem Core.setTally_step (c : Core) (t v : Nat) : (c.setTally t v).step = c.step := rfl
@[simp] theorem Core.setTally_incs (c : Core) (t v : Nat) : (c.setTally t v).incs = c.incs := rfl
@[simp] theorem Core.setTally_faultReq (c : Core) (t v : Nat) : (c.setTally t v).faultReq = c.faultReq := rfl
@[simp] theorem Core.setTally_log (c : Core) (t v : Nat) : (c.setTally t v).log = c.log := rfl
@[simp] theorem Core.setTally_inj (c : Core) (t v : Nat) : (c.setTally t v).inj = c.inj := rfl
@[simp] theorem Core.setTally_dict (c : Core) (t v : Nat) : (c.setTally t v).dict = c.dict := rfl
@[simp] theorem Core.setTally_mem (c : Core) (t v : Nat) : (c.setTally t v).mem = c.mem := rfl
@[simp] theorem Core.setTally_fwd (c : Core) (t v : Nat) : (c.setTally t v).fwd = c.fwd := rfl
@[simp] theorem Core.setTally_bwd (c : Core) (t v : Nat) : (c.setTally t v).bwd = c.bwd := rfl
@[simp] theorem Core.setTally_attn (c : Core) (t v : Nat) : (c.setTally t v).attn = c.attn := rfl
@[simp] theorem Core.setTally_roll (c : Core) (t v : Nat) : (c.setTally t v).roll = c.roll := rfl
@[simp] theorem Core.setTally_stp (c : Core) (t v : Nat) : (c.setTally t v).stp = c.stp := rfl
@[simp] theorem Core.setTally_xch (c : Core) (t v : Nat) : (c.setTally t v).xch = c.xch := rfl
@[simp] theorem Core.setTally_pow (c : Core) (t v : Nat) : (c.setTally t v).pow = c.pow := rfl
@[simp] theorem Core.setTally_pins (c : Core) (t v : Nat) : (c.setTally t v).pins = c.pins := rfl
@[simp] theorem Core.setTally_module_ (c : Core) (t v : Nat) : (c.setTally t v).module_ = c.module_ := rfl
@[simp] theorem Core.setTally_sec (c : Core) (t v : Nat) : (c.setTally t v).sec = c.sec := rfl

/-! ### setPort -/

@[simp] theorem Core.setPort_now (c : Core) (f : Nat) (p : Port) : (c.setPort f p).now = c.now := rfl
@[simp] theorem Core.setPort_free (c : Core) (f : Nat) (p : Port) : (c.setPort f p).free = c.free := rfl
@[simp] theorem Core.setPort_step (c : Core) (f : Nat) (p : Port) : (c.setPort f p).step = c.step := rfl
@[simp] theorem Core.setPort_incs (c : Core) (f : Nat) (p : Port) : (c.setPort f p).incs = c.incs := rfl
@[simp] theorem Core.setPort_faultReq (c : Core) (f : Nat) (p : Port) : (c.setPort f p).faultReq = c.faultReq := rfl
@[simp] theorem Core.setPort_log (c : Core) (f : Nat) (p : Port) : (c.setPort f p).log = c.log := rfl
@[simp] theorem Core.setPort_inj (c : Core) (f : Nat) (p : Port) : (c.setPort f p).inj = c.inj := rfl
@[simp] theorem Core.setPort_dict (c : Core) (f : Nat) (p : Port) : (c.setPort f p).dict = c.dict := rfl
@[simp] theorem Core.setPort_mem (c : Core) (f : Nat) (p : Port) : (c.setPort f p).mem = c.mem := rfl
@[simp] theorem Core.setPort_fwd (c : Core) (f : Nat) (p : Port) : (c.setPort f p).fwd = c.fwd := rfl
@[simp] theorem Core.setPort_bwd (c : Core) (f : Nat) (p : Port) : (c.setPort f p).bwd = c.bwd := rfl
@[simp] theorem Core.setPort_attn (c : Core) (f : Nat) (p : Port) : (c.setPort f p).attn = c.attn := rfl
@[simp] theorem Core.setPort_roll (c : Core) (f : Nat) (p : Port) : (c.setPort f p).roll = c.roll := rfl
@[simp] theorem Core.setPort_stp (c : Core) (f : Nat) (p : Port) : (c.setPort f p).stp = c.stp := rfl
@[simp] theorem Core.setPort_xch (c : Core) (f : Nat) (p : Port) : (c.setPort f p).xch = c.xch := rfl
@[simp] theorem Core.setPort_pow (c : Core) (f : Nat) (p : Port) : (c.setPort f p).pow = c.pow := rfl
@[simp] theorem Core.setPort_pins (c : Core) (f : Nat) (p : Port) : (c.setPort f p).pins = c.pins := rfl
@[simp] theorem Core.setPort_module_ (c : Core) (f : Nat) (p : Port) : (c.setPort f p).module_ = c.module_ := rfl
@[simp] theorem Core.setPort_sec (c : Core) (f : Nat) (p : Port) : (c.setPort f p).sec = c.sec := rfl

/-! ### setTile -/

@[simp] theorem Core.setTile_now (c : Core) (t : Nat) (y : Tile) : (c.setTile t y).now = c.now := rfl
@[simp] theorem Core.setTile_free (c : Core) (t : Nat) (y : Tile) : (c.setTile t y).free = c.free := rfl
@[simp] theorem Core.setTile_step (c : Core) (t : Nat) (y : Tile) : (c.setTile t y).step = c.step := rfl
@[simp] theorem Core.setTile_incs (c : Core) (t : Nat) (y : Tile) : (c.setTile t y).incs = c.incs := rfl
@[simp] theorem Core.setTile_faultReq (c : Core) (t : Nat) (y : Tile) : (c.setTile t y).faultReq = c.faultReq := rfl
@[simp] theorem Core.setTile_log (c : Core) (t : Nat) (y : Tile) : (c.setTile t y).log = c.log := rfl
@[simp] theorem Core.setTile_inj (c : Core) (t : Nat) (y : Tile) : (c.setTile t y).inj = c.inj := rfl
@[simp] theorem Core.setTile_dict (c : Core) (t : Nat) (y : Tile) : (c.setTile t y).dict = c.dict := rfl
@[simp] theorem Core.setTile_mem (c : Core) (t : Nat) (y : Tile) : (c.setTile t y).mem = c.mem := rfl
@[simp] theorem Core.setTile_links (c : Core) (t : Nat) (y : Tile) : (c.setTile t y).links = c.links := rfl
@[simp] theorem Core.setTile_bwd (c : Core) (t : Nat) (y : Tile) : (c.setTile t y).bwd = c.bwd := rfl
@[simp] theorem Core.setTile_attn (c : Core) (t : Nat) (y : Tile) : (c.setTile t y).attn = c.attn := rfl
@[simp] theorem Core.setTile_roll (c : Core) (t : Nat) (y : Tile) : (c.setTile t y).roll = c.roll := rfl
@[simp] theorem Core.setTile_stp (c : Core) (t : Nat) (y : Tile) : (c.setTile t y).stp = c.stp := rfl
@[simp] theorem Core.setTile_xch (c : Core) (t : Nat) (y : Tile) : (c.setTile t y).xch = c.xch := rfl
@[simp] theorem Core.setTile_pow (c : Core) (t : Nat) (y : Tile) : (c.setTile t y).pow = c.pow := rfl
@[simp] theorem Core.setTile_pins (c : Core) (t : Nat) (y : Tile) : (c.setTile t y).pins = c.pins := rfl
@[simp] theorem Core.setTile_module_ (c : Core) (t : Nat) (y : Tile) : (c.setTile t y).module_ = c.module_ := rfl
@[simp] theorem Core.setTile_sec (c : Core) (t : Nat) (y : Tile) : (c.setTile t y).sec = c.sec := rfl

/-! ### setCopy -/

@[simp] theorem Core.setCopy_now (c : Core) (d : Nat) (r : CopyRun) : (c.setCopy d r).now = c.now := rfl
@[simp] theorem Core.setCopy_free (c : Core) (d : Nat) (r : CopyRun) : (c.setCopy d r).free = c.free := rfl
@[simp] theorem Core.setCopy_step (c : Core) (d : Nat) (r : CopyRun) : (c.setCopy d r).step = c.step := rfl
@[simp] theorem Core.setCopy_incs (c : Core) (d : Nat) (r : CopyRun) : (c.setCopy d r).incs = c.incs := rfl
@[simp] theorem Core.setCopy_faultReq (c : Core) (d : Nat) (r : CopyRun) : (c.setCopy d r).faultReq = c.faultReq := rfl
@[simp] theorem Core.setCopy_log (c : Core) (d : Nat) (r : CopyRun) : (c.setCopy d r).log = c.log := rfl
@[simp] theorem Core.setCopy_inj (c : Core) (d : Nat) (r : CopyRun) : (c.setCopy d r).inj = c.inj := rfl
@[simp] theorem Core.setCopy_dict (c : Core) (d : Nat) (r : CopyRun) : (c.setCopy d r).dict = c.dict := rfl
@[simp] theorem Core.setCopy_mem (c : Core) (d : Nat) (r : CopyRun) : (c.setCopy d r).mem = c.mem := rfl
@[simp] theorem Core.setCopy_fwd (c : Core) (d : Nat) (r : CopyRun) : (c.setCopy d r).fwd = c.fwd := rfl
@[simp] theorem Core.setCopy_bwd (c : Core) (d : Nat) (r : CopyRun) : (c.setCopy d r).bwd = c.bwd := rfl
@[simp] theorem Core.setCopy_attn (c : Core) (d : Nat) (r : CopyRun) : (c.setCopy d r).attn = c.attn := rfl
@[simp] theorem Core.setCopy_roll (c : Core) (d : Nat) (r : CopyRun) : (c.setCopy d r).roll = c.roll := rfl
@[simp] theorem Core.setCopy_stp (c : Core) (d : Nat) (r : CopyRun) : (c.setCopy d r).stp = c.stp := rfl
@[simp] theorem Core.setCopy_xch (c : Core) (d : Nat) (r : CopyRun) : (c.setCopy d r).xch = c.xch := rfl
@[simp] theorem Core.setCopy_pow (c : Core) (d : Nat) (r : CopyRun) : (c.setCopy d r).pow = c.pow := rfl
@[simp] theorem Core.setCopy_pins (c : Core) (d : Nat) (r : CopyRun) : (c.setCopy d r).pins = c.pins := rfl
@[simp] theorem Core.setCopy_module_ (c : Core) (d : Nat) (r : CopyRun) : (c.setCopy d r).module_ = c.module_ := rfl
@[simp] theorem Core.setCopy_sec (c : Core) (d : Nat) (r : CopyRun) : (c.setCopy d r).sec = c.sec := rfl

/-! ### openTxn -/

@[simp] theorem Core.openTxn_now (c : Core) (t : Nat) (x : Txn) : (c.openTxn t x).now = c.now := rfl
@[simp] theorem Core.openTxn_free (c : Core) (t : Nat) (x : Txn) : (c.openTxn t x).free = c.free := rfl
@[simp] theorem Core.openTxn_step (c : Core) (t : Nat) (x : Txn) : (c.openTxn t x).step = c.step := rfl
@[simp] theorem Core.openTxn_incs (c : Core) (t : Nat) (x : Txn) : (c.openTxn t x).incs = c.incs := rfl
@[simp] theorem Core.openTxn_faultReq (c : Core) (t : Nat) (x : Txn) : (c.openTxn t x).faultReq = c.faultReq := rfl
@[simp] theorem Core.openTxn_log (c : Core) (t : Nat) (x : Txn) : (c.openTxn t x).log = c.log := rfl
@[simp] theorem Core.openTxn_inj (c : Core) (t : Nat) (x : Txn) : (c.openTxn t x).inj = c.inj := rfl
@[simp] theorem Core.openTxn_dict (c : Core) (t : Nat) (x : Txn) : (c.openTxn t x).dict = c.dict := rfl
@[simp] theorem Core.openTxn_mem (c : Core) (t : Nat) (x : Txn) : (c.openTxn t x).mem = c.mem := rfl
@[simp] theorem Core.openTxn_fwd (c : Core) (t : Nat) (x : Txn) : (c.openTxn t x).fwd = c.fwd := rfl
@[simp] theorem Core.openTxn_bwd (c : Core) (t : Nat) (x : Txn) : (c.openTxn t x).bwd = c.bwd := rfl
@[simp] theorem Core.openTxn_attn (c : Core) (t : Nat) (x : Txn) : (c.openTxn t x).attn = c.attn := rfl
@[simp] theorem Core.openTxn_roll (c : Core) (t : Nat) (x : Txn) : (c.openTxn t x).roll = c.roll := rfl
@[simp] theorem Core.openTxn_stp (c : Core) (t : Nat) (x : Txn) : (c.openTxn t x).stp = c.stp := rfl
@[simp] theorem Core.openTxn_xch (c : Core) (t : Nat) (x : Txn) : (c.openTxn t x).xch = c.xch := rfl
@[simp] theorem Core.openTxn_pow (c : Core) (t : Nat) (x : Txn) : (c.openTxn t x).pow = c.pow := rfl
@[simp] theorem Core.openTxn_pins (c : Core) (t : Nat) (x : Txn) : (c.openTxn t x).pins = c.pins := rfl
@[simp] theorem Core.openTxn_module_ (c : Core) (t : Nat) (x : Txn) : (c.openTxn t x).module_ = c.module_ := rfl
@[simp] theorem Core.openTxn_sec (c : Core) (t : Nat) (x : Txn) : (c.openTxn t x).sec = c.sec := rfl

/-! ### noteIssue -/

@[simp] theorem Core.noteIssue_now (c : Core) (doms : List Nat) : (c.noteIssue doms).now = c.now := rfl
@[simp] theorem Core.noteIssue_free (c : Core) (doms : List Nat) : (c.noteIssue doms).free = c.free := rfl
@[simp] theorem Core.noteIssue_step (c : Core) (doms : List Nat) : (c.noteIssue doms).step = c.step := rfl
@[simp] theorem Core.noteIssue_incs (c : Core) (doms : List Nat) : (c.noteIssue doms).incs = c.incs := rfl
@[simp] theorem Core.noteIssue_faultReq (c : Core) (doms : List Nat) : (c.noteIssue doms).faultReq = c.faultReq := rfl
@[simp] theorem Core.noteIssue_log (c : Core) (doms : List Nat) : (c.noteIssue doms).log = c.log := rfl
@[simp] theorem Core.noteIssue_inj (c : Core) (doms : List Nat) : (c.noteIssue doms).inj = c.inj := rfl
@[simp] theorem Core.noteIssue_dict (c : Core) (doms : List Nat) : (c.noteIssue doms).dict = c.dict := rfl
@[simp] theorem Core.noteIssue_mem (c : Core) (doms : List Nat) : (c.noteIssue doms).mem = c.mem := rfl
@[simp] theorem Core.noteIssue_links (c : Core) (doms : List Nat) : (c.noteIssue doms).links = c.links := rfl
@[simp] theorem Core.noteIssue_fwd (c : Core) (doms : List Nat) : (c.noteIssue doms).fwd = c.fwd := rfl
@[simp] theorem Core.noteIssue_bwd (c : Core) (doms : List Nat) : (c.noteIssue doms).bwd = c.bwd := rfl
@[simp] theorem Core.noteIssue_attn (c : Core) (doms : List Nat) : (c.noteIssue doms).attn = c.attn := rfl
@[simp] theorem Core.noteIssue_roll (c : Core) (doms : List Nat) : (c.noteIssue doms).roll = c.roll := rfl
@[simp] theorem Core.noteIssue_stp (c : Core) (doms : List Nat) : (c.noteIssue doms).stp = c.stp := rfl
@[simp] theorem Core.noteIssue_xch (c : Core) (doms : List Nat) : (c.noteIssue doms).xch = c.xch := rfl
@[simp] theorem Core.noteIssue_pins (c : Core) (doms : List Nat) : (c.noteIssue doms).pins = c.pins := rfl
@[simp] theorem Core.noteIssue_module_ (c : Core) (doms : List Nat) : (c.noteIssue doms).module_ = c.module_ := rfl
@[simp] theorem Core.noteIssue_sec (c : Core) (doms : List Nat) : (c.noteIssue doms).sec = c.sec := rfl

/-! ### poisonUnit -/

@[simp] theorem Core.poisonUnit_now (c : Core) (a : Nat) : (c.poisonUnit a).now = c.now := rfl
@[simp] theorem Core.poisonUnit_free (c : Core) (a : Nat) : (c.poisonUnit a).free = c.free := rfl
@[simp] theorem Core.poisonUnit_step (c : Core) (a : Nat) : (c.poisonUnit a).step = c.step := rfl
@[simp] theorem Core.poisonUnit_incs (c : Core) (a : Nat) : (c.poisonUnit a).incs = c.incs := rfl
@[simp] theorem Core.poisonUnit_faultReq (c : Core) (a : Nat) : (c.poisonUnit a).faultReq = c.faultReq := rfl
@[simp] theorem Core.poisonUnit_log (c : Core) (a : Nat) : (c.poisonUnit a).log = c.log := rfl
@[simp] theorem Core.poisonUnit_inj (c : Core) (a : Nat) : (c.poisonUnit a).inj = c.inj := rfl
@[simp] theorem Core.poisonUnit_dict (c : Core) (a : Nat) : (c.poisonUnit a).dict = c.dict := rfl
@[simp] theorem Core.poisonUnit_links (c : Core) (a : Nat) : (c.poisonUnit a).links = c.links := rfl
@[simp] theorem Core.poisonUnit_fwd (c : Core) (a : Nat) : (c.poisonUnit a).fwd = c.fwd := rfl
@[simp] theorem Core.poisonUnit_bwd (c : Core) (a : Nat) : (c.poisonUnit a).bwd = c.bwd := rfl
@[simp] theorem Core.poisonUnit_attn (c : Core) (a : Nat) : (c.poisonUnit a).attn = c.attn := rfl
@[simp] theorem Core.poisonUnit_roll (c : Core) (a : Nat) : (c.poisonUnit a).roll = c.roll := rfl
@[simp] theorem Core.poisonUnit_stp (c : Core) (a : Nat) : (c.poisonUnit a).stp = c.stp := rfl
@[simp] theorem Core.poisonUnit_xch (c : Core) (a : Nat) : (c.poisonUnit a).xch = c.xch := rfl
@[simp] theorem Core.poisonUnit_pow (c : Core) (a : Nat) : (c.poisonUnit a).pow = c.pow := rfl
@[simp] theorem Core.poisonUnit_pins (c : Core) (a : Nat) : (c.poisonUnit a).pins = c.pins := rfl
@[simp] theorem Core.poisonUnit_module_ (c : Core) (a : Nat) : (c.poisonUnit a).module_ = c.module_ := rfl
@[simp] theorem Core.poisonUnit_sec (c : Core) (a : Nat) : (c.poisonUnit a).sec = c.sec := rfl

/-! ### clearPoison -/

@[simp] theorem Core.clearPoison_now (c : Core) (a n : Nat) : (c.clearPoison a n).now = c.now := rfl
@[simp] theorem Core.clearPoison_free (c : Core) (a n : Nat) : (c.clearPoison a n).free = c.free := rfl
@[simp] theorem Core.clearPoison_step (c : Core) (a n : Nat) : (c.clearPoison a n).step = c.step := rfl
@[simp] theorem Core.clearPoison_incs (c : Core) (a n : Nat) : (c.clearPoison a n).incs = c.incs := rfl
@[simp] theorem Core.clearPoison_faultReq (c : Core) (a n : Nat) : (c.clearPoison a n).faultReq = c.faultReq := rfl
@[simp] theorem Core.clearPoison_log (c : Core) (a n : Nat) : (c.clearPoison a n).log = c.log := rfl
@[simp] theorem Core.clearPoison_inj (c : Core) (a n : Nat) : (c.clearPoison a n).inj = c.inj := rfl
@[simp] theorem Core.clearPoison_dict (c : Core) (a n : Nat) : (c.clearPoison a n).dict = c.dict := rfl
@[simp] theorem Core.clearPoison_links (c : Core) (a n : Nat) : (c.clearPoison a n).links = c.links := rfl
@[simp] theorem Core.clearPoison_fwd (c : Core) (a n : Nat) : (c.clearPoison a n).fwd = c.fwd := rfl
@[simp] theorem Core.clearPoison_bwd (c : Core) (a n : Nat) : (c.clearPoison a n).bwd = c.bwd := rfl
@[simp] theorem Core.clearPoison_attn (c : Core) (a n : Nat) : (c.clearPoison a n).attn = c.attn := rfl
@[simp] theorem Core.clearPoison_roll (c : Core) (a n : Nat) : (c.clearPoison a n).roll = c.roll := rfl
@[simp] theorem Core.clearPoison_stp (c : Core) (a n : Nat) : (c.clearPoison a n).stp = c.stp := rfl
@[simp] theorem Core.clearPoison_xch (c : Core) (a n : Nat) : (c.clearPoison a n).xch = c.xch := rfl
@[simp] theorem Core.clearPoison_pow (c : Core) (a n : Nat) : (c.clearPoison a n).pow = c.pow := rfl
@[simp] theorem Core.clearPoison_pins (c : Core) (a n : Nat) : (c.clearPoison a n).pins = c.pins := rfl
@[simp] theorem Core.clearPoison_module_ (c : Core) (a n : Nat) : (c.clearPoison a n).module_ = c.module_ := rfl
@[simp] theorem Core.clearPoison_sec (c : Core) (a n : Nat) : (c.clearPoison a n).sec = c.sec := rfl

/-! ### hostStore -/

@[simp] theorem Core.hostStore_now (c : Core) (fn a : Nat) (bs : List Byte) : (c.hostStore fn a bs).now = c.now := rfl
@[simp] theorem Core.hostStore_free (c : Core) (fn a : Nat) (bs : List Byte) : (c.hostStore fn a bs).free = c.free := rfl
@[simp] theorem Core.hostStore_step (c : Core) (fn a : Nat) (bs : List Byte) : (c.hostStore fn a bs).step = c.step := rfl
@[simp] theorem Core.hostStore_incs (c : Core) (fn a : Nat) (bs : List Byte) : (c.hostStore fn a bs).incs = c.incs := rfl
@[simp] theorem Core.hostStore_faultReq (c : Core) (fn a : Nat) (bs : List Byte) : (c.hostStore fn a bs).faultReq = c.faultReq := rfl
@[simp] theorem Core.hostStore_log (c : Core) (fn a : Nat) (bs : List Byte) : (c.hostStore fn a bs).log = c.log := rfl
@[simp] theorem Core.hostStore_inj (c : Core) (fn a : Nat) (bs : List Byte) : (c.hostStore fn a bs).inj = c.inj := rfl
@[simp] theorem Core.hostStore_dict (c : Core) (fn a : Nat) (bs : List Byte) : (c.hostStore fn a bs).dict = c.dict := rfl
@[simp] theorem Core.hostStore_links (c : Core) (fn a : Nat) (bs : List Byte) : (c.hostStore fn a bs).links = c.links := rfl
@[simp] theorem Core.hostStore_fwd (c : Core) (fn a : Nat) (bs : List Byte) : (c.hostStore fn a bs).fwd = c.fwd := rfl
@[simp] theorem Core.hostStore_bwd (c : Core) (fn a : Nat) (bs : List Byte) : (c.hostStore fn a bs).bwd = c.bwd := rfl
@[simp] theorem Core.hostStore_attn (c : Core) (fn a : Nat) (bs : List Byte) : (c.hostStore fn a bs).attn = c.attn := rfl
@[simp] theorem Core.hostStore_roll (c : Core) (fn a : Nat) (bs : List Byte) : (c.hostStore fn a bs).roll = c.roll := rfl
@[simp] theorem Core.hostStore_stp (c : Core) (fn a : Nat) (bs : List Byte) : (c.hostStore fn a bs).stp = c.stp := rfl
@[simp] theorem Core.hostStore_xch (c : Core) (fn a : Nat) (bs : List Byte) : (c.hostStore fn a bs).xch = c.xch := rfl
@[simp] theorem Core.hostStore_pow (c : Core) (fn a : Nat) (bs : List Byte) : (c.hostStore fn a bs).pow = c.pow := rfl
@[simp] theorem Core.hostStore_pins (c : Core) (fn a : Nat) (bs : List Byte) : (c.hostStore fn a bs).pins = c.pins := rfl
@[simp] theorem Core.hostStore_module_ (c : Core) (fn a : Nat) (bs : List Byte) : (c.hostStore fn a bs).module_ = c.module_ := rfl
@[simp] theorem Core.hostStore_sec (c : Core) (fn a : Nat) (bs : List Byte) : (c.hostStore fn a bs).sec = c.sec := rfl

/-! ### setArr -/

@[simp] theorem Core.setArr_now (c : Core) (a : Nat) (f : BArr → BArr) : (c.setArr a f).now = c.now := rfl
@[simp] theorem Core.setArr_free (c : Core) (a : Nat) (f : BArr → BArr) : (c.setArr a f).free = c.free := rfl
@[simp] theorem Core.setArr_step (c : Core) (a : Nat) (f : BArr → BArr) : (c.setArr a f).step = c.step := rfl
@[simp] theorem Core.setArr_incs (c : Core) (a : Nat) (f : BArr → BArr) : (c.setArr a f).incs = c.incs := rfl
@[simp] theorem Core.setArr_faultReq (c : Core) (a : Nat) (f : BArr → BArr) : (c.setArr a f).faultReq = c.faultReq := rfl
@[simp] theorem Core.setArr_log (c : Core) (a : Nat) (f : BArr → BArr) : (c.setArr a f).log = c.log := rfl
@[simp] theorem Core.setArr_inj (c : Core) (a : Nat) (f : BArr → BArr) : (c.setArr a f).inj = c.inj := rfl
@[simp] theorem Core.setArr_dict (c : Core) (a : Nat) (f : BArr → BArr) : (c.setArr a f).dict = c.dict := rfl
@[simp] theorem Core.setArr_mem (c : Core) (a : Nat) (f : BArr → BArr) : (c.setArr a f).mem = c.mem := rfl
@[simp] theorem Core.setArr_links (c : Core) (a : Nat) (f : BArr → BArr) : (c.setArr a f).links = c.links := rfl
@[simp] theorem Core.setArr_fwd (c : Core) (a : Nat) (f : BArr → BArr) : (c.setArr a f).fwd = c.fwd := rfl
@[simp] theorem Core.setArr_attn (c : Core) (a : Nat) (f : BArr → BArr) : (c.setArr a f).attn = c.attn := rfl
@[simp] theorem Core.setArr_roll (c : Core) (a : Nat) (f : BArr → BArr) : (c.setArr a f).roll = c.roll := rfl
@[simp] theorem Core.setArr_stp (c : Core) (a : Nat) (f : BArr → BArr) : (c.setArr a f).stp = c.stp := rfl
@[simp] theorem Core.setArr_xch (c : Core) (a : Nat) (f : BArr → BArr) : (c.setArr a f).xch = c.xch := rfl
@[simp] theorem Core.setArr_pow (c : Core) (a : Nat) (f : BArr → BArr) : (c.setArr a f).pow = c.pow := rfl
@[simp] theorem Core.setArr_pins (c : Core) (a : Nat) (f : BArr → BArr) : (c.setArr a f).pins = c.pins := rfl
@[simp] theorem Core.setArr_module_ (c : Core) (a : Nat) (f : BArr → BArr) : (c.setArr a f).module_ = c.module_ := rfl
@[simp] theorem Core.setArr_sec (c : Core) (a : Nat) (f : BArr → BArr) : (c.setArr a f).sec = c.sec := rfl

/-! ### msix -/

@[simp] theorem Core.msix_now (c : Core) (fn v : Nat) : (c.msix fn v).now = c.now := by unfold Core.msix; split <;> rfl
@[simp] theorem Core.msix_free (c : Core) (fn v : Nat) : (c.msix fn v).free = c.free := by unfold Core.msix; split <;> rfl
@[simp] theorem Core.msix_step (c : Core) (fn v : Nat) : (c.msix fn v).step = c.step := by unfold Core.msix; split <;> rfl
@[simp] theorem Core.msix_incs (c : Core) (fn v : Nat) : (c.msix fn v).incs = c.incs := by unfold Core.msix; split <;> rfl
@[simp] theorem Core.msix_faultReq (c : Core) (fn v : Nat) : (c.msix fn v).faultReq = c.faultReq := by unfold Core.msix; split <;> rfl
@[simp] theorem Core.msix_inj (c : Core) (fn v : Nat) : (c.msix fn v).inj = c.inj := by unfold Core.msix; split <;> rfl
@[simp] theorem Core.msix_dict (c : Core) (fn v : Nat) : (c.msix fn v).dict = c.dict := by unfold Core.msix; split <;> rfl
@[simp] theorem Core.msix_mem (c : Core) (fn v : Nat) : (c.msix fn v).mem = c.mem := by unfold Core.msix; split <;> rfl
@[simp] theorem Core.msix_links (c : Core) (fn v : Nat) : (c.msix fn v).links = c.links := by unfold Core.msix; split <;> rfl
@[simp] theorem Core.msix_fwd (c : Core) (fn v : Nat) : (c.msix fn v).fwd = c.fwd := by unfold Core.msix; split <;> rfl
@[simp] theorem Core.msix_bwd (c : Core) (fn v : Nat) : (c.msix fn v).bwd = c.bwd := by unfold Core.msix; split <;> rfl
@[simp] theorem Core.msix_attn (c : Core) (fn v : Nat) : (c.msix fn v).attn = c.attn := by unfold Core.msix; split <;> rfl
@[simp] theorem Core.msix_roll (c : Core) (fn v : Nat) : (c.msix fn v).roll = c.roll := by unfold Core.msix; split <;> rfl
@[simp] theorem Core.msix_stp (c : Core) (fn v : Nat) : (c.msix fn v).stp = c.stp := by unfold Core.msix; split <;> rfl
@[simp] theorem Core.msix_xch (c : Core) (fn v : Nat) : (c.msix fn v).xch = c.xch := by unfold Core.msix; split <;> rfl
@[simp] theorem Core.msix_pow (c : Core) (fn v : Nat) : (c.msix fn v).pow = c.pow := by unfold Core.msix; split <;> rfl
@[simp] theorem Core.msix_pins (c : Core) (fn v : Nat) : (c.msix fn v).pins = c.pins := by unfold Core.msix; split <;> rfl
@[simp] theorem Core.msix_module_ (c : Core) (fn v : Nat) : (c.msix fn v).module_ = c.module_ := by unfold Core.msix; split <;> rfl
@[simp] theorem Core.msix_sec (c : Core) (fn v : Nat) : (c.msix fn v).sec = c.sec := by unfold Core.msix; split <;> rfl

/-! ### modSec -/

@[simp] theorem Core.modSec_now (c : Core) (f : Sec → Sec) : (c.modSec f).now = c.now := rfl
@[simp] theorem Core.modSec_free (c : Core) (f : Sec → Sec) : (c.modSec f).free = c.free := rfl
@[simp] theorem Core.modSec_step (c : Core) (f : Sec → Sec) : (c.modSec f).step = c.step := rfl
@[simp] theorem Core.modSec_incs (c : Core) (f : Sec → Sec) : (c.modSec f).incs = c.incs := rfl
@[simp] theorem Core.modSec_faultReq (c : Core) (f : Sec → Sec) : (c.modSec f).faultReq = c.faultReq := rfl
@[simp] theorem Core.modSec_log (c : Core) (f : Sec → Sec) : (c.modSec f).log = c.log := rfl
@[simp] theorem Core.modSec_inj (c : Core) (f : Sec → Sec) : (c.modSec f).inj = c.inj := rfl
@[simp] theorem Core.modSec_dict (c : Core) (f : Sec → Sec) : (c.modSec f).dict = c.dict := rfl
@[simp] theorem Core.modSec_mem (c : Core) (f : Sec → Sec) : (c.modSec f).mem = c.mem := rfl
@[simp] theorem Core.modSec_links (c : Core) (f : Sec → Sec) : (c.modSec f).links = c.links := rfl
@[simp] theorem Core.modSec_fwd (c : Core) (f : Sec → Sec) : (c.modSec f).fwd = c.fwd := rfl
@[simp] theorem Core.modSec_bwd (c : Core) (f : Sec → Sec) : (c.modSec f).bwd = c.bwd := rfl
@[simp] theorem Core.modSec_attn (c : Core) (f : Sec → Sec) : (c.modSec f).attn = c.attn := rfl
@[simp] theorem Core.modSec_roll (c : Core) (f : Sec → Sec) : (c.modSec f).roll = c.roll := rfl
@[simp] theorem Core.modSec_stp (c : Core) (f : Sec → Sec) : (c.modSec f).stp = c.stp := rfl
@[simp] theorem Core.modSec_xch (c : Core) (f : Sec → Sec) : (c.modSec f).xch = c.xch := rfl
@[simp] theorem Core.modSec_pow (c : Core) (f : Sec → Sec) : (c.modSec f).pow = c.pow := rfl
@[simp] theorem Core.modSec_pins (c : Core) (f : Sec → Sec) : (c.modSec f).pins = c.pins := rfl
@[simp] theorem Core.modSec_module_ (c : Core) (f : Sec → Sec) : (c.modSec f).module_ = c.module_ := rfl

/-! ### draw -/

@[simp] theorem Core.draw_now (c : Core) (n : Nat) : (c.draw n).2.now = c.now := rfl
@[simp] theorem Core.drawBytes_now (c : Core) (n : Nat) : (c.drawBytes n).2.now = c.now := rfl
@[simp] theorem Core.draw_step (c : Core) (n : Nat) : (c.draw n).2.step = c.step := rfl
@[simp] theorem Core.drawBytes_step (c : Core) (n : Nat) : (c.drawBytes n).2.step = c.step := rfl
@[simp] theorem Core.draw_incs (c : Core) (n : Nat) : (c.draw n).2.incs = c.incs := rfl
@[simp] theorem Core.drawBytes_incs (c : Core) (n : Nat) : (c.drawBytes n).2.incs = c.incs := rfl
@[simp] theorem Core.draw_faultReq (c : Core) (n : Nat) : (c.draw n).2.faultReq = c.faultReq := rfl
@[simp] theorem Core.drawBytes_faultReq (c : Core) (n : Nat) : (c.drawBytes n).2.faultReq = c.faultReq := rfl
@[simp] theorem Core.draw_log (c : Core) (n : Nat) : (c.draw n).2.log = c.log := rfl
@[simp] theorem Core.drawBytes_log (c : Core) (n : Nat) : (c.drawBytes n).2.log = c.log := rfl
@[simp] theorem Core.draw_inj (c : Core) (n : Nat) : (c.draw n).2.inj = c.inj := rfl
@[simp] theorem Core.drawBytes_inj (c : Core) (n : Nat) : (c.drawBytes n).2.inj = c.inj := rfl
@[simp] theorem Core.draw_dict (c : Core) (n : Nat) : (c.draw n).2.dict = c.dict := rfl
@[simp] theorem Core.drawBytes_dict (c : Core) (n : Nat) : (c.drawBytes n).2.dict = c.dict := rfl
@[simp] theorem Core.draw_mem (c : Core) (n : Nat) : (c.draw n).2.mem = c.mem := rfl
@[simp] theorem Core.drawBytes_mem (c : Core) (n : Nat) : (c.drawBytes n).2.mem = c.mem := rfl
@[simp] theorem Core.draw_links (c : Core) (n : Nat) : (c.draw n).2.links = c.links := rfl
@[simp] theorem Core.drawBytes_links (c : Core) (n : Nat) : (c.drawBytes n).2.links = c.links := rfl
@[simp] theorem Core.draw_fwd (c : Core) (n : Nat) : (c.draw n).2.fwd = c.fwd := rfl
@[simp] theorem Core.drawBytes_fwd (c : Core) (n : Nat) : (c.drawBytes n).2.fwd = c.fwd := rfl
@[simp] theorem Core.draw_bwd (c : Core) (n : Nat) : (c.draw n).2.bwd = c.bwd := rfl
@[simp] theorem Core.drawBytes_bwd (c : Core) (n : Nat) : (c.drawBytes n).2.bwd = c.bwd := rfl
@[simp] theorem Core.draw_attn (c : Core) (n : Nat) : (c.draw n).2.attn = c.attn := rfl
@[simp] theorem Core.drawBytes_attn (c : Core) (n : Nat) : (c.drawBytes n).2.attn = c.attn := rfl
@[simp] theorem Core.draw_roll (c : Core) (n : Nat) : (c.draw n).2.roll = c.roll := rfl
@[simp] theorem Core.drawBytes_roll (c : Core) (n : Nat) : (c.drawBytes n).2.roll = c.roll := rfl
@[simp] theorem Core.draw_stp (c : Core) (n : Nat) : (c.draw n).2.stp = c.stp := rfl
@[simp] theorem Core.drawBytes_stp (c : Core) (n : Nat) : (c.drawBytes n).2.stp = c.stp := rfl
@[simp] theorem Core.draw_xch (c : Core) (n : Nat) : (c.draw n).2.xch = c.xch := rfl
@[simp] theorem Core.drawBytes_xch (c : Core) (n : Nat) : (c.drawBytes n).2.xch = c.xch := rfl
@[simp] theorem Core.draw_pow (c : Core) (n : Nat) : (c.draw n).2.pow = c.pow := rfl
@[simp] theorem Core.drawBytes_pow (c : Core) (n : Nat) : (c.drawBytes n).2.pow = c.pow := rfl
@[simp] theorem Core.draw_pins (c : Core) (n : Nat) : (c.draw n).2.pins = c.pins := rfl
@[simp] theorem Core.drawBytes_pins (c : Core) (n : Nat) : (c.drawBytes n).2.pins = c.pins := rfl
@[simp] theorem Core.draw_module_ (c : Core) (n : Nat) : (c.draw n).2.module_ = c.module_ := rfl
@[simp] theorem Core.drawBytes_module_ (c : Core) (n : Nat) : (c.drawBytes n).2.module_ = c.module_ := rfl
@[simp] theorem Core.draw_sec (c : Core) (n : Nat) : (c.draw n).2.sec = c.sec := rfl
@[simp] theorem Core.drawBytes_sec (c : Core) (n : Nat) : (c.drawBytes n).2.sec = c.sec := rfl

/-! ### bump -/

@[simp] theorem Core.bump_now (c : Core) (index sub n : Nat) : (c.bump index sub n).now = c.now := rfl
@[simp] theorem Core.bump_free (c : Core) (index sub n : Nat) : (c.bump index sub n).free = c.free := rfl
@[simp] theorem Core.bump_step (c : Core) (index sub n : Nat) : (c.bump index sub n).step = c.step := rfl
@[simp] theorem Core.bump_faultReq (c : Core) (index sub n : Nat) : (c.bump index sub n).faultReq = c.faultReq := rfl
@[simp] theorem Core.bump_log (c : Core) (index sub n : Nat) : (c.bump index sub n).log = c.log := rfl
@[simp] theorem Core.bump_inj (c : Core) (index sub n : Nat) : (c.bump index sub n).inj = c.inj := rfl
@[simp] theorem Core.bump_mem (c : Core) (index sub n : Nat) : (c.bump index sub n).mem = c.mem := rfl
@[simp] theorem Core.bump_links (c : Core) (index sub n : Nat) : (c.bump index sub n).links = c.links := rfl
@[simp] theorem Core.bump_fwd (c : Core) (index sub n : Nat) : (c.bump index sub n).fwd = c.fwd := rfl
@[simp] theorem Core.bump_bwd (c : Core) (index sub n : Nat) : (c.bump index sub n).bwd = c.bwd := rfl
@[simp] theorem Core.bump_attn (c : Core) (index sub n : Nat) : (c.bump index sub n).attn = c.attn := rfl
@[simp] theorem Core.bump_roll (c : Core) (index sub n : Nat) : (c.bump index sub n).roll = c.roll := rfl
@[simp] theorem Core.bump_stp (c : Core) (index sub n : Nat) : (c.bump index sub n).stp = c.stp := rfl
@[simp] theorem Core.bump_xch (c : Core) (index sub n : Nat) : (c.bump index sub n).xch = c.xch := rfl
@[simp] theorem Core.bump_pow (c : Core) (index sub n : Nat) : (c.bump index sub n).pow = c.pow := rfl
@[simp] theorem Core.bump_pins (c : Core) (index sub n : Nat) : (c.bump index sub n).pins = c.pins := rfl
@[simp] theorem Core.bump_module_ (c : Core) (index sub n : Nat) : (c.bump index sub n).module_ = c.module_ := rfl
@[simp] theorem Core.bump_sec (c : Core) (index sub n : Nat) : (c.bump index sub n).sec = c.sec := rfl

/-! ### noteAnswer -/

@[simp] theorem Core.noteAnswer_now (c : Core) (src : Src) (index sub status : Nat) (data : List Byte) :
    (c.noteAnswer src index sub status data).now = c.now := rfl
@[simp] theorem Core.noteAnswer_free (c : Core) (src : Src) (index sub status : Nat) (data : List Byte) :
    (c.noteAnswer src index sub status data).free = c.free := rfl
@[simp] theorem Core.noteAnswer_step (c : Core) (src : Src) (index sub status : Nat) (data : List Byte) :
    (c.noteAnswer src index sub status data).step = c.step := rfl
@[simp] theorem Core.noteAnswer_incs (c : Core) (src : Src) (index sub status : Nat) (data : List Byte) :
    (c.noteAnswer src index sub status data).incs = c.incs := rfl
@[simp] theorem Core.noteAnswer_faultReq (c : Core) (src : Src) (index sub status : Nat) (data : List Byte) :
    (c.noteAnswer src index sub status data).faultReq = c.faultReq := rfl
@[simp] theorem Core.noteAnswer_log (c : Core) (src : Src) (index sub status : Nat) (data : List Byte) :
    (c.noteAnswer src index sub status data).log = c.log := rfl
@[simp] theorem Core.noteAnswer_inj (c : Core) (src : Src) (index sub status : Nat) (data : List Byte) :
    (c.noteAnswer src index sub status data).inj = c.inj := rfl
@[simp] theorem Core.noteAnswer_mem (c : Core) (src : Src) (index sub status : Nat) (data : List Byte) :
    (c.noteAnswer src index sub status data).mem = c.mem := rfl
@[simp] theorem Core.noteAnswer_links (c : Core) (src : Src) (index sub status : Nat) (data : List Byte) :
    (c.noteAnswer src index sub status data).links = c.links := rfl
@[simp] theorem Core.noteAnswer_fwd (c : Core) (src : Src) (index sub status : Nat) (data : List Byte) :
    (c.noteAnswer src index sub status data).fwd = c.fwd := rfl
@[simp] theorem Core.noteAnswer_bwd (c : Core) (src : Src) (index sub status : Nat) (data : List Byte) :
    (c.noteAnswer src index sub status data).bwd = c.bwd := rfl
@[simp] theorem Core.noteAnswer_attn (c : Core) (src : Src) (index sub status : Nat) (data : List Byte) :
    (c.noteAnswer src index sub status data).attn = c.attn := rfl
@[simp] theorem Core.noteAnswer_roll (c : Core) (src : Src) (index sub status : Nat) (data : List Byte) :
    (c.noteAnswer src index sub status data).roll = c.roll := rfl
@[simp] theorem Core.noteAnswer_stp (c : Core) (src : Src) (index sub status : Nat) (data : List Byte) :
    (c.noteAnswer src index sub status data).stp = c.stp := rfl
@[simp] theorem Core.noteAnswer_xch (c : Core) (src : Src) (index sub status : Nat) (data : List Byte) :
    (c.noteAnswer src index sub status data).xch = c.xch := rfl
@[simp] theorem Core.noteAnswer_pow (c : Core) (src : Src) (index sub status : Nat) (data : List Byte) :
    (c.noteAnswer src index sub status data).pow = c.pow := rfl
@[simp] theorem Core.noteAnswer_pins (c : Core) (src : Src) (index sub status : Nat) (data : List Byte) :
    (c.noteAnswer src index sub status data).pins = c.pins := rfl
@[simp] theorem Core.noteAnswer_module_ (c : Core) (src : Src) (index sub status : Nat) (data : List Byte) :
    (c.noteAnswer src index sub status data).module_ = c.module_ := rfl
@[simp] theorem Core.noteAnswer_sec (c : Core) (src : Src) (index sub status : Nat) (data : List Byte) :
    (c.noteAnswer src index sub status data).sec = c.sec := rfl

/-! ### owe -/

@[simp] theorem Core.owe_now (c' c : Core) (who : Writer) : (c'.owe c who).now = c'.now := by
  unfold Core.owe; dsimp only; split <;> rfl
@[simp] theorem Core.owe_free (c' c : Core) (who : Writer) : (c'.owe c who).free = c'.free := by
  unfold Core.owe; dsimp only; split <;> rfl
@[simp] theorem Core.owe_step (c' c : Core) (who : Writer) : (c'.owe c who).step = c'.step := by
  unfold Core.owe; dsimp only; split <;> rfl
@[simp] theorem Core.owe_incs (c' c : Core) (who : Writer) : (c'.owe c who).incs = c'.incs := by
  unfold Core.owe; dsimp only; split <;> rfl
@[simp] theorem Core.owe_faultReq (c' c : Core) (who : Writer) : (c'.owe c who).faultReq = c'.faultReq := by
  unfold Core.owe; dsimp only; split <;> rfl
@[simp] theorem Core.owe_log (c' c : Core) (who : Writer) : (c'.owe c who).log = c'.log := by
  unfold Core.owe; dsimp only; split <;> rfl
@[simp] theorem Core.owe_inj (c' c : Core) (who : Writer) : (c'.owe c who).inj = c'.inj := by
  unfold Core.owe; dsimp only; split <;> rfl
@[simp] theorem Core.owe_dict (c' c : Core) (who : Writer) : (c'.owe c who).dict = c'.dict := by
  unfold Core.owe; dsimp only; split <;> rfl
@[simp] theorem Core.owe_links (c' c : Core) (who : Writer) : (c'.owe c who).links = c'.links := by
  unfold Core.owe; dsimp only; split <;> rfl
@[simp] theorem Core.owe_fwd (c' c : Core) (who : Writer) : (c'.owe c who).fwd = c'.fwd := by
  unfold Core.owe; dsimp only; split <;> rfl
@[simp] theorem Core.owe_bwd (c' c : Core) (who : Writer) : (c'.owe c who).bwd = c'.bwd := by
  unfold Core.owe; dsimp only; split <;> rfl
@[simp] theorem Core.owe_attn (c' c : Core) (who : Writer) : (c'.owe c who).attn = c'.attn := by
  unfold Core.owe; dsimp only; split <;> rfl
@[simp] theorem Core.owe_roll (c' c : Core) (who : Writer) : (c'.owe c who).roll = c'.roll := by
  unfold Core.owe; dsimp only; split <;> rfl
@[simp] theorem Core.owe_stp (c' c : Core) (who : Writer) : (c'.owe c who).stp = c'.stp := by
  unfold Core.owe; dsimp only; split <;> rfl
@[simp] theorem Core.owe_xch (c' c : Core) (who : Writer) : (c'.owe c who).xch = c'.xch := by
  unfold Core.owe; dsimp only; split <;> rfl
@[simp] theorem Core.owe_pow (c' c : Core) (who : Writer) : (c'.owe c who).pow = c'.pow := by
  unfold Core.owe; dsimp only; split <;> rfl
@[simp] theorem Core.owe_pins (c' c : Core) (who : Writer) : (c'.owe c who).pins = c'.pins := by
  unfold Core.owe; dsimp only; split <;> rfl
@[simp] theorem Core.owe_module_ (c' c : Core) (who : Writer) : (c'.owe c who).module_ = c'.module_ := by
  unfold Core.owe; dsimp only; split <;> rfl
@[simp] theorem Core.owe_sec (c' c : Core) (who : Writer) : (c'.owe c who).sec = c'.sec := by
  unfold Core.owe; dsimp only; split <;> rfl

/-- Who waits for a write changes no byte. -/
@[simp] theorem Core.owe_mem_mem (c' c : Core) (who : Writer) : (c'.owe c who).mem.mem = c'.mem.mem := by
  unfold Core.owe; dsimp only; split <;> rfl

/-- A command that wrote nothing new owes nothing. -/
theorem Core.owe_same (c' c : Core) (who : Writer) (h : c'.mem.entryWaits.length = c.mem.entryWaits.length) :
    c'.owe c who = c' := by
  unfold Core.owe; dsimp only; rw [if_pos h]

end Sys2Proof.Machine
end

