-- ==== Sys2Proof/Laws/Ops.lean ====
section
/-! SUPPORT. What the shared operations do: maps, objects and counters, memory, the end of a command, issue. -/

namespace Sys2Proof.Machine

/-! ### Maps -/

theorem KMap.get?_set_self {α : Type} (m : KMap α) (k : Nat) (v : α) : KMap.get? (KMap.set m k v) k = some v := by
  induction m with
  | nil => simp [KMap.set, KMap.get?]
  | cons p m ih =>
    obtain ⟨j, w⟩ := p
    simp only [KMap.set]
    split
    · simp [KMap.get?]
    · split
      · simp [KMap.get?]
      · have : j ≠ k := by omega
        simp [KMap.get?, this, ih]

theorem KMap.get?_set_ne {α : Type} (m : KMap α) {k i : Nat} (v : α) (h : i ≠ k) :
    KMap.get? (KMap.set m k v) i = KMap.get? m i := by
  induction m with
  | nil => simp [KMap.set, KMap.get?, Ne.symm h]
  | cons p m ih =>
    obtain ⟨j, w⟩ := p
    simp only [KMap.set]
    split
    · simp [KMap.get?, Ne.symm h]
    · split
      · subst_vars; simp [KMap.get?, Ne.symm h]
      · simp only [KMap.get?, ih]

theorem KMap.getD_set_self {α : Type} (m : KMap α) (k : Nat) (v d : α) : KMap.getD (KMap.set m k v) k d = v := by
  simp [KMap.getD, KMap.get?_set_self]

theorem KMap.getD_set_ne {α : Type} (m : KMap α) {k i : Nat} (v d : α) (h : i ≠ k) :
    KMap.getD (KMap.set m k v) i d = KMap.getD m i d := by
  simp [KMap.getD, KMap.get?_set_ne m v h]

theorem KMap.get?_erase_ne {α : Type} (m : KMap α) {k i : Nat} (h : i ≠ k) :
    KMap.get? (KMap.erase m k) i = KMap.get? m i := by
  unfold KMap.erase
  induction m with
  | nil => rfl
  | cons p m ih =>
    obtain ⟨j, w⟩ := p
    by_cases hj : j = k
    · subst hj
      simp [ih, KMap.get?, Ne.symm h]
    · simp [hj, KMap.get?, ih]

theorem KMap.get?_erase_self {α : Type} (m : KMap α) (k : Nat) : KMap.get? (KMap.erase m k) k = none := by
  unfold KMap.erase
  induction m with
  | nil => rfl
  | cons p m ih =>
    obtain ⟨j, w⟩ := p
    by_cases hj : j = k
    · simp [hj, ih]
    · simp [hj, KMap.get?, ih]

/-! ### Objects and counters -/

theorem okey_inj {i s j u : Nat} (h : i ≠ j ∨ s ≠ u) (hs : s < 256) (hu : u < 256) : okey i s ≠ okey j u := by
  unfold okey; omega

theorem Core.obj_setObj_self (c : Core) (i s v : Nat) : (c.setObj i s v).obj i s = v := by
  simp [Core.obj, Core.setObj, KMap.get?_set_self]

theorem Core.obj_setObj_ne (c : Core) {i s j u : Nat} (v : Nat) (h : okey j u ≠ okey i s) :
    (c.setObj i s v).obj j u = c.obj j u := by
  simp [Core.obj, Core.setObj, KMap.get?_set_ne _ v h]

theorem Core.bump_zero (c : Core) (i s : Nat) : c.bump i s 0 = c := rfl

theorem Core.bump_eq (c : Core) (i s n : Nat) (hn : n ≠ 0) :
    c.bump i s n = { c.setObj i s (min (c.obj i s + n) (objMax i s)) with incs := (c.bump i s n).incs } := by
  unfold Core.bump
  rw [if_neg hn]
  rfl

/-- A counter takes its count, up to its type's largest value; every other object keeps its value. -/
theorem Core.obj_bump_ne (c : Core) {i s j u : Nat} (n : Nat) (h : okey j u ≠ okey i s) :
    (c.bump i s n).obj j u = c.obj j u := by
  by_cases hn : n = 0
  · rw [hn, Core.bump_zero]
  · rw [Core.bump_eq c i s n hn]; exact Core.obj_setObj_ne c _ h

theorem Core.obj_bump_self (c : Core) (i s n : Nat) (hn : n ≠ 0) :
    (c.bump i s n).obj i s = min (c.obj i s + n) (objMax i s) := by
  rw [Core.bump_eq c i s n hn]; exact Core.obj_setObj_self c _ _ _

/-! ### Memory -/

theorem Mem.wf_iff (m : Mem) : Mem.wf m = true ↔ m.Pairwise (fun p q => p.1 < q.1) ∧ ∀ p ∈ m, p.2 ≠ 0 := by
  induction m with
  | nil => simp [Mem.wf]
  | cons p m ih =>
    cases m with
    | nil => simp [Mem.wf]
    | cons q m =>
      simp only [Mem.wf, Bool.and_eq_true, bne_iff_ne, decide_eq_true_eq, ih, List.pairwise_cons, List.mem_cons]
      constructor
      · rintro ⟨⟨hp, hpq⟩, ⟨hq, hm⟩, hz⟩
        refine ⟨⟨?_, hq, hm⟩, ?_⟩
        · rintro x (rfl | hx)
          · exact hpq
          · exact lt_trans hpq (hq x hx)
        · rintro x (rfl | hx)
          · exact hp
          · exact hz x hx
      · rintro ⟨⟨hp, hq, hm⟩, hz⟩
        exact ⟨⟨hz p (.inl rfl), hp q (.inl rfl)⟩, ⟨hq, hm⟩, fun x hx => hz x (.inr hx)⟩

theorem cellsOf_mem (bs : List Byte) (a : Nat) : ∀ p ∈ cellsOf a bs, a ≤ p.1 ∧ p.1 < a + bs.length ∧ p.2 ≠ 0 := by
  induction bs generalizing a with
  | nil => simp [cellsOf]
  | cons b bs ih =>
    intro p hp
    simp only [cellsOf] at hp
    split at hp
    · have := ih (a + 1) p hp
      simp only [List.length_cons]
      exact ⟨by omega, by omega, this.2.2⟩
    · rcases List.mem_cons.mp hp with rfl | hp
      · simp_all
      · have := ih (a + 1) p hp
        simp only [List.length_cons]
        exact ⟨by omega, by omega, this.2.2⟩

theorem cellsOf_pairwise (bs : List Byte) (a : Nat) : (cellsOf a bs).Pairwise (fun p q => p.1 < q.1) := by
  induction bs generalizing a with
  | nil => simp [cellsOf]
  | cons b bs ih =>
    simp only [cellsOf]
    split
    · exact ih _
    · exact List.pairwise_cons.mpr ⟨fun p hp => by have := (cellsOf_mem bs (a + 1) p hp).1; omega, ih _⟩

/-- A write keeps the canonical form. -/
theorem Mem.write_wf (m : Mem) (a : Nat) (bs : List Byte) (h : Mem.wf m = true) : Mem.wf (Mem.write m a bs) = true := by
  rw [Mem.wf_iff] at h ⊢
  obtain ⟨ho, hz⟩ := h
  unfold Mem.write
  constructor
  · simp only [List.pairwise_append]
    refine ⟨⟨ho.sublist List.filter_sublist, cellsOf_pairwise _ _, ?_⟩, ho.sublist List.filter_sublist, ?_⟩
    · intro p hp q hq
      have := (List.mem_filter.mp hp).2
      have := (cellsOf_mem bs a q hq).1
      simp at *; omega
    · intro p hp q hq
      have hq := (List.mem_filter.mp hq).2
      rcases List.mem_append.mp hp with hp | hp
      · have := (List.mem_filter.mp hp).2
        simp at *; omega
      · have := (cellsOf_mem bs a p hp).2.1
        simp at *; omega
  · intro p hp
    simp only [List.mem_append, List.mem_filter] at hp
    rcases hp with (⟨hp, -⟩ | hp) | ⟨hp, -⟩
    · exact hz p hp
    · exact (cellsOf_mem bs a p hp).2.2
    · exact hz p hp

theorem Mem.get_append_left (m n : Mem) (x : Nat) (h : ∀ p ∈ n, p.1 ≠ x) : Mem.get (m ++ n) x = Mem.get m x := by
  have : n.find? (fun p => p.1 == x) = none := by simpa [List.find?_eq_none] using fun a b hp => h (a, b) hp
  simp [Mem.get, List.find?_append, this]

theorem Mem.get_append_right (m n : Mem) (x : Nat) (h : ∀ p ∈ m, p.1 ≠ x) : Mem.get (m ++ n) x = Mem.get n x := by
  have : m.find? (fun p => p.1 == x) = none := by simpa [List.find?_eq_none] using fun a b hp => h (a, b) hp
  simp [Mem.get, List.find?_append, this]

theorem Mem.get_filter (m : Mem) (p : Nat → Bool) (x : Nat) (h : p x = true) :
    Mem.get (m.filter fun c => p c.1) x = Mem.get m x := by
  have key : (m.filter fun c => p c.1).find? (fun c => c.1 == x) = m.find? (fun c => c.1 == x) := by
    induction m with
    | nil => rfl
    | cons c m ih =>
      by_cases hp : p c.1 = true
      · simp only [List.filter_cons, hp, if_true, List.find?_cons, ih]
      · have : (c.1 == x) = false := by
          rw [beq_eq_false_iff_ne]; rintro rfl; exact hp h
        rw [List.filter_cons, if_neg hp, ih, List.find?_cons, this]
  unfold Mem.get; rw [key]

theorem Mem.get_cellsOf (bs : List Byte) (a x : Nat) :
    Mem.get (cellsOf a bs) x = if a ≤ x ∧ x < a + bs.length then bs.getD (x - a) 0 else 0 := by
  induction bs generalizing a with
  | nil =>
    have : ¬(a ≤ x ∧ x < a + 0) := by omega
    simp [cellsOf, Mem.get]
  | cons b bs ih =>
    by_cases hx : x = a
    · subst hx
      by_cases hb : b = 0
      · simp only [cellsOf, hb, if_true]
        rw [ih]
        have : ¬(x + 1 ≤ x ∧ x < x + 1 + bs.length) := by omega
        rw [if_neg this, if_pos ⟨le_refl _, by simp⟩]; simp
      · rw [cellsOf, if_neg hb]; simp [Mem.get]
    · have tail : Mem.get (cellsOf (a + 1) bs) x =
          if a ≤ x ∧ x < a + (b :: bs).length then (b :: bs).getD (x - a) 0 else 0 := by
        rw [ih]
        simp only [List.length_cons]
        by_cases h : a ≤ x ∧ x < a + (bs.length + 1)
        · have h' : a + 1 ≤ x ∧ x < a + 1 + bs.length := by omega
          have : x - a = x - (a + 1) + 1 := by omega
          rw [if_pos h, if_pos h', this]; simp
        · have h' : ¬(a + 1 ≤ x ∧ x < a + 1 + bs.length) := by omega
          rw [if_neg h, if_neg h']
      rw [cellsOf]
      split
      · exact tail
      · rw [← tail]
        have : a ≠ x := fun h => hx h.symm
        simp [Mem.get, this]

/-- What a byte reads as after a write: the byte written inside the range, its old value outside. -/
theorem Mem.get_write (m : Mem) (a : Nat) (bs : List Byte) (x : Nat) :
    Mem.get (Mem.write m a bs) x = if a ≤ x ∧ x < a + bs.length then bs.getD (x - a) 0 else Mem.get m x := by
  unfold Mem.write
  by_cases hlo : x < a
  · have h1 : ¬(a ≤ x ∧ x < a + bs.length) := by omega
    rw [if_neg h1, Mem.get_append_left, Mem.get_append_left]
    · exact Mem.get_filter m (fun k => decide (k < a)) x (by simpa using hlo)
    · intro p hp e; have := (cellsOf_mem bs a p hp).1; omega
    · intro p hp e
      have := (List.mem_filter.mp hp).2
      simp at this; omega
  · by_cases hhi : x < a + bs.length
    · have h1 : a ≤ x ∧ x < a + bs.length := by omega
      rw [if_pos h1, Mem.get_append_left, Mem.get_append_right, Mem.get_cellsOf, if_pos h1]
      · intro p hp e
        have := (List.mem_filter.mp hp).2
        simp at this; omega
      · intro p hp e
        have := (List.mem_filter.mp hp).2
        simp at this; omega
    · have h1 : ¬(a ≤ x ∧ x < a + bs.length) := by omega
      rw [if_neg h1, Mem.get_append_right]
      · exact Mem.get_filter m (fun k => decide (a + bs.length ≤ k)) x (by simpa using (by omega))
      · intro p hp e
        rcases List.mem_append.mp hp with hp | hp
        · have := (List.mem_filter.mp hp).2
          simp at this; omega
        · have := (cellsOf_mem bs a p hp).2.1; omega

/-- An empty window reads as zero: reset's memory has the canonical form. -/
theorem Mem.reset_wf : Mem.wf State.reset.core.mem.mem = true := rfl

/-! ### The end of a command -/

/-- A command that raises nothing leaves the device state and the queue alone. -/
theorem finish_quiet (dev : Dev) (c : Core) (q : List Instr) (h : c.faultReq = none) :
    finish dev c q = { dev := dev, core := c, pending := q } := by
  simp [finish, h]

theorem finish_pending (dev : Dev) (c : Core) (q : List Instr) : (finish dev c q).pending = q := by
  unfold finish
  split
  · rfl
  · dsimp only; split <;> rfl

theorem finish_faultReq (dev : Dev) (c : Core) (q : List Instr) : (finish dev c q).core.faultReq = none := by
  unfold finish
  split
  · assumption
  · dsimp only; split <;> rfl

/-- The device state after a command: what the command made it, or FAULT_STOP from any state but OFF. -/
theorem finish_dev (dev : Dev) (c : Core) (q : List Instr) :
    (finish dev c q).dev = dev ∨ ((finish dev c q).dev = .faultStop ∧ dev ≠ .off) := by
  unfold finish
  split
  · exact .inl rfl
  · dsimp only
    split
    · exact .inl rfl
    · rename_i h; exact .inr ⟨rfl, fun e => h (.inl e)⟩

/-! ### Issue -/

/-- A descriptor that cannot issue changes nothing. -/
theorem Core.issue_not (c : Core) (dev : Dev) (d : Nat) (tys : List Nat) (doms : Desc → List Nat)
    (body : Desc → Core → Core) (h : ∀ x, c.desc? d = some x → c.canIssue dev d x tys = false) :
    c.issue dev d tys doms body = c := by
  unfold Core.issue
  split
  · rfl
  · rename_i x hx; simp [h x hx]

/-- One that can, with a good header, goes to its stage marked as issued, and owes the writes it makes there. -/
theorem Core.issue_ok (c : Core) (dev : Dev) (d : Nat) (tys : List Nat) (doms : Desc → List Nat)
    (body : Desc → Core → Core) (x : Desc) (hx : c.desc? d = some x) (hi : c.canIssue dev d x tys = true)
    (hh : c.headerOk x = true) :
    let c' := (c.setDesc d { x with issued := true }).noteIssue (doms x)
    c.issue dev d tys doms body = (body x c').owe c' (.desc d) := by
  simp [Core.issue, hx, hi, hh]

/-- Checks that all hold let the stage go on. -/
theorem Core.checked_ok (c : Core) (d src : Nat) (cs : List (Bool × Nat × Nat × Nat)) (k : Core → Core)
    (h : firstBad cs = none) : c.checked d src cs k = k c := by
  simp [Core.checked, h]

/-! ### Injection and TLPs -/

/-- Two cores that differ at most in their injection slots, their objects and the increments a step record reports. -/
def Core.Alike (c c' : Core) : Prop :=
  c' = { c with inj := c'.inj, incs := c'.incs, dict := { c.dict with objs := c'.dict.objs } }

theorem Core.Alike.refl (c : Core) : c.Alike c := rfl

theorem Core.Alike.trans {a b c : Core} (h : a.Alike b) (k : b.Alike c) : a.Alike c := by
  unfold Core.Alike at *
  rw [k, h]

theorem Core.alike_bump (c : Core) (i s n : Nat) : c.Alike (c.bump i s n) := by
  by_cases hn : n = 0
  · rw [hn, Core.bump_zero]; exact .refl c
  · rw [Core.bump_eq c i s n hn]; rfl

theorem Core.alike_inject (c : Core) (det inst addr : Nat) : c.Alike (c.inject det inst addr).2 := by
  unfold Core.inject Core.injectIf
  dsimp only
  split
  · exact .refl c
  · exact .trans (b := { c with inj := _ }) rfl (Core.alike_bump _ _ _ _)

theorem Core.alike_tlp (c : Core) (fn : Nat) : c.Alike (c.tlp fn) := by
  unfold Core.tlp
  split
  · have h := Core.alike_inject c 0x14 0 0
    split
    · next heq => rw [heq] at h; exact .trans h (Core.alike_bump _ _ _ _)
    · next heq => rw [heq] at h; exact h
  · exact .refl c

/-- With no slot armed nothing is injected. -/
theorem Core.inject_none (c : Core) (h : c.inj = []) (det inst addr : Nat) : c.inject det inst addr = (none, c) := by
  simp [Core.inject, Core.injectIf, h]

theorem Core.tlp_none (c : Core) (h : c.inj = []) (fn : Nat) : c.tlp fn = c := by
  unfold Core.tlp; split
  · rw [Core.inject_none c h]
  · rfl

theorem Core.obj_inject (c : Core) {j u : Nat} (h : okey j u ≠ okey 0xB410 1) (det inst addr : Nat) :
    (c.inject det inst addr).2.obj j u = c.obj j u := by
  unfold Core.inject Core.injectIf
  dsimp only
  split
  · rfl
  · exact Core.obj_bump_ne _ _ h

/-- A TLP moves no object but the counters of corrected link errors and of injections. -/
theorem Core.obj_tlp (c : Core) {j u : Nat} (h : okey j u ≠ okey 0xB410 1) (k : okey j u ≠ okey 0xA880 9) (fn : Nat) :
    (c.tlp fn).obj j u = c.obj j u := by
  unfold Core.tlp
  split
  · have e := Core.obj_inject c h 0x14 0 0
    split
    · next heq => rw [heq] at e; rw [Core.obj_bump_ne _ _ k]; exact e
    · next heq => rw [heq] at e; exact e
  · rfl

@[simp] theorem Core.tlp_links (c : Core) (fn : Nat) : (c.tlp fn).links = c.links := by rw [Core.alike_tlp c fn]
@[simp] theorem Core.tlp_faultReq (c : Core) (fn : Nat) : (c.tlp fn).faultReq = c.faultReq := by
  rw [Core.alike_tlp c fn]
@[simp] theorem Core.tlp_mem (c : Core) (fn : Nat) : (c.tlp fn).mem = c.mem := by rw [Core.alike_tlp c fn]
@[simp] theorem Core.tlp_sec (c : Core) (fn : Nat) : (c.tlp fn).sec = c.sec := by rw [Core.alike_tlp c fn]
@[simp] theorem Core.tlp_now (c : Core) (fn : Nat) : (c.tlp fn).now = c.now := by rw [Core.alike_tlp c fn]
@[simp] theorem Core.tlp_queue (c : Core) (fn q : Nat) : (c.tlp fn).queue q = c.queue q := by simp [Core.queue]
@[simp] theorem Core.tlp_tally (c : Core) (fn t : Nat) : (c.tlp fn).tally t = c.tally t := by simp [Core.tally]

/-! ### Stores -/

/-- What the write-combining buffer may change: its entries, those being written back and their count, the requests and
the writes that wait, and counters. -/
def Core.Buffered (c c' : Core) : Prop :=
  c' = { c with
    mem := { c.mem with
      wcb := c'.mem.wcb, wbs := c'.mem.wbs, wbN := c'.mem.wbN, entryWaits := c'.mem.entryWaits, reqs := c'.mem.reqs }
    incs := c'.incs
    dict := { c.dict with objs := c'.dict.objs } }

theorem Core.Buffered.refl (c : Core) : c.Buffered c := rfl

theorem Core.Buffered.trans {a b c : Core} (h : a.Buffered b) (k : b.Buffered c) : a.Buffered c := by
  unfold Core.Buffered at *
  rw [k, h]

theorem Core.buffered_bump (c : Core) (i s n : Nat) : c.Buffered (c.bump i s n) := by
  by_cases hn : n = 0
  · rw [hn, Core.bump_zero]; exact .refl c
  · rw [Core.bump_eq c i s n hn]; rfl

theorem Core.buffered_writeBack (c : Core) (e : WcbEntry) : c.Buffered (c.writeBack e) := rfl

theorem Core.buffered_foldl {α : Type} (f : Core → α → Core) (h : ∀ (c : Core) (x : α), c.Buffered (f c x)) (l : List α) (c : Core) :
    c.Buffered (l.foldl f c) := by
  induction l generalizing c with
  | nil => exact .refl c
  | cons x l ih => exact .trans (h c x) (ih _)

theorem Core.buffered_writeBackAll (c : Core) : c.Buffered c.writeBackAll :=
  Core.buffered_foldl _ Core.buffered_writeBack _ _

theorem Core.buffered_evict (stack part n : Nat) (c : Core) (l : Option Nat) :
    c.Buffered (Core.evict stack part n c l).1 := by
  induction n generalizing c l with
  | zero => exact .refl c
  | succ n ih =>
    simp only [Core.evict]
    split
    · exact .trans (Core.buffered_writeBack _ _) (ih _ _)
    · exact .refl c

theorem Core.buffered_waits (c : Core) (w : List EntryWait) :
    c.Buffered { c with mem := { c.mem with entryWaits := w } } := rfl

theorem Core.buffered_makeRoom (c : Core) (stack part g : Nat) : c.Buffered (c.makeRoom stack part g) := by
  unfold Core.makeRoom
  dsimp only
  split
  · generalize hr : Core.evict stack part _ c none = r
    have h : c.Buffered r.1 := hr ▸ Core.buffered_evict stack part _ c none
    exact h.trans ((Core.buffered_waits r.1 _).trans (Core.buffered_bump _ _ _ _))
  · exact .refl c

theorem Core.buffered_joinWait (c : Core) (pc j g : Nat) : c.Buffered (c.joinWait pc j g) := by
  unfold Core.joinWait
  split
  · exact .trans (Core.buffered_waits _ _) (Core.buffered_bump _ _ _ _)
  · exact .refl c

theorem Core.buffered_enterGranule (c : Core) (sums : Bool) (g lo hi : Nat) : c.Buffered (c.enterGranule sums g lo hi) := by
  have put : ∀ (p : Prop) [Decidable p] (c : Core) (e : WcbEntry) (r : List WcbEntry), c.Buffered
      (if p then c.writeBack e else { c with mem := { c.mem with wcb := r } }) := by
    intro p _ c e r; split <;> rfl
  unfold Core.enterGranule
  dsimp only
  split
  · exact .trans (Core.buffered_joinWait _ _ _ _) (put _ _ _ _)
  · split
    · exact Core.buffered_makeRoom _ _ _ _
    · exact .trans (Core.buffered_makeRoom _ _ _ _) (put _ _ _ _)

theorem Core.buffered_enterRange (c : Core) (sums : Bool) (a n : Nat) : c.Buffered (c.enterRange sums a n) := by
  unfold Core.enterRange
  split
  · exact .refl c
  · exact Core.buffered_foldl _ (fun c _ => Core.buffered_enterGranule c _ _ _ _) _ _

theorem foldl_writeBack_wcb (l : List WcbEntry) (c : Core) :
    (l.foldl Core.writeBack c).mem.wcb = c.mem.wcb.filter fun x => !(l.any fun e => x.pc == e.pc && x.j == e.j) := by
  induction l generalizing c with
  | nil => simp
  | cons e l ih =>
    simp only [List.foldl_cons, ih, Core.writeBack, List.filter_filter, List.any_cons]
    congr 1
    funext x
    simp [Bool.and_comm]

/-- Written back, the buffer is empty. -/
theorem Core.writeBackAll_wcb (c : Core) : c.writeBackAll.mem.wcb = [] := by
  simp only [Core.writeBackAll, foldl_writeBack_wcb, List.filter_eq_nil_iff]
  intro x hx
  simp only [Bool.not_eq_true, Bool.not_eq_false', List.any_eq_true, Bool.and_eq_true, beq_iff_eq]
  exact ⟨x, hx, rfl, rfl⟩

@[simp] theorem Core.writeBackAll_mem (c : Core) : c.writeBackAll.mem.mem = c.mem.mem := by
  rw [Core.buffered_writeBackAll c]

theorem Core.breakPools_faultReq (c : Core) (a n : Nat) : (c.breakPools a n).faultReq = c.faultReq := by
  unfold Core.breakPools; split <;> rfl

theorem Core.breakPools_mem (c : Core) (a n : Nat) : (c.breakPools a n).mem = c.mem := by
  unfold Core.breakPools; split <;> rfl

theorem Core.breakPools_inj (c : Core) (a n : Nat) : (c.breakPools a n).inj = c.inj := by
  unfold Core.breakPools; split <;> rfl

/-- Undefined bytes (R80): the canonical form stays, and so does every byte outside them. -/
theorem Core.smear_spec (c : Core) (a n : Nat) : (Mem.wf c.mem.mem = true → Mem.wf (c.smear a n).mem.mem = true) ∧
    (∀ y, (y < a ∨ a + n ≤ y) → Mem.get (c.smear a n).mem.mem y = Mem.get c.mem.mem y) ∧
    (c.smear a n).links = c.links := by
  refine ⟨fun h => Mem.write_wf _ _ _ h, fun y h => ?_, rfl⟩
  have hn : ¬(a ≤ y ∧ y < a + n) := by omega
  simp [Core.smear, Core.drawBytes, Mem.get_write, hn]

/-- Undefined ranges, one after another. -/
theorem Core.smears_spec (c : Core) (rs : List (Nat × Nat)) :
    let t := rs.foldl (fun c (r : Nat × Nat) => c.smear r.1 r.2) c
    t.links = c.links ∧ (Mem.wf c.mem.mem = true → Mem.wf t.mem.mem = true) ∧
    ∀ y, (∀ p ∈ rs, y < p.1 ∨ p.1 + p.2 ≤ y) → Mem.get t.mem.mem y = Mem.get c.mem.mem y := by
  induction rs generalizing c with
  | nil => exact ⟨rfl, id, fun _ _ => rfl⟩
  | cons r rs ih =>
    obtain ⟨h1, h2, h3⟩ := Core.smear_spec c r.1 r.2
    obtain ⟨i1, i2, i3⟩ := ih (c.smear r.1 r.2)
    refine ⟨i1.trans h3, fun h => i2 (h1 h), fun y h => ?_⟩
    rw [List.forall_mem_cons] at h
    exact (i3 y h.2).trans (h2 y h.1)

/-- What a rejected descriptor wrote becomes undefined, and nothing else of memory and links changes (R80). -/
theorem Core.undefine_spec (c : Core) (d : Nat) (x : Desc) (hx : c.desc? d = some x) :
    (c.undefine d).links = c.links ∧ (Mem.wf c.mem.mem = true → Mem.wf (c.undefine d).mem.mem = true) ∧
    ∀ y, (∀ p ∈ x.wrote, y < p.1 ∨ p.1 + p.2 ≤ y) → Mem.get (c.undefine d).mem.mem y = Mem.get c.mem.mem y := by
  simpa [Core.undefine, hx] using Core.smears_spec c x.wrote

/-- A store writes its bytes and no others (R312). -/
theorem Core.store_mem (c : Core) (a : Nat) (bs : List Byte) : (c.store a bs).mem.mem = Mem.write c.mem.mem a bs := by
  unfold Core.store
  dsimp only
  rw [Core.buffered_enterRange]
  simp [Core.clearPoison, Core.breakPools_mem]

theorem Core.store_faultReq (c : Core) (a : Nat) (bs : List Byte) : (c.store a bs).faultReq = c.faultReq := by
  unfold Core.store
  dsimp only
  rw [Core.buffered_enterRange]
  simp [Core.clearPoison, Core.breakPools_faultReq]

theorem Core.store_inj (c : Core) (a : Nat) (bs : List Byte) : (c.store a bs).inj = c.inj := by
  unfold Core.store
  dsimp only
  rw [Core.buffered_enterRange]
  simp [Core.clearPoison, Core.breakPools_inj]

/-- With no slot armed no operation is injected, however many places it has. -/
theorem Core.injectEach_none (c : Core) (h : c.inj = []) (det : Nat) (us : List Nat) (inst : Nat → Nat)
    (hit : Core → Nat → Nat → Core) : c.injectEach det us inst hit = c := by
  simp [Core.injectEach, Core.armed, h]

theorem Core.transfers_none (c : Core) (h : c.inj = []) (a n : Nat) : c.transfers a n = c := by
  unfold Core.transfers
  split
  · exact Core.injectEach_none c h _ _ _ _
  · rfl

/-- With no slot armed a store goes in as it is. -/
theorem Core.put_none (c : Core) (h : c.inj = []) (a : Nat) (bs : List Byte) : c.put a bs = c.store a bs := by
  have hs : (c.store a bs).inj = [] := by rw [Core.store_inj, h]
  unfold Core.put Core.injectStore
  simp [Core.injectEach_none _ hs, Core.transfers_none _ hs]

/-! ### Logging -/

/-- What logging an occurrence may change: the log, a FAULT_STOP asked for, and counters. -/
def Core.Logged (c c' : Core) : Prop :=
  c' = { c with log := c'.log, faultReq := c'.faultReq, incs := c'.incs, dict := { c.dict with objs := c'.dict.objs } }

theorem Core.Logged.refl (c : Core) : c.Logged c := rfl

theorem Core.Logged.trans {a b c : Core} (h : a.Logged b) (k : b.Logged c) : a.Logged c := by
  unfold Core.Logged at *
  rw [k, h]

theorem Core.logged_bump (c : Core) (i s n : Nat) : c.Logged (c.bump i s n) := by
  by_cases hn : n = 0
  · rw [hn, Core.bump_zero]; exact .refl c
  · rw [Core.bump_eq c i s n hn]; rfl

theorem Core.logged_countEvent (c : Core) (e : EventRec) : c.Logged (c.countEvent e) := by
  unfold Core.countEvent
  refine .trans (.trans ?_ (Core.logged_bump _ _ _ _)) (Core.logged_bump _ _ _ _)
  rfl

theorem Core.logged_enqueueAt (c : Core) (die : Nat) (e : EventRec) : c.Logged (c.enqueueAt die e) := by
  unfold Core.enqueueAt
  dsimp only
  split
  · rfl
  · refine .trans (.trans ?_ (Core.logged_countEvent _ _)) (Core.logged_bump _ _ _ _)
    rfl

theorem Core.logged_noteAt (c : Core) (die : Nat) (v : Ev) : c.Logged (c.noteAt die v) := by
  unfold Core.noteAt
  dsimp only
  split
  · exact .trans (Core.logged_enqueueAt _ _ _) rfl
  · exact Core.logged_enqueueAt _ _ _

theorem Core.logged_note (c : Core) (v : Ev) : c.Logged (c.note v) := Core.logged_noteAt c _ v

/-- An event that belongs to no descriptor is only logged. -/
theorem Core.raise_free (c : Core) (v : Ev) (h : v.d = none) : c.raise v = c.note v := by
  unfold Core.raise
  rw [h]

@[simp] theorem Core.note_links (c : Core) (v : Ev) : (c.note v).links = c.links := by rw [Core.logged_note c v]
@[simp] theorem Core.note_mem (c : Core) (v : Ev) : (c.note v).mem = c.mem := by rw [Core.logged_note c v]
@[simp] theorem Core.note_inj (c : Core) (v : Ev) : (c.note v).inj = c.inj := by rw [Core.logged_note c v]
@[simp] theorem Core.note_now (c : Core) (v : Ev) : (c.note v).now = c.now := by rw [Core.logged_note c v]
@[simp] theorem Core.note_free (c : Core) (v : Ev) : (c.note v).free = c.free := by rw [Core.logged_note c v]
@[simp] theorem Core.note_step (c : Core) (v : Ev) : (c.note v).step = c.step := by rw [Core.logged_note c v]
@[simp] theorem Core.note_fwd (c : Core) (v : Ev) : (c.note v).fwd = c.fwd := by rw [Core.logged_note c v]
@[simp] theorem Core.note_bwd (c : Core) (v : Ev) : (c.note v).bwd = c.bwd := by rw [Core.logged_note c v]
@[simp] theorem Core.note_attn (c : Core) (v : Ev) : (c.note v).attn = c.attn := by rw [Core.logged_note c v]
@[simp] theorem Core.note_roll (c : Core) (v : Ev) : (c.note v).roll = c.roll := by rw [Core.logged_note c v]
@[simp] theorem Core.note_stp (c : Core) (v : Ev) : (c.note v).stp = c.stp := by rw [Core.logged_note c v]
@[simp] theorem Core.note_xch (c : Core) (v : Ev) : (c.note v).xch = c.xch := by rw [Core.logged_note c v]
@[simp] theorem Core.note_pow (c : Core) (v : Ev) : (c.note v).pow = c.pow := by rw [Core.logged_note c v]
@[simp] theorem Core.note_pins (c : Core) (v : Ev) : (c.note v).pins = c.pins := by rw [Core.logged_note c v]
@[simp] theorem Core.note_module_ (c : Core) (v : Ev) : (c.note v).module_ = c.module_ := by rw [Core.logged_note c v]
@[simp] theorem Core.note_sec (c : Core) (v : Ev) : (c.note v).sec = c.sec := by rw [Core.logged_note c v]

/-- A unit whose region and P0 hold no poison reads them without effect (R333). -/
theorem Core.sysRead_clean (c : Core) (r : Nat × Nat) (h : c.sysPoison r = none) : c.sysRead r = c := by
  simp [Core.sysRead, h]

/-- A unit that reads its region may log, and does nothing else. -/
theorem Core.logged_sysRead (c : Core) (r : Nat × Nat) : c.Logged (c.sysRead r) := by
  unfold Core.sysRead
  split
  · exact Core.Logged.refl c
  · rw [Core.raise_free _ _ rfl]; exact Core.logged_note c _

@[simp] theorem Core.sysRead_now (c : Core) (r : Nat × Nat) : (c.sysRead r).now = c.now := by rw [Core.logged_sysRead c r]
@[simp] theorem Core.sysRead_free (c : Core) (r : Nat × Nat) : (c.sysRead r).free = c.free := by rw [Core.logged_sysRead c r]
@[simp] theorem Core.sysRead_step (c : Core) (r : Nat × Nat) : (c.sysRead r).step = c.step := by rw [Core.logged_sysRead c r]
@[simp] theorem Core.sysRead_inj (c : Core) (r : Nat × Nat) : (c.sysRead r).inj = c.inj := by rw [Core.logged_sysRead c r]
@[simp] theorem Core.sysRead_mem (c : Core) (r : Nat × Nat) : (c.sysRead r).mem = c.mem := by rw [Core.logged_sysRead c r]
@[simp] theorem Core.sysRead_links (c : Core) (r : Nat × Nat) : (c.sysRead r).links = c.links := by rw [Core.logged_sysRead c r]
@[simp] theorem Core.sysRead_fwd (c : Core) (r : Nat × Nat) : (c.sysRead r).fwd = c.fwd := by rw [Core.logged_sysRead c r]
@[simp] theorem Core.sysRead_bwd (c : Core) (r : Nat × Nat) : (c.sysRead r).bwd = c.bwd := by rw [Core.logged_sysRead c r]
@[simp] theorem Core.sysRead_attn (c : Core) (r : Nat × Nat) : (c.sysRead r).attn = c.attn := by rw [Core.logged_sysRead c r]
@[simp] theorem Core.sysRead_roll (c : Core) (r : Nat × Nat) : (c.sysRead r).roll = c.roll := by rw [Core.logged_sysRead c r]
@[simp] theorem Core.sysRead_stp (c : Core) (r : Nat × Nat) : (c.sysRead r).stp = c.stp := by rw [Core.logged_sysRead c r]
@[simp] theorem Core.sysRead_xch (c : Core) (r : Nat × Nat) : (c.sysRead r).xch = c.xch := by rw [Core.logged_sysRead c r]
@[simp] theorem Core.sysRead_pow (c : Core) (r : Nat × Nat) : (c.sysRead r).pow = c.pow := by rw [Core.logged_sysRead c r]
@[simp] theorem Core.sysRead_pins (c : Core) (r : Nat × Nat) : (c.sysRead r).pins = c.pins := by rw [Core.logged_sysRead c r]
@[simp] theorem Core.sysRead_module_ (c : Core) (r : Nat × Nat) : (c.sysRead r).module_ = c.module_ := by rw [Core.logged_sysRead c r]
@[simp] theorem Core.sysRead_sec (c : Core) (r : Nat × Nat) : (c.sysRead r).sec = c.sec := by rw [Core.logged_sysRead c r]

@[simp] theorem Core.answer_now (c : Core) (src : Src) (index sub status : Nat) (data : List Byte) : (c.answer src index sub status data).now = c.now := by simp [Core.answer]
@[simp] theorem Core.answer_free (c : Core) (src : Src) (index sub status : Nat) (data : List Byte) : (c.answer src index sub status data).free = c.free := by simp [Core.answer]
@[simp] theorem Core.answer_step (c : Core) (src : Src) (index sub status : Nat) (data : List Byte) : (c.answer src index sub status data).step = c.step := by simp [Core.answer]
@[simp] theorem Core.answer_inj (c : Core) (src : Src) (index sub status : Nat) (data : List Byte) : (c.answer src index sub status data).inj = c.inj := by simp [Core.answer]
@[simp] theorem Core.answer_mem (c : Core) (src : Src) (index sub status : Nat) (data : List Byte) : (c.answer src index sub status data).mem = c.mem := by simp [Core.answer]
@[simp] theorem Core.answer_links (c : Core) (src : Src) (index sub status : Nat) (data : List Byte) : (c.answer src index sub status data).links = c.links := by simp [Core.answer]
@[simp] theorem Core.answer_fwd (c : Core) (src : Src) (index sub status : Nat) (data : List Byte) : (c.answer src index sub status data).fwd = c.fwd := by simp [Core.answer]
@[simp] theorem Core.answer_bwd (c : Core) (src : Src) (index sub status : Nat) (data : List Byte) : (c.answer src index sub status data).bwd = c.bwd := by simp [Core.answer]
@[simp] theorem Core.answer_attn (c : Core) (src : Src) (index sub status : Nat) (data : List Byte) : (c.answer src index sub status data).attn = c.attn := by simp [Core.answer]
@[simp] theorem Core.answer_roll (c : Core) (src : Src) (index sub status : Nat) (data : List Byte) : (c.answer src index sub status data).roll = c.roll := by simp [Core.answer]
@[simp] theorem Core.answer_stp (c : Core) (src : Src) (index sub status : Nat) (data : List Byte) : (c.answer src index sub status data).stp = c.stp := by simp [Core.answer]
@[simp] theorem Core.answer_xch (c : Core) (src : Src) (index sub status : Nat) (data : List Byte) : (c.answer src index sub status data).xch = c.xch := by simp [Core.answer]
@[simp] theorem Core.answer_pow (c : Core) (src : Src) (index sub status : Nat) (data : List Byte) : (c.answer src index sub status data).pow = c.pow := by simp [Core.answer]
@[simp] theorem Core.answer_pins (c : Core) (src : Src) (index sub status : Nat) (data : List Byte) : (c.answer src index sub status data).pins = c.pins := by simp [Core.answer]
@[simp] theorem Core.answer_module_ (c : Core) (src : Src) (index sub status : Nat) (data : List Byte) : (c.answer src index sub status data).module_ = c.module_ := by simp [Core.answer]
@[simp] theorem Core.answer_sec (c : Core) (src : Src) (index sub status : Nat) (data : List Byte) : (c.answer src index sub status data).sec = c.sec := by simp [Core.answer]

/-- With no poison in the ringmaster's region or P0, an answer asks for no FAULT_STOP. -/
theorem Core.answer_faultReq (c : Core) (src : Src) (index sub status : Nat) (data : List Byte)
    (h : c.sysPoison sysRingmaster = none) : (c.answer src index sub status data).faultReq = c.faultReq := by
  simp [Core.answer, Core.sysRead_clean c _ h]

theorem find?_set {α : Type} (p : Nat → α → Bool) (m : KMap α) (k : Nat) (v : α) (h : ∀ w, p k w = false) :
    (KMap.set m k v).find? (fun x => p x.1 x.2) = m.find? (fun x => p x.1 x.2) := by
  induction m with
  | nil => simp [KMap.set, h]
  | cons q m ih =>
    obtain ⟨j, w⟩ := q
    simp only [KMap.set]
    split
    · simp [h]
    · split
      · next e => subst e; simp [h]
      · simp only [List.find?_cons, ih]

/-- Giving a value to an object that is no escalation entry changes no escalation. -/
theorem Core.escClass_setObj (c : Core) {i s : Nat} (h : okey i s < 0xB20000 ∨ 0xB24000 ≤ okey i s) (v code : Nat) :
    (c.setObj i s v).escClass code = c.escClass code := by
  have hf := find?_set (fun k w => decide (0xB20001 ≤ k) && decide (k ≤ 0xB23F01) && (k % 256 == 1) && (w == code))
    c.dict.objs (okey i s) v (by intro w; simp; omega)
  beta_reduce at hf
  unfold Core.escClass
  rw [show (c.setObj i s v).dict.objs = KMap.set c.dict.objs (okey i s) v from rfl, hf]
  split
  · next p hp =>
    have := List.find?_some hp
    simp at this
    exact Core.obj_setObj_ne c v (by unfold okey at *; omega)
  · rfl

theorem Core.escClass_bump (c : Core) {i s : Nat} (h : okey i s < 0xB20000 ∨ 0xB24000 ≤ okey i s) (n code : Nat) :
    (c.bump i s n).escClass code = c.escClass code := by
  by_cases hn : n = 0
  · rw [hn, Core.bump_zero]
  · rw [Core.bump_eq c i s n hn]; exact Core.escClass_setObj c h _ _

/-- An occurrence asks for FAULT_STOP only at class FAULT_STOP. -/
theorem Core.note_quiet (c : Core) (v : Ev) (h : c.faultReq = none) (hv : c.evClass v ≠ 3) :
    (c.note v).faultReq = none := by
  have e : (c.enqueueAt (srcDie v.source) (c.evRecord v)).faultReq = none := by
    unfold Core.enqueueAt Core.countEvent Core.bump
    dsimp only
    repeat' split
    all_goals exact h
  unfold Core.note Core.noteAt
  dsimp only
  rw [if_neg]
  · exact e
  · rintro ⟨h3, -⟩; exact hv h3

@[simp] theorem Core.enterRange_links (c : Core) (sums : Bool) (a n : Nat) : (c.enterRange sums a n).links = c.links := by
  rw [Core.buffered_enterRange]

theorem Core.rowCorrected_links (c : Core) (a : Nat) : (c.rowCorrected a).links = c.links := by
  unfold Core.rowCorrected
  dsimp only
  repeat' split
  all_goals first
    | rfl
    | rw [Core.raise_free _ _ rfl, Core.note_links]

theorem Core.readSymbols_links (c : Core) (u n : Nat) (inj : Bool) :
    (c.readSymbols u n inj).links = c.links := by
  have corr : ∀ c : Core, (c.sectorCorrected u).links = c.links := by
    intro c
    unfold Core.sectorCorrected
    rw [Core.rowCorrected_links]; simp
  have lost : ∀ c : Core, (c.sectorLost u n inj).links = c.links := by
    intro c
    unfold Core.sectorLost
    rw [Core.raise_free _ _ rfl]; simp
  unfold Core.readSymbols
  split
  · exact corr c
  · split
    · exact lost c
    · have hd : (c.draw 3).2.links = c.links := rfl
      generalize c.draw 3 = p at hd
      obtain ⟨o, c⟩ := p
      dsimp only at hd ⊢
      have hb : (c.drawBytes 64).2.links = c.links := rfl
      generalize c.drawBytes 64 = q at hb
      obtain ⟨bs, c'⟩ := q
      dsimp only at hb ⊢
      split
      · rw [lost, hd]
      · split
        · rw [corr]; exact hb.trans hd
        · exact hb.trans hd

theorem Core.wordCorrected_links (c : Core) (u : Nat) : (c.wordCorrected u).links = c.links := by
  simp only [Core.wordCorrected, apply_ite Core.links, Core.bump_links, ite_self]

theorem Core.readFlips_links (c : Core) (u n : Nat) (inj : Bool) : (c.readFlips u n inj).links = c.links := by
  unfold Core.readFlips
  split
  · exact Core.wordCorrected_links c u
  · rw [Core.raise_free _ _ rfl]; simp

theorem foldl_links {α : Type} (f : Core → α → Core) (h : ∀ (c : Core) (x : α), (f c x).links = c.links) (l : List α)
    (c : Core) : (l.foldl f c).links = c.links := by
  induction l generalizing c with
  | nil => rfl
  | cons x l ih => rw [List.foldl_cons, ih, h]

theorem Core.injectEach_links (c : Core) (det : Nat) (us : List Nat) (inst : Nat → Nat) (hit : Core → Nat → Nat → Core)
    (h : ∀ c u p, (hit c u p).links = c.links) : (c.injectEach det us inst hit).links = c.links := by
  unfold Core.injectEach
  split
  · apply foldl_links
    intro c u
    have hl : (c.inject det (inst u) u).2.links = c.links := by rw [Core.alike_inject c]
    split
    · next heq => rw [heq] at hl; rw [h, hl]
    · next heq => rw [heq] at hl; exact hl
  · rfl

theorem Core.transfers_links (c : Core) (a n : Nat) : (c.transfers a n).links = c.links := by
  unfold Core.transfers
  split
  · refine Core.injectEach_links _ _ _ _ _ fun c u p => ?_
    unfold Core.transferFails
    dsimp only
    repeat' split
    · simp
    · rw [Core.raise_free _ _ rfl]; simp
  · rfl

/-- A read changes no queue, tally, descriptor or transaction. -/
theorem Core.touch_links (c : Core) (a n : Nat) : (c.touch a n).links = c.links := by
  unfold Core.touch
  dsimp only
  rw [foldl_links, foldl_links]
  · simp [Core.transfers_links]
  · intro c x; unfold Core.readSector; rw [Core.readSymbols_links]
  · intro c x; unfold Core.readWord; rw [Core.readFlips_links]
end Sys2Proof.Machine
end

