-- ==== Sys2Proof/Laws/Step.lean ====
section
/-! SUPPORT. What a command can answer: said once for every constructor. -/

namespace Sys2Proof.Machine

/-- A lifted command leaves a held state alone, and else ends its effect under the same device state. -/
theorem lift_answers (f : Dev → Core → Core) (s : State) :
    (s.held = true ∧ lift f s = .next s) ∨ ∃ c, lift f s = .next (finish s.dev c s.pending) := by
  unfold lift
  split
  · next h => exact .inl ⟨h, rfl⟩
  · exact .inr ⟨_, rfl⟩

/-- While nothing holds the device a lifted command has its effect. -/
theorem lift_awake (f : Dev → Core → Core) (s : State) (h : s.awake) :
    lift f s = .next (finish s.dev (f s.dev s.core) s.pending) := by
  unfold lift
  rw [if_neg (by rw [h]; exact Bool.false_ne_true)]

/-- One that may move the device leaves a held state alone too, and else ends its effect. -/
theorem liftDev_answers (f : Dev → Core → Dev × Core) (s : State) :
    (s.held = true ∧ liftDev f s = .next s) ∨ ∃ d c, liftDev f s = .next (finish d c s.pending) := by
  unfold liftDev
  split
  · next h => exact .inl ⟨h, rfl⟩
  · exact .inr ⟨_, _, rfl⟩

theorem liftDev_awake (f : Dev → Core → Dev × Core) (s : State) (h : s.awake) :
    liftDev f s = .next (finish (f s.dev s.core).1 (f s.dev s.core).2 s.pending) := by
  unfold liftDev
  rw [if_neg (by rw [h]; exact Bool.false_ne_true)]
  rfl

/-- A command of the pins that keeps the device state. -/
theorem liftPins_keeps (f : Dev → Core → Dev × Core) (s : State) (h : (f s.dev s.core).1 = s.dev) :
    ∃ c, liftPins f s = .next (finish s.dev c s.pending) := by
  refine ⟨(f s.dev s.core).2, ?_⟩
  unfold liftPins
  rw [h]

/-- An SPDM request ends its effect, or finds the device held. -/
theorem spdm_answers (f : Core → Core) (s : State) :
    (s.held = true ∧ spdm f s = .next s) ∨ ∃ c, spdm f s = .next (finish s.dev c s.pending) := lift_answers _ s

/-- With no request that found no route, nothing is ended. -/
theorem Core.endUnsent_nil (dev : Dev) (n : Nat) (c : Core) (h : c.links.ended = []) : c.endUnsent dev n = c := by
  cases n <;> simp [Core.endUnsent, h]

/-- A command that does not move the device by itself answers the end of a core under the same device state, leaves a
held state alone, or is refused. -/
theorem exec_stays (i : Instr) (s : State) (h : i.movesDev = false) :
    (∃ r, exec i s = .refused r) ∨ (s.held = true ∧ exec i s = .next s) ∨
      ∃ c, exec i s = .next (finish s.dev c s.pending) := by
  cases i with
  | inputTurnOn mv =>
    unfold exec execInputTurnOn
    refine .inr (.inr (liftPins_keeps _ s ?_))
    dsimp only
    split <;> rfl
  | powerEnable =>
    unfold exec execPowerEnable
    refine .inr (.inr (liftPins_keeps _ s ?_))
    dsimp only
  | powerOffTimeEnd =>
    unfold exec execPowerOffTimeEnd
    refine .inr (.inr (liftPins_keeps _ s ?_))
    dsimp only
  | perstAssert =>
    unfold exec execPerstAssert
    refine .inr (.inr (liftPins_keeps _ s ?_))
    dsimp only
  | perstDeassert link =>
    unfold exec execPerstDeassert
    refine .inr (.inr (liftPins_keeps _ s ?_))
    dsimp only
  | doorbell fn q off v => unfold exec execDoorbell; exact .inr (lift_answers _ s)
  | tallySet fn t v => unfold exec execTallySet; exact .inr (lift_answers _ s)
  | tallyAdd fn t v => unfold exec execTallyAdd; exact .inr (lift_answers _ s)
  | queueFetch q hostSlot => unfold exec execQueueFetch; exact .inr (lift_answers _ s)
  | queueAbort src q => unfold exec execQueueAbort; exact .inr (lift_answers _ s)
  | abortRemovalDone q => unfold exec execAbortRemovalDone; exact .inr (lift_answers _ s)
  | queueResume src q => unfold exec execQueueResume; exact .inr (lift_answers _ s)
  | functionLevelReset fn => unfold exec execFunctionLevelReset; exact .inr (lift_answers _ s)
  | pcieLinkDown => unfold exec execPcieLinkDown; exact .inr (lift_answers _ s)
  | bar4Access off len write => unfold exec execBar4Access; exact .inr (lift_answers _ s)
  | tallyOp d => unfold exec execTallyOp; exact .inr (lift_answers _ s)
  | copy d engine => unfold exec execCopy; exact .inr (lift_answers _ s)
  | descriptorComplete d => unfold exec execDescriptorComplete; exact .inr (lift_answers _ s)
  | forwardProduct d => unfold exec execForwardProduct; exact .inr (lift_answers _ s)
  | gatedFfProduct d => unfold exec execGatedFfProduct; exact .inr (lift_answers _ s)
  | tableLoad d => unfold exec execTableLoad; exact .inr (lift_answers _ s)
  | weightChunkLoad tile => unfold exec execWeightChunkLoad; exact .inr (lift_answers _ s)
  | laneGroupHandshake tile lg => unfold exec execLaneGroupHandshake; exact .inr (lift_answers _ s)
  | bondRelease tile => unfold exec execBondRelease; exact .inr (lift_answers _ s)
  | puProduct d => unfold exec execPuProduct; exact .inr (lift_answers _ s)
  | rowStatistics d => unfold exec execRowStatistics; exact .inr (lift_answers _ s)
  | gather d => unfold exec execGather; exact .inr (lift_answers _ s)
  | select d => unfold exec execSelect; exact .inr (lift_answers _ s)
  | productBackward d => unfold exec execProductBackward; exact .inr (lift_answers _ s)
  | normalisationBackward d => unfold exec execNormalisationBackward; exact .inr (lift_answers _ s)
  | headSoftmaxBackward d => unfold exec execHeadSoftmaxBackward; exact .inr (lift_answers _ s)
  | attentionBackward d => unfold exec execAttentionBackward; exact .inr (lift_answers _ s)
  | gradientDeposit d => unfold exec execGradientDeposit; exact .inr (lift_answers _ s)
  | convert d => unfold exec execConvert; exact .inr (lift_answers _ s)
  | spanConvert conv => unfold exec execSpanConvert; exact .inr (lift_answers _ s)
  | watchRecordsWrite => unfold exec execWatchRecordsWrite; exact .inr (lift_answers _ s)
  | attention d => unfold exec execAttention; exact .inr (lift_answers _ s)
  | attentionItem engine => unfold exec execAttentionItem liftTags; exact .inr (lift_answers _ s)
  | pageWaitTimeout engine => unfold exec execPageWaitTimeout liftTags; exact .inr (lift_answers _ s)
  | remoteReadTimeout engine => unfold exec execRemoteReadTimeout liftTags; exact .inr (lift_answers _ s)
  | poolFreePage src pool page => unfold exec execPoolFreePage; exact .inr (lift_answers _ s)
  | quarantineRelease => unfold exec execQuarantineRelease; exact .inr (lift_answers _ s)
  | ctxOpen d => unfold exec execCtxOpen; exact .inr (lift_answers _ s)
  | ctxClose d => unfold exec execCtxClose; exact .inr (lift_answers _ s)
  | ctxHold d => unfold exec execCtxHold; exact .inr (lift_answers _ s)
  | ctxRelease d => unfold exec execCtxRelease; exact .inr (lift_answers _ s)
  | ctxPark d => unfold exec execCtxPark; exact .inr (lift_answers _ s)
  | parkPagesAcknowledged ctx => unfold exec execParkPagesAcknowledged; exact .inr (lift_answers _ s)
  | ctxResume d => unfold exec execCtxResume; exact .inr (lift_answers _ s)
  | ctxInsert d => unfold exec execCtxInsert; exact .inr (lift_answers _ s)
  | abortStep d => unfold exec execAbortStep; exact .inr (lift_answers _ s)
  | flushPrefix d => unfold exec execFlushPrefix; exact .inr (lift_answers _ s)
  | deferredContextOp ctx => unfold exec execDeferredContextOp; exact .inr (lift_answers _ s)
  | decodeStepOpen d => unfold exec execDecodeStepOpen; exact .inr (lift_answers _ s)
  | sampleTarget d => unfold exec execSampleTarget; exact .inr (lift_answers _ s)
  | sampleDraft d => unfold exec execSampleDraft; exact .inr (lift_answers _ s)
  | holdLimitExpiry => unfold exec execHoldLimitExpiry; exact .inr (lift_answers _ s)
  | stepOpen d => unfold exec execStepOpen; exact .inr (lift_answers _ s)
  | stepOpenEffect => unfold exec execStepOpenEffect; exact .inr (lift_answers _ s)
  | microbatchOpen d => unfold exec execMicrobatchOpen; exact .inr (lift_answers _ s)
  | microbatchClose d => unfold exec execMicrobatchClose; exact .inr (lift_answers _ s)
  | updateSgd d => unfold exec execUpdateSgd; exact .inr (lift_answers _ s)
  | updateAdamw d => unfold exec execUpdateAdamw; exact .inr (lift_answers _ s)
  | updateSignMomentum d => unfold exec execUpdateSignMomentum; exact .inr (lift_answers _ s)
  | refresh d => unfold exec execRefresh; exact .inr (lift_answers _ s)
  | publish d => unfold exec execPublish; exact .inr (lift_answers _ s)
  | load d => unfold exec execLoad; exact .inr (lift_answers _ s)
  | exportBank d => unfold exec execExportBank; exact .inr (lift_answers _ s)
  | exportTimeout d => unfold exec execExportTimeout liftTags; exact .inr (lift_answers _ s)
  | bankGrant b => unfold exec execBankGrant; exact .inr (lift_answers _ s)
  | depositReceived m => unfold exec execDepositReceived; exact .inr (lift_answers _ s)
  | endReceived m => unfold exec execEndReceived; exact .inr (lift_answers _ s)
  | hodDeadlineOpen hod => unfold exec execHodDeadlineOpen; exact .inr (lift_answers _ s)
  | hodDeadlineFirst hod => unfold exec execHodDeadlineFirst; exact .inr (lift_answers _ s)
  | ringReceived m => unfold exec execRingReceived; exact .inr (lift_answers _ s)
  | ringEndReceived m => unfold exec execRingEndReceived; exact .inr (lift_answers _ s)
  | ringHopTimeout tag => unfold exec execRingHopTimeout liftTags; exact .inr (lift_answers _ s)
  | imageReceived m => unfold exec execImageReceived; exact .inr (lift_answers _ s)
  | xansReceived answers => unfold exec execXansReceived liftTags; exact .inr (lift_answers _ s)
  | resendTimer tag => unfold exec execResendTimer; exact .inr (lift_answers _ s)
  | novoteTimeout => unfold exec execNovoteTimeout; exact .inr (lift_answers _ s)
  | voteReceived step member novote hodCrc memberCrc => unfold exec execVoteReceived; exact .inr (lift_answers _ s)
  | voteWindowExpiry => unfold exec execVoteWindowExpiry; exact .inr (lift_answers _ s)
  | commitReceived step c listeners admitted admitStep => unfold exec execCommitReceived; exact .inr (lift_answers _ s)
  | abandonReceived step silent => unfold exec execAbandonReceived; exact .inr (lift_answers _ s)
  | commitWaitExpiry => unfold exec execCommitWaitExpiry; exact .inr (lift_answers _ s)
  | fpReceived step member summary torn => unfold exec execFpReceived; exact .inr (lift_answers _ s)
  | fpWindowExpiry => unfold exec execFpWindowExpiry; exact .inr (lift_answers _ s)
  | closeReceived step agreed excluded split => unfold exec execCloseReceived; exact .inr (lift_answers _ s)
  | rejoinRequest src => unfold exec execRejoinRequest; exact .inr (lift_answers _ s)
  | rejoinReqReceived member lastStep => unfold exec execRejoinReqReceived; exact .inr (lift_answers _ s)
  | rejoinReqResend => unfold exec execRejoinReqResend; exact .inr (lift_answers _ s)
  | doneReceived member => unfold exec execDoneReceived; exact .inr (lift_answers _ s)
  | rejoinHoldExpiry => unfold exec execRejoinHoldExpiry; exact .inr (lift_answers _ s)
  | hbmSlot pc => unfold exec execHbmSlot; exact .inr (lift_answers _ s)
  | wcbAgeWriteback stack entry => unfold exec execWcbAgeWriteback; exact .inr (lift_answers _ s)
  | hbmPatrolScrub addr symbols => unfold exec execHbmPatrolScrub; exact .inr (lift_answers _ s)
  | tileStoreScrub addr flips => unfold exec execTileStoreScrub; exact .inr (lift_answers _ s)
  | repairExecute src => unfold exec execRepairExecute; exact .inr (lift_answers _ s)
  | portTrainingStart f => unfold exec execPortTrainingStart; exact .inr (lift_answers _ s)
  | trainingComplete f failedLanes delayNs peer => unfold exec execTrainingComplete; exact .inr (lift_answers _ s)
  | trainingRetry f => unfold exec execTrainingRetry; exact .inr (lift_answers _ s)
  | lossOfSignal f => unfold exec execLossOfSignal; exact .inr (lift_answers _ s)
  | flitBoundary f => unfold exec execFlitBoundary liftTags; exact .inr (lift_answers _ s)
  | txnFlitReceived f flit => unfold exec execTxnFlitReceived; exact .inr (lift_answers _ s)
  | nakReceived f seq cls credits => unfold exec execNakReceived; exact .inr (lift_answers _ s)
  | linkFlitReceived f ack cls credits => unfold exec execLinkFlitReceived; exact .inr (lift_answers _ s)
  | recoverDone f => unfold exec execRecoverDone; exact .inr (lift_answers _ s)
  | recoverTimeout f => unfold exec execRecoverTimeout; exact .inr (lift_answers _ s)
  | rd src tag addr len => unfold exec execRd; exact .inr (lift_answers _ s)
  | rdData tag data => unfold exec execRdData answered liftTags; exact .inr (lift_answers _ s)
  | rdErr tag code => unfold exec execRdErr answered liftTags; exact .inr (lift_answers _ s)
  | wr src tag addr len data => unfold exec execWr; exact .inr (lift_answers _ s)
  | wrData src tag data => unfold exec execWrData; exact .inr (lift_answers _ s)
  | wrAck tag code => unfold exec execWrAck answered liftTags; exact .inr (lift_answers _ s)
  | dans tag dg => unfold exec execDans answered liftTags; exact .inr (lift_answers _ s)
  | completionTimeout tag => unfold exec execCompletionTimeout answered liftTags; exact .inr (lift_answers _ s)
  | keystoneApply src => unfold exec execKeystoneApply; exact .inr (lift_answers _ s)
  | keystoneDiscard src => unfold exec execKeystoneDiscard; exact .inr (lift_answers _ s)
  | stagingHoldExpiry => unfold exec execStagingHoldExpiry; exact .inr (lift_answers _ s)
  | kimalLinkDown k => unfold exec execKimalLinkDown; exact .inr (lift_answers _ s)
  | kimalLinkUp k => unfold exec execKimalLinkUp; exact .inr (lift_answers _ s)
  | delayProbe k roundTrip turnaround => unfold exec execDelayProbe; exact .inr (lift_answers _ s)
  | syncLoss => unfold exec execSyncLoss; exact .inr (lift_answers _ s)
  | timeSet src t => unfold exec execTimeSet; exact .inr (lift_answers _ s)
  | powerEstimate mw => unfold exec execPowerEstimate; exact .inr (lift_answers _ s)
  | stagePoll r => unfold exec execStagePoll; exact .inr (lift_answers _ s)
  | stageSilent => unfold exec execStageSilent; exact .inr (lift_answers _ s)
  | governorCycle ratesMhs mwAtVoltage => unfold exec execGovernorCycle; exact .inr (lift_answers _ s)
  | temperatureRead mc cores => unfold exec execTemperatureRead; exact .inr (lift_answers _ s)
  | railMonitorSample rail mv => unfold exec execRailMonitorSample; exact .inr (lift_answers _ s)
  | idleDrop dom => unfold exec execIdleDrop; exact .inr (lift_answers _ s)
  | pllLockLoss k => unfold exec execPllLockLoss; exact .inr (lift_answers _ s)
  | challengeRequest src => unfold exec execChallengeRequest; exact .inr (lift_answers _ s)
  | response src data => unfold exec execResponse; exact .inr (lift_answers _ s)
  | challengeExpiry => unfold exec execChallengeExpiry; exact .inr (lift_answers _ s)
  | quoteNonce src data => unfold exec execQuoteNonce; exact .inr (lift_answers _ s)
  | quoteReady => unfold exec execQuoteReady; exact .inr (lift_answers _ s)
  | getVersion => unfold exec execGetVersion spdm; exact .inr (lift_answers _ s)
  | getCapabilities => unfold exec execGetCapabilities spdm; exact .inr (lift_answers _ s)
  | negotiateAlgorithms algs => unfold exec execNegotiateAlgorithms spdm; exact .inr (lift_answers _ s)
  | getDigests => unfold exec execGetDigests spdmAfter spdm; exact .inr (lift_answers _ s)
  | getCertificate slot off len => unfold exec execGetCertificate spdmAfter spdm; exact .inr (lift_answers _ s)
  | challenge slot nonce => unfold exec execChallenge spdmAfter spdm; exact .inr (lift_answers _ s)
  | getMeasurements index nonce => unfold exec execGetMeasurements spdmAfter spdm; exact .inr (lift_answers _ s)
  | spdmUnsupported code => unfold exec execSpdmUnsupported spdm; exact .inr (lift_answers _ s)
  | updateErase src => unfold exec execUpdateErase; exact .inr (lift_answers _ s)
  | updateImageWrite src kind offset data => unfold exec execUpdateImageWrite; exact .inr (lift_answers _ s)
  | updateVerify src => unfold exec execUpdateVerify; exact .inr (lift_answers _ s)
  | updateCommit src => unfold exec execUpdateCommit; exact .inr (lift_answers _ s)
  | updateConfirm src => unfold exec execUpdateConfirm; exact .inr (lift_answers _ s)
  | updateAbandon src => unfold exec execUpdateAbandon; exact .inr (lift_answers _ s)
  | configBlobWrite src data => unfold exec execConfigBlobWrite; exact .inr (lift_answers _ s)
  | enrolWrite src data => unfold exec execEnrolWrite; exact .inr (lift_answers _ s)
  | overrideWrite src data => unfold exec execOverrideWrite; exact .inr (lift_answers _ s)
  | eventLogWrite die => unfold exec execEventLogWrite; exact .inr (lift_answers _ s)
  | eventsDropped die => unfold exec execEventsDropped; exact .inr (lift_answers _ s)
  | faultClear src => unfold exec execFaultClear; exact .inr (lift_answers _ s)
  | stageStall w => unfold exec execStageStall; exact .inr (lift_answers _ s)
  | ringmasterWatchdog target => unfold exec execRingmasterWatchdog; exact .inr (lift_answers _ s)
  | injectionArm src slot => unfold exec execInjectionArm; exact .inr (lift_answers _ s)
  | injectionDisarm src slot => unfold exec execInjectionDisarm; exact .inr (lift_answers _ s)
  | periodicInjection slot => unfold exec execPeriodicInjection; exact .inr (lift_answers _ s)
  | probeBlockReceived k sentAt => unfold exec execProbeBlockReceived; exact .inr (lift_answers _ s)
  | bar4Resize bytes => unfold exec execBar4Resize; exact .inr (lift_answers _ s)
  | directAccessRead fn offset len => unfold exec execDirectAccessRead; exact .inr (lift_answers _ s)
  | bar2Read fn offset len => unfold exec execBar2Read; exact .inr (lift_answers _ s)
  | jtagInstruction code =>
    simp only [exec, execJtagInstruction]
    split
    · exact .inl ⟨_, rfl⟩
    · exact .inr (.inr (liftPins_keeps _ s rfl))
  | serviceRepairCompletes ok => unfold exec execServiceRepairCompletes; exact .inr (lift_answers _ s)
  | updateCommandEnd flashOk => unfold exec execUpdateCommandEnd; exact .inr (lift_answers _ s)
  | prefixClearingEnds => unfold exec execPrefixClearingEnds; exact .inr (lift_answers _ s)
  | imageRequestedAgain member hod => unfold exec execImageRequestedAgain; exact .inr (lift_answers _ s)
  | _ => cases h

/-- Every command answers the end of a core, leaves a held state alone, or is refused; none faults. -/
theorem exec_answers (i : Instr) (s : State) :
    (∃ r, exec i s = .refused r) ∨ (s.held = true ∧ exec i s = .next s) ∨
      ∃ d c, exec i s = .next (finish d c s.pending) := by
  by_cases h : i.movesDev = false
  · rcases exec_stays i s h with hr | hn | ⟨c, hc⟩
    · exact .inl hr
    · exact .inr (.inl hn)
    · exact .inr (.inr ⟨_, c, hc⟩)
  · cases i with
    | powerDisable inputMv => exact .inr (.inr ⟨_, _, rfl⟩)
    | moduleResetAssert ns => exact .inr (.inr ⟨_, _, rfl⟩)
    | moduleResetRelease => exact .inr (.inr ⟨_, _, rfl⟩)
    | bootComplete found => unfold exec execBootComplete; exact .inr (liftDev_answers _ s)
    | thermTripShutdown => exact .inr (.inr ⟨_, _, rfl⟩)
    | requestRun src => unfold exec execRequestRun; exact .inr (liftDev_answers _ s)
    | requestDrain src => unfold exec execRequestDrain; exact .inr (liftDev_answers _ s)
    | drainComplete => unfold exec execDrainComplete; exact .inr (liftDev_answers _ s)
    | grantReceived leader stepR source rejoiner version => unfold exec execGrantReceived; exact .inr (liftDev_answers _ s)
    | rejoinPullDone => unfold exec execRejoinPullDone; exact .inr (liftDev_answers _ s)
    | dreq src tag dg => unfold exec execDreq; exact .inr (liftDev_answers _ s)
    | objectWrite src index sub offset data => unfold exec execObjectWrite; exact .inr (liftDev_answers _ s)
    | stagingWrite src index sub data => unfold exec execStagingWrite; exact .inr (liftDev_answers _ s)
    | aliasWrite src alias_ sub data => unfold exec execAliasWrite; exact .inr (liftDev_answers _ s)
    | mailboxDoorbell fn dg => unfold exec execMailboxDoorbell; exact .inr (liftDev_answers _ s)
    | kimalFrame port f => unfold exec execKimalFrame; exact .inr (liftDev_answers _ s)
    | stageShutsItselfDown => exact .inr (.inr ⟨_, _, rfl⟩)
    | internalResetHoldEnd => exact .inr (.inr ⟨_, _, rfl⟩)
    | _ => exact absurd rfl h

end Sys2Proof.Machine
end

