-- ==== Sys2Proof/Tests/Slice0.lean ====
section
/-! SUPPORT. Tests: the checks of well-formedness refuse an ill-formed command each, and every statement's hypotheses are
met together by a state and operands that a named theorem gives. The states are the reset state with the fields the
statement's hypotheses speak of. -/

open Sys2Proof Sys2Proof.Machine

namespace Sys2Proof.Tests

set_option Elab.async false

/-- The state after reset in another device state. -/
def at_ (dev : Dev) : State := { State.reset with dev := dev }

/-- A state with its core changed. -/
def withC (dev : Dev) (f : Core → Core) : State := { at_ dev with core := f State.reset.core }

/-- Bytes with another value at an offset. -/
def putAt (bs : List Byte) (o : Nat) (v : List Byte) : List Byte := bs.take o ++ v ++ bs.drop (o + v.length)

/-- A descriptor of a type that neither waits nor signals, with fields (offset, bytes, value). -/
def mkD (ty : Nat) (fs : List (Nat × Nat × Nat)) : Desc :=
  { queue := 0, head := 0, bytes := fs.foldl (fun bs p => putAt bs p.1 (toLE p.2.1 p.2.2))
      (putAt (List.replicate 128 0) 14 [BitVec.ofNat 8 12, BitVec.ofNat 8 ty]) }

/-- The device in RUN with one descriptor fetched. -/
def withD (x : Desc) (f : Core → Core := id) : State :=
  withC .run fun c => f { c with links := { c.links with descs := [(0, x)], nextDesc := 1 } }

/-- Partition P9, which plain accesses reach, lies at 2^32. -/
def mem9 (c : Core) : Core := (c.setObj 0x9109 1 (2 ^ 32)).setObj 0x9109 2 (2 ^ 32)

/-- Every command of a list is refused by the check of well-formedness. -/
def allIllFormed (is : List Instr) : Bool := is.all fun i => !i.wf

/-- A well-formed datagram, frame, message and flit, of which the ill-formed ones below are one field away. -/
def okDg : Datagram := {
  cmd := 1, mode := 0, address := 0, index := 0x1000, sub := 1, status := 0, offset := 0, ack := 0, data := [] }
def okFrame : KFrame := {
  etherType := 0x9C8A, vlan := false, size := 64, version := 1, ident := 0, datagrams := [okDg],
  fcsGood := true }
def okMsg : XMsg := {
  step := 0, hod := 0, first := 0, kind := 0, sender := 0, count := 0, esc := 0, contribs := 0, sent := 0,
  imageOff := 0, payload := List.replicate 204 0 }
def okFlit : Flit := {
  kind := 0, cls := 0, seq := 0, ack := 0, creditClass := 0, credits := 0, tkind := 0, dest := 0, src := 0, hops
  := 0, tag := 0, payload := [], fecFailed := false, crc := 0 }
def okLink : HostLink := { gen := 7, width := 16, flit := true, vfs := 0, masked := [] }
def okReport : StageReport := {
  inMv := 0, inMa := 0, inMw := 0, outMa := 0, tempMc := 0, status := 0, warning := false, fault := false }

/-- The terms the ill-formed ones start from are well formed. -/
theorem smoke_ok : okDg.wf = true ∧ okFrame.wf = true ∧ okMsg.wf = true ∧ okFlit.wf = true ∧ okLink.wf = true ∧
    (Instr.dreq 0 0 okDg).wf = true ∧ (Instr.stagePoll okReport).wf = true := by decide +kernel

theorem smoke_sources : allIllFormed [.requestRun (.vf 0), .requestDrain (.vf 16), .keystoneApply (.peer 256),
    .keystoneDiscard (.vf 16), .rejoinRequest (.vf 0), .repairExecute (.vf 16), .challengeRequest (.vf 16), .updateErase (.vf 0),
    .updateVerify (.vf 0), .updateCommit (.vf 0), .updateConfirm (.vf 0), .updateAbandon (.vf 0), .faultClear (.peer 256)] = true := by
  decide +kernel

theorem smoke_queues : allIllFormed [.bootComplete { lanes := List.replicate 9 0 },
    .bootComplete { times := List.replicate 12 0 }, .doorbell 16 0 0 0, .doorbell 0 512 1 0, .doorbell 0 0 4096 0, .doorbell 0 256 8 0,
    .doorbell 0 0 0 (2 ^ 64), .tallySet 16 0 0,
    .tallySet 0 4096 0, .tallySet 0 0 (2 ^ 64), .tallyAdd 16 0 0, .tallyAdd 0 4096 0, .tallyAdd 0 0 (2 ^ 64), .queueFetch 256 none,
    .queueFetch 0 (some [0]), .queueAbort (.vf 0) 0, .queueAbort .ring 256, .abortRemovalDone 256, .queueResume (.vf 0) 0,
    .queueResume .ring 256, .functionLevelReset 16, .bar4Access 0 0 none, .bar4Access 0 2 (some [0]), .copy 0 8, .bar2Read 16 0 4,
    .bar2Read 0 (2 ^ 32) 4, .bar2Read 0 0 2, .bar4Resize (2 ^ 64)] = true := by decide +kernel

theorem smoke_engines : allIllFormed [.weightChunkLoad 192, .laneGroupHandshake 192 0, .laneGroupHandshake 0 16, .bondRelease 192,
    .spanConvert 16, .attentionItem 16, .pageWaitTimeout 16, .remoteReadTimeout 16, .poolFreePage (.vf 0) 0 0,
    .poolFreePage .ring 4 0, .poolFreePage .ring 0 (2 ^ 32), .parkPagesAcknowledged 16384, .deferredContextOp 16384,
    .bankGrant 2] = true := by decide +kernel

theorem smoke_messages : allIllFormed (List.map .depositReceived [{ okMsg with step := 2 ^ 32 }, { okMsg with hod := 2 ^ 32 },
    { okMsg with first := 2 ^ 32 }, { okMsg with kind := 256 }, { okMsg with sender := 256 }, { okMsg with count := 256 },
    { okMsg with esc := 256 }, { okMsg with contribs := 65536 }, { okMsg with sent := 2 ^ 32 }, { okMsg with imageOff := 2 ^ 64 },
    { okMsg with payload := [] }]) = true ∧
    allIllFormed [.endReceived { okMsg with payload := [] }, .ringReceived { okMsg with payload := [] },
    .ringEndReceived { okMsg with payload := [] }, .imageReceived { okMsg with payload := [] }] = true := by decide +kernel

theorem smoke_exchange : allIllFormed [.hodDeadlineOpen 4096, .hodDeadlineFirst 4096, .ringHopTimeout (2 ^ 17),
    .xansReceived [{ tag := 2 ^ 17, code := 0 }], .xansReceived [{ tag := 0, code := 4 }], .resendTimer (2 ^ 17),
    .voteReceived (2 ^ 32) 0 false 0 0, .voteReceived 0 256 false 0 0, .voteReceived 0 0 false (2 ^ 64) 0,
    .voteReceived 0 0 false 0 (2 ^ 64), .commitReceived (2 ^ 32) [] [] [] 0, .commitReceived 0 [256] [] [] 0,
    .commitReceived 0 [] [256] [] 0, .commitReceived 0 [] [] [256] 0, .commitReceived 0 [] [] [] (2 ^ 32), .abandonReceived (2 ^ 32) [],
    .abandonReceived 0 [256], .fpReceived (2 ^ 32) 0 0 0, .fpReceived 0 256 0 0, .fpReceived 0 0 (2 ^ 64) 0, .fpReceived 0 0 0 (2 ^ 32),
    .closeReceived (2 ^ 32) 0 [] false, .closeReceived 0 (2 ^ 64) [] false, .closeReceived 0 0 [256] false, .rejoinReqReceived 256 0,
    .rejoinReqReceived 0 (2 ^ 32), .grantReceived 256 0 0 0 0, .grantReceived 0 (2 ^ 32) 0 0 0, .grantReceived 0 0 256 0 0,
    .grantReceived 0 0 0 256 0, .grantReceived 0 0 0 0 (2 ^ 32), .doneReceived 256, .imageRequestedAgain 256 0, .imageRequestedAgain 0 4096] = true := by decide +kernel

theorem smoke_memory_and_links : allIllFormed [.hbmSlot 512, .wcbAgeWriteback 8 0, .hbmPatrolScrub (2 ^ 64) 1, .hbmPatrolScrub 0 33,
    .tileStoreScrub (2 ^ 64) 0, .tileStoreScrub 0 (2 ^ 64), .portTrainingStart 6, .trainingComplete 6 0 0 0, .trainingComplete 0 256 0 0,
    .trainingComplete 0 0 0 256, .trainingRetry 6, .lossOfSignal 6, .flitBoundary 6, .nakReceived 6 0 0 0, .nakReceived 0 4096 0 0,
    .nakReceived 0 0 4 0, .nakReceived 0 0 0 1024,
    .linkFlitReceived 6 0 0 0, .linkFlitReceived 0 4096 0 0, .linkFlitReceived 0 0 4 0, .linkFlitReceived 0 0 0 1024, .recoverDone 6,
    .recoverTimeout 6, .txnFlitReceived 6 okFlit] = true ∧
    allIllFormed (List.map (Instr.txnFlitReceived 0) [{ okFlit with kind := 16 }, { okFlit with cls := 4 }, { okFlit with seq := 4096 },
    { okFlit with ack := 4096 }, { okFlit with creditClass := 4 }, { okFlit with credits := 1024 }, { okFlit with tkind := 64 },
    { okFlit with dest := 256 }, { okFlit with src := 256 }, { okFlit with hops := 8 }, { okFlit with tag := 2 ^ 17 },
    { okFlit with payload := List.replicate 241 0 }, { okFlit with crc := 2 ^ 32 }]) = true := by decide +kernel

theorem smoke_transactions : allIllFormed [.rd 256 0 0 1, .rd 0 (2 ^ 17) 0 1, .rd 0 0 (2 ^ 64) 1, .rd 0 0 0 (2 ^ 32), .rdData (2 ^ 17) [],
    .rdErr (2 ^ 17) 0, .rdErr 0 256, .wr 256 0 0 1 [], .wr 0 (2 ^ 17) 0 1 [], .wr 0 0 (2 ^ 64) 1 [], .wr 0 0 0 (2 ^ 32) [],
    .wr 0 0 0 1 (List.replicate 225 0), .wrData 256 0 [], .wrData 0 (2 ^ 17) [], .wrData 0 0 (List.replicate 241 0), .wrAck (2 ^ 17) 0,
    .wrAck 0 256, .dreq 256 0 okDg, .dreq 0 (2 ^ 17) okDg, .dans (2 ^ 17) okDg, .completionTimeout (2 ^ 17)] = true ∧
    allIllFormed (List.map (Instr.dans 0) [{ okDg with cmd := 256 }, { okDg with mode := 256 }, { okDg with address := 2 ^ 32 },
    { okDg with index := 65536 }, { okDg with sub := 256 }, { okDg with status := 256 }, { okDg with offset := 2 ^ 32 },
    { okDg with ack := 2 ^ 64 }, { okDg with data := List.replicate 4097 0 }]) = true := by decide +kernel

theorem smoke_dictionary : allIllFormed [.objectWrite (.vf 0) 0 0 0 [], .objectWrite .ring 65536 0 0 [], .objectWrite .ring 0 256 0 [],
    .objectWrite .ring 0 0 (2 ^ 32) [], .objectWrite .ring 0 0 0 (List.replicate 4097 0), .stagingWrite (.vf 0) 0 0 [],
    .stagingWrite .ring 65536 0 [], .stagingWrite .ring 0 256 [], .stagingWrite .ring 0 0 (List.replicate 4097 0), .aliasWrite (.vf 0) 0xD000 0 [],
    .aliasWrite .ring 0xCFFF 0 [], .aliasWrite .ring 0xE000 0 [], .aliasWrite .ring 0xD000 256 [],
    .aliasWrite .ring 0xD000 0 (List.replicate 9 0), .mailboxDoorbell 16 okDg, .mailboxDoorbell 0 { okDg with cmd := 256 },
    .kimalFrame 2 okFrame, .kimalFrame 0 { okFrame with etherType := 65536 }, .kimalFrame 0 { okFrame with version := 256 },
    .kimalFrame 0 { okFrame with size := 65536 }, .kimalFrame 0 { okFrame with datagrams := List.replicate 256 okDg },
    .kimalFrame 0 { okFrame with ident := 65536 }, .kimalFrame 0 { okFrame with datagrams := [{ okDg with sub := 256 }] }, .kimalLinkDown 2,
    .kimalLinkUp 2, .delayProbe 2 none none, .timeSet (.vf 0) 0, .timeSet .ring (2 ^ 64), .probeBlockReceived 2 0,
    .probeBlockReceived 0 (2 ^ 64), .directAccessRead 0 (2 ^ 32) 4, .directAccessRead 0 0 2, .directAccessRead 16 0 4] = true := by decide +kernel

theorem smoke_power_and_security : allIllFormed [.stagePoll { okReport with status := 65536 }, .governorCycle [] (List.replicate 47 0),
    .governorCycle (List.replicate 6 0) [], .temperatureRead [] [], .temperatureRead (List.replicate 128 0) [0], .railMonitorSample 20 0, .idleDrop 6, .pllLockLoss 39,
    .response (.vf 0) [], .response .ring (List.replicate 4097 0), .quoteNonce (.vf 0) [], .quoteNonce .ring (List.replicate 4097 0),
    .getCertificate 256 0 0, .getCertificate 0 65536 0, .getCertificate 0 0 65536, .challenge 256 (List.replicate 32 0), .challenge 0 [],
    .getMeasurements 256 (List.replicate 32 0), .getMeasurements 0 [], .spdmUnsupported 256, .updateImageWrite (.vf 0) 0 0 [],
    .updateImageWrite .ring 5 0 [], .updateImageWrite .ring 0 (2 ^ 32) [], .updateImageWrite .ring 0 0 (List.replicate 4097 0),
    .configBlobWrite (.vf 0) [], .enrolWrite (.vf 0) [], .overrideWrite (.vf 0) [], .jtagInstruction 256] = true := by decide +kernel

theorem smoke_link : allIllFormed (List.map .perstDeassert [{ okLink with gen := 0 }, { okLink with gen := 8 },
    { okLink with width := 2 }, { okLink with flit := false }, { okLink with vfs := 16 }, { okLink with masked := [(16, 0)] },
    { okLink with masked := [(0, 128)] }]) = true := by decide +kernel

theorem smoke_errors : allIllFormed [.eventLogWrite 2, .eventsDropped 2, .stageStall 16384, .ringmasterWatchdog 3, .injectionArm (.vf 0) 0,
    .injectionArm .ring 8, .injectionDisarm (.vf 0) 0, .injectionDisarm .ring 8, .periodicInjection 8] = true := by decide +kernel

/-- No word spells a command (98_reader.md: no row has bits). -/
theorem test_decode_none : decodeTableWord 32 0x12345678 = none := by decide

/-- Only partition P9, at 2^32 of size 2^32, is placed beside P0. -/
def only9 (c : Core) : Bool := (List.range 16).all (fun p => p == 0 || p == 9 || c.partSize p == 0) &&
  c.partBase 9 == 2 ^ 32 && c.partSize 9 == 2 ^ 32

theorem partOf_only9 (c : Core) (h : only9 c = true) (a : Nat) (h1 : 2 ^ 32 ≤ a) (h2 : a < 2 ^ 33) :
    c.partOf a = some 9 := by
  simp only [only9, Bool.and_eq_true, List.all_eq_true, Bool.or_eq_true, beq_iff_eq, List.mem_range] at h
  obtain ⟨⟨h, hb⟩, hs⟩ := h
  have h0 : c.partBase 0 = 0 ∧ c.partSize 0 = 2 ^ 32 := ⟨rfl, rfl⟩
  have hn : ∀ p < 16, p ≠ 9 → ¬(c.partBase p ≤ a ∧ a < c.partBase p + c.partSize p) := by
    intro p hp h9
    rcases h p hp with (rfl | rfl) | h
    · omega
    · exact absurd rfl h9
    · omega
  have e : c.partBase 9 ≤ a ∧ a < c.partBase 9 + c.partSize 9 := by omega
  have : List.range 16 = [0, 1, 2, 3, 4, 5, 6, 7, 8, 9, 10, 11, 12, 13, 14, 15] := rfl
  simp only [Core.partOf, this, List.find?_cons]
  have f : ∀ p < 16, p ≠ 9 → (decide (c.partBase p ≤ a) && decide (a < c.partBase p + c.partSize p)) = false := by
    intro p hp h9
    simpa using hn p hp h9
  simp only [f 0 (by decide) (by decide), f 1 (by decide) (by decide), f 2 (by decide) (by decide),
    f 3 (by decide) (by decide), f 4 (by decide) (by decide), f 5 (by decide) (by decide), f 6 (by decide) (by decide),
    f 7 (by decide) (by decide), f 8 (by decide) (by decide)]
  simp [e.1, e.2]

theorem served_only9 (c : Core) (h : only9 c = true) (a n : Nat) (h1 : 2 ^ 32 ≤ a) (h2 : a + n ≤ 2 ^ 33) :
    c.served a n := by
  have hb : c.partBase 9 = 2 ^ 32 ∧ c.partSize 9 = 2 ^ 32 := by
    simp only [only9, Bool.and_eq_true, beq_iff_eq] at h; exact ⟨h.1.2, h.2⟩
  have hh : 2 ^ 33 ≤ c.hbmBytes := by unfold Core.hbmBytes; split <;> decide
  intro b m hb1 hb2
  have hp : c.plainBad b m = none := by
    unfold Core.plainBad Core.plainWalk
    split
    · rfl
    · have ht : b < tsBase := by show b < 0x010000000000; omega
      have h3 : ¬ c.hbmBytes ≤ b := by omega
      simp only [Core.plainAt, ht, if_true, partOf_only9 c h b (by omega) (by omega), if_neg h3]
      simp only [show (9 : Nat) ≠ 0 by decide, if_false, hb.1, hb.2]
      unfold Core.plainWalk
      have : b + m ≤ min (2 ^ 32 + 2 ^ 32) c.hbmBytes := by omega
      rw [if_pos this]
  have h4 : b < palBit := by show b < 2 ^ 64; omega
  have h5 : ¬ 2 ^ 63 ≤ b := by omega
  simp only [Core.lbad, h4, if_true, if_neg h5, hp]

/-- No escalation entry names an event (R452). -/
theorem plain_of (c : Core) (h : c.dict.objs.all (fun p => !(0xB20001 ≤ p.1 && p.1 ≤ 0xB23F01)) = true) :
    c.plainEvents := by
  intro code
  have : c.dict.objs.find? (fun p => 0xB20001 ≤ p.1 && p.1 ≤ 0xB23F01 && p.1 % 256 == 1 && p.2 == code) = none := by
    rw [List.find?_eq_none]
    intro p hp
    have := List.all_eq_true.mp h p hp
    revert this
    cases (decide (0xB20001 ≤ p.1) && decide (p.1 ≤ 0xB23F01)) <;> simp
  simp only [Core.escClass, this]

/-- The state that a command leaves. -/
def go (r : Host.Outcome State Fault Refusal) : State := match r with
  | .next t => t
  | _ => State.reset

/-! ### The step, reset, requests (witnesses of their hypotheses, clause by clause) -/

theorem test_step_runs : ∃ t, step { State.reset with pending := [.resendTimer 0] } = .next t ∧ t.pending = [] := ⟨_, rfl, rfl⟩

theorem test_idle_counts : (at_ .boot).pending = [] ∧ (at_ .boot).dev ≠ .off ∧ (at_ .boot).core.dict.steer = 0 ∧
    ∃ t, step (at_ .boot) = .next t ∧ t.core.now = (at_ .boot).core.now + 1 := by
  refine ⟨by decide, by decide, by decide, _, rfl, by decide⟩

theorem test_slew_forward : ({ State.reset.core with dict := { steer := 10000 } } : Core).dict.slewAcc = 0 := by decide

theorem test_slew_backward : ({ State.reset.core with dict := { steer := -1 } } : Core).dict.steer < 0 := by decide

theorem test_run_begins : (at_ .ready).settled ∧ ∃ t, exec (.requestRun (.pf false)) (at_ .ready) = .next t ∧
    t.dev = .run := ⟨rfl, _, rfl, by decide⟩

theorem test_drain_ends : (at_ .drain).core.drained = true ∧ ∃ t, exec .drainComplete (at_ .drain) = .next t ∧
    t.dev = .ready := ⟨by decide, _, rfl, by decide⟩

/-- Eight failed lanes of a link are replaced, nine are not (R327). -/
def spared : BootFinds := { lanes := [8], arrays := [3, 127], engines := [15] }

/-- The module's boot with what its stacks' training finds. -/
def bootOf (f : BootFinds) : Core :=
  ({ State.reset.core with mem := { State.reset.core.mem with lanes := f.lanes } } : Core).runBoot f.romsAgree

theorem test_boot_ends : (bootOf spared).faultReq = none ∧ (bootOf spared).sec.bootFail = 0 ∧
    untrained spared = [] ∧ (go (exec (.bootComplete spared) (at_ .boot))).dev = .ready := by decide +kernel

theorem test_boot_trains : (bootOf { lanes := [0, 9] }).faultReq = none ∧ (bootOf { lanes := [0, 9] }).sec.bootFail = 0 ∧
    untrained { lanes := [0, 9] } = [1] ∧
    (go (exec (.bootComplete { lanes := [0, 9] }) (at_ .boot))).dev = .faultStop := by decide +kernel

theorem test_boot_plain : (bootOf { lanes := [0, 9] }).plainEvents := plain_of _ (by decide +kernel)

/-- A module that holds no images. -/
def blank : State := withC .boot fun c => { c with module_ := { c.module_ with shipped0 := false, shipped1 := false } }

theorem test_boot_fails : (blank.core.runBoot true).faultReq = none ∧ (blank.core.runBoot true).sec.bootFail ≠ 0 ∧
    (bootOf { romsAgree := false }).faultReq = none ∧ (bootOf { romsAgree := false }).sec.bootFail ≠ 0 := by
  decide +kernel

/-- A member in FAULT_STOP that has cleared its fault and asked to rejoin. -/
def asked (dev : Dev) : State := withC dev fun c =>
  { c with log := { c.log with cleared := true }, xch := { c.xch with asked := true } }

theorem test_rejoin_from_fault : (asked .faultStop).settled ∧
    ∃ t, exec (.grantReceived 3 5 1 0 7) (asked .faultStop) = .next t ∧ t.dev = .rejoin := ⟨rfl, _, rfl, by decide⟩

theorem test_rejoin_from_ready : ∃ t, exec (.grantReceived 3 5 1 0 7) (asked .ready) = .next t ∧ t.dev = .rejoin :=
  ⟨_, rfl, by decide⟩

/-- VENDOR unlock is open. -/
def vendor : State := withC .run fun c => { c with sec := { c.sec with level := 3 } }

theorem test_vendor_refused : vendor.core.sec.level = 3 ∧ exec (.jtagInstruction 3) vendor = .refused .vendorJtag ∧
    (go (exec (.objectWrite .ring 0xF000 0 0 []) vendor)).core.dict.lastStatus = stNoObject := ⟨rfl, rfl, by decide +kernel⟩

/-- With MOD_RST_N low the module is held, FAULT_STOP or not, and so it is in OFF (R469). -/
theorem test_held : ({ at_ .off with core := State.reset.core.setPins fun p => { p with pwrGood := false } } : State).held = true ∧
    (withC .faultStop fun c => c.setPins fun p => { p with modRstN := false }).held = true ∧
    (∀ dev ∈ [Dev.boot, .standby, .ready, .run, .drain, .faultStop, .rejoin], (at_ dev).held = false) := by decide +kernel
/-! ### Pins, power, boot -/

/-- Pins with the device off. -/
def pinned (p : Pins) : State := withC .off fun c => { c with pins := p }

theorem test_rails_by_input : (pinned { pwrEn := true, inputOk := false, pwrGood := false }).core.pins.ready = true ∧
    (pinned { pwrEn := true, inputOk := false, pwrGood := false }).dev = .off := by decide

theorem test_rails_by_enable : (pinned { inputOk := true, pwrGood := false }).core.pins.ready = true ∧
    (pinned { inputOk := true, pwrGood := false }).core.pins.inputOk = true := by decide

theorem test_rails_wait : (pinned { inputOk := false }).core.pins.inputOk = false := by decide

theorem test_off_time_ends : (pinned { offTime := true, inputOk := true, pwrGood := false }).core.pins.thermTrip = false ∧
    (pinned { offTime := true, inputOk := true, pwrGood := false, pwrEn := true }).core.pins.pwrEn = true ∧
    (pinned { offTime := true, inputOk := true, pwrGood := false, pwrEn := false }).core.pins.pwrEn = false := by decide

theorem test_power_down : (37999 : Nat) < 38000 ∧
    (withC .run fun c => { c with pins := { c.pins with thermTrip := true, pwrGood := true } }).core.pins.thermTrip = true :=
  by decide

theorem test_reset_asserted : (999 : Nat) < 1000 ∧ (10000 : Nat) ≤ 10000 ∧ (at_ .standby).dev = .standby ∧
    (at_ .run).dev ≠ .standby ∧ (at_ .run).dev ≠ .faultStop ∧ (at_ .run).dev ≠ .off := by decide

theorem test_reset_released : (withC .off fun c => { c with
      pins := { c.pins with pwrGood := true, goodAt := 0 }, now := 1000000 }).core.pins.goodAt + 1000000 ≤ 1000000 ∧
    (withC .standby fun c => { c with pins := { c.pins with modRstN := false } }).core.pins.modRstN = false ∧
    (withC .off fun c => { c with
      pins := { c.pins with pwrGood := true, hold := true, modRstN := true } }).core.pins.hold = true := by decide

theorem test_no_host_ring : (at_ .run).dev ≠ .off ∧
    ∀ p ∈ (at_ .run).core.links.queues, (at_ .run).core.hostRing p.1 = false := by decide

theorem test_jtag : (at_ .run).core.sec.level ≠ 3 ∧ vendor.core.sec.level = 3 := by decide

/-! ### Requests, doorbells, tallies, BAR4 -/

theorem test_unpoisoned : (at_ .run).core.unpoisoned ∧ (at_ .ready).core.unpoisoned ∧ (at_ .rejoin).core.unpoisoned := by
  decide

theorem test_requests : (at_ .ready).core.reach .ready (.pf false) 0x1011 0 true = true ∧
    (at_ .run).core.reach .run (.pf false) 0x1011 0 true = true ∧ (at_ .boot).dev ≠ .ready := by decide

/-- RUN and DRAIN are asked for in a command that has met a FAULT_STOP (R8). -/
theorem test_request_meets_fault : ∃ c : Core, c.faultReq ≠ none ∧ c.sysPoison sysRingmaster = none ∧
    (requestRun (.pf false) .ready c).1 = .ready :=
  ⟨{ State.reset.core with faultReq := some ({ time := 0, code := 1, source := 0, step := 0, fmt := 0, inj := false, esc := false, cls := 3, detail := 0, tag := 0 }, 0) }, by decide, by decide, by decide⟩

/-- RUN with queue 0 RUNNING, 64 slots in device memory at address 0. -/
def queued (tail head : Nat) : State := withC .run fun c =>
  ((c.setObj 0xA100 2 64).setObj 0xA100 3 1).setQueue 0 { state := 1, head := head, tail := tail }

theorem test_doorbell : (queued 0 0).core.ownsQueue 0 0 = true ∧
    ((queued 0 0).core.tlp 0).obj 0xA100 2 = 64 ∧ (((queued 0 0).core.tlp 0).queue 0).state = 1 ∧
    (64 + 2 ^ 32 - 0) % 2 ^ 32 ≤ 64 ∧ ¬((65 + 2 ^ 32 - 0) % 2 ^ 32 ≤ 64) := by decide

theorem test_tally_reach : (at_ .run).core.reachTally 0 4095 = true ∧ (at_ .run).core.reachTally 1 0 = false := by decide

theorem test_queue_reads : (at_ .run).core.ownsQueue 0 255 = true ∧ (at_ .run).core.ownsQueue 1 255 = false := by decide

theorem test_bar4_sizes : (30 : Nat) ≤ 30 ∧ (36 : Nat) ≤ 36 ∧ ∀ j, 30 ≤ j → j ≤ 36 → (0 : Nat) ≠ 2 ^ j :=
  ⟨by decide, by decide, fun _ _ _ => by positivity⟩

/-- In BOOT the host is told to retry (R431). -/
theorem test_boot_retries : (at_ .boot).awake ∧ (go (exec (.bar4Resize (2 ^ 30)) (at_ .boot))).core.links.retries = 1 ∧
    (go (exec (.functionLevelReset 0) (at_ .boot))).core.links.retries = 1 := by decide

/-- A window of BAR4 onto P9. -/
def windowed : State := withC .ready fun c =>
  { ((mem9 c).setObj 0xA010 2 0xFF).setObj 0xA010 1 (2 ^ 32) with links := { c.links with bar4Bytes := 2 ^ 34 } }

theorem test_bar4_access : apertureServed windowed.dev = true ∧ windowed.core.inj = [] ∧
    0 / (windowed.core.links.bar4Bytes / 16) < 16 ∧ windowed.core.obj 0xA010 1 % (windowed.core.links.bar4Bytes / 16) = 0 ∧
    windowed.core.obj 0xA010 2 = 0xFF ∧ windowed.core.plainBad (2 ^ 32) 8 = none ∧
    (windowed.core.touch (2 ^ 32) 8).poisoned (2 ^ 32) 8 = false ∧ (windowed.core.touch (2 ^ 32) 8).faultReq = none := by
  decide

/-! ### Queues, copies, completion -/

/-- Queue 0 in a state. -/
def queueIn (st : Nat) : State := withC .run fun c => c.setQueue 0 { state := st, head := 3, tail := 5 }

theorem test_queue_abort : (queueIn 1).core.reach .run (.pf false) 0xA100 9 true = true ∧
    ((queueIn 1).core.queue 0).state = 1 ∧ (queueIn 1).core.escClass 0xA007 ≠ 3 ∧
    ∃ t, exec (.queueAbort (.pf false) 0) (queueIn 1) = .next t ∧ (t.core.queue 0).state = 3 :=
  ⟨by decide, by decide, by decide, _, rfl, by decide⟩

theorem test_abort_removal : ((queueIn 3).core.queue 0).state = 3 ∧ (queueIn 3).core.escClass 0xA006 ≠ 3 ∧
    ∃ t, exec (.abortRemovalDone 0) (queueIn 3) = .next t ∧ (t.core.queue 0).head = 5 ∧ (t.core.queue 0).state = 2 :=
  ⟨by decide, by decide, _, rfl, by decide⟩

theorem test_queue_resume : ((queueIn 2).core.queue 0).state = 2 ∧
    ∃ t, exec (.queueResume (.pf false) 0) (queueIn 2) = .next t ∧ (t.core.queue 0).state = 1 :=
  ⟨by decide, _, rfl, by decide⟩

theorem test_function_reset : (queueIn 1).core.queueFn 0 = 0 ∧
    ∃ t, exec (.functionLevelReset 0) (queueIn 1) = .next t ∧ (t.core.queue 0).state = 3 := ⟨by decide, _, rfl, by decide⟩

/-- Queue 0 runs with its ring in host memory. -/
def hostQueue : State := withC .run fun c => ((c.setObj 0xA100 3 3).setObj 0xA100 2 64).setQueue 0
  { state := 1, head := 3, tail := 5 }

theorem test_link_down : hostQueue.core.hostRing 0 = true ∧ ∃ t, exec .pcieLinkDown hostQueue = .next t ∧
    (t.core.queue 0).state = 2 ∧ (t.core.queue 0).head = 3 := ⟨by decide, _, rfl, by decide⟩

/-- Queue 0 runs with its ring in P9, and the slot at its head holds a tally op. -/
def devQueue : State := withC .run fun c =>
  let c := ((((mem9 c).setObj 0xA100 1 (2 ^ 32)).setObj 0xA100 3 1).setObj 0xA100 2 64).setQueue 0 { state := 1, head := 0, tail := 1 }
  { c with mem := { c.mem with mem := [(2 ^ 32 + 14, 12), (2 ^ 32 + 15, 1)] } }

theorem test_fetch_device : devQueue.core.fetchTurn 0 = true ∧ bitAt (devQueue.core.obj 0xA100 3) 1 = false ∧ devQueue.core.plainBad (2 ^ 32) 128 = none ∧
    (devQueue.core.touch (2 ^ 32) 128).faultReq = none ∧ (devQueue.core.touch (2 ^ 32) 128).poisoned (2 ^ 32) 128 = false ∧
    ({ queue := 0, head := 0, bytes := bytesAt ((devQueue.core.touch (2 ^ 32) 128).bytes (2 ^ 32) 128) 0 128 } : Desc).pendingSet
      = some 0 ∧ (devQueue.core.touch (2 ^ 32) 128).pendingIn 0 < 64 := by decide

theorem test_fetch_host : hostQueue.core.fetchTurn 0 = true ∧ bitAt (hostQueue.core.obj 0xA100 3) 1 = true ∧
    ({ queue := 0, head := 3, bytes := bytesAt (mkD 1 []).bytes 0 128 } : Desc).pendingSet = some 0 ∧
    hostQueue.core.pendingIn 0 < 64 ∧ ∃ t, exec (.queueFetch 0 (some (mkD 1 []).bytes)) hostQueue = .next t ∧
      (t.core.queue 0).head = 4 ∧ t.core.links.lastFetch = 0 := ⟨by decide, by decide, by decide, by decide, _, rfl, by decide, by decide⟩

/-- Queues 0 and 2 have work and queue 0 was taken last: queue 2 is next. -/
theorem test_fetch_turn : (withC .run fun _ =>
    (hostQueue.core.noteFetch 0).setQueue 2 { state := 1, head := 0, tail := 1 }).core.fetchTurn 0 = false ∧
    (withC .run fun _ => (hostQueue.core.noteFetch 0).setQueue 2 { state := 1, head := 0, tail := 1 }).core.fetchTurn 2 = true := by
  decide

/-- Queue 0 with the slots from its head to its tail read, and this many descriptors in the pending set of the first. -/
def slotsRead (n : Nat) : State := withC .run fun _ =>
  let c := hostQueue.core.setQueue 0 { state := 1, head := 3, tail := 4, fetched := [some (mkD 1 []).bytes] }
  { c with links := { c.links with descs := (List.range n).map fun d => (d, mkD 1 []), nextDesc := n } }

theorem test_fetch_read_before : ((slotsRead 63).core.queue 0).canFetch = false ∧ (slotsRead 63).core.fetchTurn 0 = true ∧
    (slotsRead 63).core.pendingIn 0 < 64 ∧ 64 ≤ (slotsRead 64).core.pendingIn 0 ∧
    ((go (exec (.queueFetch 0 none) (slotsRead 63))).core.queue 0).head = 4 ∧
    ((go (exec (.queueFetch 0 none) (slotsRead 64))).core.queue 0).head = 3 := by decide +kernel

theorem test_fetch_host_memory : (withC .run fun _ => { hostQueue.core with mem := { hostQueue.core.mem with
      host := [(0, [(384 + 14, 12), (384 + 15, 1)])] } }).core.hostRead 0 384 16 =
    [0, 0, 0, 0, 0, 0, 0, 0, 0, 0, 0, 0, 0, 0, 12, 1] := by decide

/-- A tally op at an address. -/
def tallyAt (a : Nat) : Desc := mkD 1 [(16, 8, a), (24, 8, 7)]

theorem test_tally_op_signal : (withD (tallyAt 0)).issues 0 (tallyAt 0) 1 := ⟨rfl, by decide, by decide⟩

theorem test_tally_op_host : (withD (tallyAt (2 ^ 63))).core.canIssue .run 0 (tallyAt (2 ^ 63)) [1] = true ∧
    ∃ t, exec (.tallyOp 0) (withD (tallyAt (2 ^ 63))) = .next t ∧
      KMap.getD t.core.mem.host 0 [] = [(0, 7)] := ⟨by decide, _, rfl, by decide⟩

theorem test_tally_op_device : (withD (tallyAt (2 ^ 32)) mem9).core.plainBad (2 ^ 32) 8 = none ∧
    ∃ t, exec (.tallyOp 0) (withD (tallyAt (2 ^ 32)) mem9) = .next t ∧ t.core.mem.mem = [(2 ^ 32, 7)] :=
  ⟨by decide, _, rfl, by decide +kernel⟩

/-- A copy of 8 bytes. -/
def copyOf (src dst loc : Nat) : Desc := mkD 2 [(16, 8, src), (24, 8, dst), (32, 8, 8), (40, 1, loc), (41, 1, loc)]

theorem test_copy_host : (withD (copyOf 0 8 1)).core.engineIdle 7 = true ∧
    (withD (copyOf 0 8 1)).core.canIssue .run 0 (copyOf 0 8 1) [2] = true ∧
    (bytesAt (copyOf 0 8 1).bytes 43 21).all (· == 0) = true ∧ ∃ t, exec (.copy 0 7) (withD (copyOf 0 8 1)
      fun c => { c with mem := { c.mem with host := [(0, [(1, 9)])] } }) = .next t ∧
      KMap.getD t.core.mem.host 0 [] = [(1, 9), (9, 9)] := ⟨by decide, by decide, by decide, _, rfl, by decide⟩

theorem test_copy_device : (withD (copyOf (2 ^ 32) (2 ^ 32 + 4088) 0) mem9).core.plainBad (2 ^ 32) 8 = none ∧
    (withD (copyOf (2 ^ 32) (2 ^ 32 + 4088) 0) mem9).core.plainBad (2 ^ 32 + 4088) 8 = none ∧
    ((2 ^ 32 + 4088) % 4096 + 8 ≤ 4096) ∧ ∃ t, exec (.copy 0 0) (withD (copyOf (2 ^ 32) (2 ^ 32 + 4088) 0)
      fun c => { mem9 c with mem := { c.mem with mem := [(2 ^ 32 + 7, 5)] } }) = .next t ∧
      t.core.mem.mem = [(2 ^ 32 + 7, 5), (2 ^ 32 + 4095, 5)] :=
  ⟨by decide, by decide, by decide, _, rfl, by decide +kernel⟩

/-- A descriptor whose work is done, with a signal of 2 on tally 5. -/
def doneD : Desc := { queue := 0, head := 0, issued := true, done := true
                      bytes := putAt (List.replicate 128 0) 0 ([2, 0, 0, 0, 0, 0, 0, 0, 5, 0, 0, 0, 0, 0, 4, 1]) }

theorem test_completes : (∀ sp ∈ (withD doneD).core.fwd.spans, sp.d ≠ 0) ∧ (withD doneD).core.depositsWait 0 = false ∧
    (withD doneD).core.acknowledged (.desc 0) = true ∧
    ((withD doneD).core.lastWrites 0 doneD).acknowledged (.desc 0) = true ∧ ∃ t,
    exec (.descriptorComplete 0) (withD doneD) = .next t ∧ t.core.tally 5 = 2 ∧ t.core.desc? 0 = none :=
  ⟨by decide, by decide, by decide, by decide, _, rfl, by decide⟩

/-- A descriptor whose one open header lies in a partition without a buffer entry: its last write waits (R316). -/
def headD : Desc := { doneD with hdrs := [2 ^ 32] }

theorem test_last_writes_wait :
    let s := withD headD fun c => (mem9 c).setObj 0x9109 7 0
    s.core.acknowledged (.desc 0) = true ∧ (s.core.lastWrites 0 headD).acknowledged (.desc 0) = false := by decide +kernel

theorem test_signalled_already : (withD { doneD with signalled := true }).core.desc? 0 = some { doneD with signalled := true } ∧
    ∃ t, exec (.descriptorComplete 0) (withD { doneD with signalled := true }) = .next t ∧ t.core.tally 5 = 0 :=
  ⟨rfl, _, rfl, by decide⟩

theorem test_rejects : (withD doneD).core.desc? 0 = some doneD ∧ doneD.wrote = [] ∧
    ((withD doneD).core.reject 0 0xA011 0 0 0).desc? 0 = none := by decide

/-! ### Forward tiles -/

/-- A forward product of one token over 32 columns, BF16 to FP32. -/
def fwdD (ty : Nat := 0x20) : Desc := mkD ty [(27, 1, 8), (28, 1, 8), (29, 1, 0x0A), (32, 1, 0x10), (33, 1, 0x80),
  (42, 2, 1), (44, 4, 32), (48, 4, 1), (52, 4, 0x7FFFFF), (56, 8, 2 ^ 32), (72, 8, 2 ^ 32 + 4096), (88, 8, 2 ^ 32 + 8192)]

/-- Its activations are 1, 2 and 0.5, then zeros. -/
def fwdS (ty : Nat := 0x20) : State := withD (fwdD ty) fun c =>
  { mem9 c with mem := { c.mem with mem := [(2 ^ 32, 0x80), (2 ^ 32 + 1, 0x3F), (2 ^ 32 + 3, 0x40), (2 ^ 32 + 5, 0x3F)] } }


theorem test_forward : (fwdS.core.canIssue .run 0 fwdD [0x20] && fwdS.core.headerOk fwdD && fwdS.core.groupFree 0 0 &&
    (firstBad (fwdS.core.forwardChecks fwdD false)).isNone) = true := by decide +kernel
theorem test_forward_fields : (blkOfCode (fwdD.f 27 1)).isSome = false ∧ (blkOfCode (fwdD.f 29 1)).isSome = false ∧ fwdD.f 33 1 % 16 = 0 ∧
    fwdD.f 120 8 = 0 ∧ fwdD.f 30 1 = 0 ∧ fld (fwdD.f 32 1) 5 4 = 1 := by decide
theorem test_gated : ((fwdS 0x21).core.canIssue .run 0 (fwdD 0x21) [0x21] && (fwdS 0x21).core.headerOk (fwdD 0x21) && (fwdS 0x21).core.groupFree 0 0 &&
   (firstBad ((fwdS 0x21).core.forwardChecks (fwdD 0x21) true)).isNone) = true := by decide +kernel

/-- The product has started. -/
def fwdT : State := go (exec (.forwardProduct 0) fwdS)

theorem test_forward_starts : fwdT.core.faultReq = none ∧ KMap.get? fwdT.core.fwd.active 0 = some 0 ∧
    ((fwdT.core.desc? 0).map (·.issued)) = some true := by decide +kernel

/-- The round a tile wants and the slot it would take, where its chunk is in no slot, its memory is served and what it loads
is good. -/
def mayLoad (s : State) (tile : Nat) : Option (Nat × Nat) := match s.core.tileRun tile with
  | none => none
  | some (r, ci, pos, y) => match s.core.desc? r.d, y.wants (((s.core.desc? r.d).map fun x => r.rounds x ci).getD 0), y.victim with
    | some x, some n, some k =>
      let q : ChunkReq := { quant := r.quant x, lat := r.actLat, f := r.wFmt x, wa := r.wAddrs.1, ws := r.wAddrs.2,
                            col := r.colBlk ci n, pos := pos }
      if (y.slots.all fun p => !p.2.is q.wa (x.f 104 8) q.col pos) &&
          ((chunkRanges x q.quant q.f q.wa q.ws q.col pos).all fun p => (s.core.lbad p.2.1 p.2.2).isNone) &&
          ((s.core.chunkBlks x q).flatten.all fun b => b.seen.skew.isNone && !b.fraction) then some (n, k) else none
    | _, _, _ => none

theorem test_tile_loads : mayLoad fwdT 0 = some (0, 0) ∧ runsWork fwdT.dev = true ∧ fwdT.core.clean := by decide +kernel

/-- The chunk is loaded. -/
def loadS : State := go (exec (.weightChunkLoad 0) fwdT)

theorem test_chunk_held : (loadS.core.tile 0).slots.map (fun p => (p.1, p.2.bad)) = [(0, false)] ∧
    (loadS.core.tile 0).held = [(0, 0)] := by decide +kernel

/-- The activations of the descriptor are converted. -/
def actS : State := match loadS.core.fwd.spans.head? with
  | some sp => go (exec (.spanConvert (sp.conv.getD 0)) loadS)
  | none => State.reset

/-- What a lane group has to do: the live planes of the slice it takes first, its adds so far, its FIFO and its buffer. -/
def laneWork (s : State) (tile lg : Nat) : Option (Nat × Nat × Nat × Nat) := match s.core.tileRun tile with
  | none => none
  | some (r, ci, pos, y) => match s.core.desc? r.d with
    | none => none
    | some x =>
      let g := r.fill (x.f 42 2) pos lg (x.f 48 4) (r.rounds x ci) 16 (KMap.getD y.lgs lg {})
      match (KMap.get? y.held g.rnd).bind (KMap.get? y.slots), g.buf.head? with
      | some w, some e =>
        if g.rnd < r.rounds x ci ∧ g.fifo.length < 8 ∧ w.bad = false then
          some (((r.planesOf tile lg pos g.rnd g.tok e.blks).filter fun p => p.2.any fun l => l.any (· == true)).length,
            g.shakes, g.fifo.length, g.buf.length)
        else none
      | _, _ => none

/-- The first lane group has added one plane. -/
def lgS : State := go (exec (.laneGroupHandshake 0 0) actS)

theorem test_lane_adds : laneWork actS 0 0 = some (3, 0, 0, 1) ∧ laneWork lgS 0 0 = some (3, 1, 0, 1) ∧ actS.core.inj = [] := by decide +kernel

theorem test_lane_ends : laneWork actS 0 1 = some (0, 0, 0, 1) ∧
    ((KMap.getD ((go (exec (.laneGroupHandshake 0 1) actS)).core.tile 0).lgs 1 {}).fifo.length) = 1 := by decide +kernel

/-- A token whose third column is 5 * 2^-23. -/
def tok5 : SkewEnt := { tok := 0, rnd := 0, runs := [] :: [] :: [(5, -23)] :: List.replicate 29 [], nf := List.replicate 32 false }

/-- All 16 lane groups of the tile hold that token. -/
def bondS : State := { actS with core := actS.core.setTile 0 { actS.core.tile 0 with
  lgs := (List.range 16).map fun g => (g, ({ fifo := [tok5] } : LaneGrp)) } }
theorem test_bond : ((bondS.core.tileRun 0).map fun p => (p.2.1, p.2.2.1, p.1.chains.getD 0 [])) = some (0, 0, [0]) ∧
    runsWork bondS.dev = true ∧ bondS.core.inj = [] ∧ (bondS.core.tile 0).outq = [] ∧ bondS.core.mem.entryWaits = [] ∧ bondS.core.plainBad (2 ^ 32 + 8192) 128 = none ∧
    Mem.read (go (exec (.bondRelease 0) bondS)).core.mem.mem (2 ^ 32 + 8192) 16 = [0, 0, 0, 0, 0, 0, 0, 0, 0, 0, 0xA0, 0x42, 0, 0, 0, 0] := by
  decide +kernel

/-- The same over a chain of two tiles. -/
def bond2S : State := { bondS with core := { bondS.core with fwd := { bondS.core.fwd with
  runs := bondS.core.fwd.runs.map fun (r : FtRun) => { r with chains := [[0, 1]] } } } }

theorem test_bond_chains : ((bond2S.core.tileRun 0).map fun p => (p.2.1, p.2.2.1)) = some (0, 0) ∧
    ((bond2S.core.tileRun 1).map fun p => (p.2.1, p.2.2.1)) = some (0, 1) ∧ (bond2S.core.tile 1).chain.length = 0 ∧
    ((go (exec (.bondRelease 0) bond2S)).core.tile 1).chain.map (fun e => ((e.vals.getD 2 {}).a, (e.vals.getD 2 {}).x)) =
      [(80 * 2 ^ 40, -63)] := by
  decide +kernel

/-- A block with magnitudes 3 and 1, the second negative, and weights 2 and 5. -/
theorem test_dot : (bondS.core.fwd.runs.head?.map fun r => (r.planesOf 0 0 0 0 0
      [{ e := 0, nf := false, neg := false :: true :: List.replicate 30 false, mag := 3 :: 1 :: List.replicate 30 0, rho := [] }]).foldl
      (fun s p => s + planeAdd p.1 (p.2.getD 0 []) (false :: true :: List.replicate 30 false)
        { e := 0, off := 0, q := 2 :: 5 :: List.replicate 30 0 }) 0) = some (64 * (3 * 2 - 5)) := by decide +kernel

/-- Registers of three blocks, the second 2^3 finer, the third at the edge of the 24-bit range: each fits its shift. -/
def regs3 : List (Int × Int × Int) := [(64, 0, 0), (-128, -3, 3), (8388607, 2, 0)]

theorem test_runs : (∀ p ∈ regs3, 0 ≤ p.2.2 ∧ (2 : Int) ^ p.2.2.toNat ∣ p.1 ∧ -8388608 ≤ p.1 ∧ p.1 ≤ 8388607 ∧ -9 ≤ p.2.1 - 6) ∧
    ((laneRuns regs3).1.map fun q => q.1 * 2 ^ (q.2 - (-9)).toNat).sum = 64 * 8 - 128 + 8388607 * 32 := by decide +kernel

/-- A table load of slot 2 of group 0, its image of zeros at 2^32. -/
def tabD : Desc := mkD 0x23 [(16, 6, 2 ^ 32), (22, 1, 0), (23, 1, 2)]

theorem test_table_load : ((withD tabD mem9).core.canIssue .run 0 tabD [0x23] && (withD tabD mem9).core.headerOk tabD &&
    (withD tabD mem9).core.groupFree 0 0 && !(withD tabD mem9).core.membersBusy 0 && (withD tabD mem9).core.obj 0x4100 4 != 0 &&
    !((withD tabD mem9).core.members 0).isEmpty && (tableOf (List.replicate 1088 0)).isSome) = true ∧
    (KMap.get? ((go (exec (.tableLoad 0) (withD tabD mem9))).core.tile 5).tables 2).isSome = true := by decide +kernel

theorem test_table_fetch : (withD tabD mem9).core.clean ∧ (withD tabD mem9).core.lbad (2 ^ 32) 1088 = none := by decide +kernel

theorem test_forward_plain : fwdT.core.plainEvents := plain_of _ (by decide +kernel)
/-! ### Precision units, converters -/

/-- A precision-unit descriptor on FP32 operands at plain addresses. -/
def puD (ty : Nat) (fs : List (Nat × Nat × Nat)) : Desc :=
  mkD ty ([(40, 1, 0x0A), (41, 1, 0x0A), (42, 1, 0x0A), (45, 1, 1), (60, 4, 1)] ++ fs)

/-- Words of memory from 2^32 on, 64 bytes apart. -/
def puS (x : Desc) (ws : List (Nat × Nat)) : State := withD x fun c =>
  { mem9 c with mem := { c.mem with mem := ws.foldl (fun m p => Mem.write m (2 ^ 32 + p.1) (toLE 4 p.2)) [] } }

/-- 2.0 times 3.0. -/
def prodD : Desc := puD 0x58 [(43, 1, 0x40), (52, 4, 1), (56, 4, 1), (64, 8, 2 ^ 32), (80, 8, 2 ^ 32 + 64), (96, 8, 2 ^ 32 + 128)]
def prodS : State := puS prodD [(0, 0x40000000), (64, 0x40400000)]

theorem test_pu_product : prodS.issues 0 prodD 0x58 ∧ prodS.core.clean ∧
    (firstBad (prodS.core.puChecks prodD [40, 41, 42])).isNone = true ∧ prodD.rc = false ∧ prodS.core.puFree 0 = true ∧
    Mem.num (go (exec (.puProduct 0) prodS)).core.mem.mem (2 ^ 32 + 128) 4 = 0x40C00000 := by decide +kernel

theorem test_pu_served : prodS.core.plainEvents ∧ prodS.core.served (2 ^ 32) 4 ∧ prodS.core.served (2 ^ 32 + 64) 4 ∧
    prodS.core.served (2 ^ 32 + 128) 4 :=
  have h : only9 prodS.core = true := by decide +kernel
  ⟨plain_of _ (by decide +kernel), served_only9 _ h _ _ (by decide) (by decide), served_only9 _ h _ _ (by decide) (by decide),
    served_only9 _ h _ _ (by decide) (by decide)⟩

/-- The statistics of the row 1.0, 3.0: mean 2.0, deviation 1.0 with ε = 2^-100. -/
def statD : Desc := puD 0x59 [(44, 1, 1), (48, 4, 0x0D800000), (52, 4, 2), (56, 4, 1), (64, 8, 2 ^ 32), (120, 8, 2 ^ 32 + 64)]
def statS : State := puS statD [(0, 0x3F800000), (4, 0x40400000)]

theorem test_pu_statistics : statS.issues 0 statD 0x59 ∧ statS.core.puFree 0 = true ∧ (firstBad (statS.core.puChecks statD [40])).isNone = true ∧
    Mem.num (go (exec (.rowStatistics 0) statS)).core.mem.mem (2 ^ 32 + 64) 8 = 0x3F80000040000000 := by decide +kernel

/-- Row 1 of two rows of one column, scaled by 2.0. -/
def gathD : Desc := puD 0x5A [(48, 4, 0x40000000), (52, 4, 2), (56, 4, 1), (80, 8, 2 ^ 32), (96, 8, 2 ^ 32 + 64), (120, 8, 2 ^ 32 + 128)]
def gathS : State := puS gathD [(0, 0x3F800000), (4, 0x40400000), (128, 1)]

theorem test_pu_gather : gathS.issues 0 gathD 0x5A ∧ gathS.core.puFree 0 = true ∧ (firstBad (gathS.core.puChecks gathD [41, 42])).isNone = true ∧
    gathS.core.lnum (2 ^ 32 + 128) 4 < 2 ∧
    Mem.num (go (exec (.gather 0) gathS)).core.mem.mem (2 ^ 32 + 64) 4 = 0x40C00000 := by decide +kernel

/-- The larger of 1.0 and 3.0. -/
def selD : Desc := puD 0x5B [(48, 4, 1), (52, 4, 1), (56, 4, 2), (64, 8, 2 ^ 32), (96, 8, 2 ^ 32 + 64),
  (120, 8, 2 ^ 32 + 128)]
def selS : State := puS selD [(0, 0x3F800000), (4, 0x40400000)]

theorem test_pu_select : selS.issues 0 selD 0x5B ∧ selS.core.puFree 0 = true ∧ (firstBad (selS.core.puChecks selD [40, 42])).isNone = true ∧
    Mem.num (go (exec (.select 0) selS)).core.mem.mem (2 ^ 32 + 64) 4 = 0x40400000 ∧
    Mem.num (go (exec (.select 0) selS)).core.mem.mem (2 ^ 32 + 128) 4 = 1 := by decide +kernel

/-- A conversion of 32 BF16 values into FP32. -/
def convD : Desc := mkD 0x30 [(16, 8, 2 ^ 32), (32, 8, 2 ^ 32 + 4096), (48, 4, 1), (52, 4, 32), (58, 1, 8), (59, 1, 0x0A), (60, 1, 0x14)]

theorem test_convert : (withD convD mem9).issues 0 convD 0x30 ∧
    ((go (exec (.convert 0) (withD convD mem9))).core.fwd.spans.map fun sp => (sp.d, sp.tgt.fmt)) = [(0, 0x0A)] ∧
    ((go (exec (.convert 0) (withD convD mem9))).core.desc? 0).map (·.done) = some true := by decide +kernel

/-- A converter of die 0 holds one block of the value 1.0 and the conversion's 31 zeros, into B8M. -/
def spanS : State := withD { convD with issued := true } fun c => { mem9 c with fwd := { c.fwd with
  spans := [{ d := 0, die := 0, act := false, src := none, conv := some 3
              lat := { layer := 4096, kind := 0, role := 0, tracked := false, ed := 0, wide := false, step := 0, prof := 0
                       window := 0, policy := 0, limit := 0, satFar := 0, split := 0 }
              tgt := { tag := 0, scale := 2 ^ 32 + 8192, fmt := 0x82, rmode := 0, nfp := false, key := 0, role := 5, blocks := 1 }
              blks := [{ data := 2 ^ 32 + 4096, blk := 0, elem := 0, vals := .ofNat 1 :: List.replicate 31 (.zero false) }] }] } }

theorem test_span : ((spanS.core.assignSpans.fwd.spans.find? (fun q => q.conv == some 3)).map (·.d)) = some 0 ∧
    spanS.core.clean ∧ runsWork spanS.dev = true ∧
    Mem.read (go (exec (.spanConvert 3) spanS)).core.mem.mem (2 ^ 32 + 8192 + 64) 6 = [0, 0, 0, 0, 119, 0] ∧
    Mem.read (go (exec (.spanConvert 3) spanS)).core.mem.mem (2 ^ 32 + 4096) 4 = [0x78, 0, 0, 0] := by decide +kernel

theorem test_span_served : spanS.core.plainEvents ∧ spanS.core.served (2 ^ 32 + 4096) 32 ∧ spanS.core.served (2 ^ 32 + 8256) 64 :=
  have h : only9 spanS.core = true := by decide +kernel
  ⟨plain_of _ (by decide +kernel), served_only9 _ h _ _ (by decide) (by decide), served_only9 _ h _ _ (by decide) (by decide)⟩

/-- Step 7, a wide one, waits with one tensor that saw values, layer 5 of kind 1; the watch area holds 4 steps. -/
def watchS : State := withC .run fun c => { ((mem9 c).setObj 0x3710 1 (2 ^ 32)).setObj 0x3710 2 4 with
  fwd := { c.fwd with
    track := [(5, { past := [{ step := 7, obs := { saw := true }, edNext := 9 }] })]
    watch := [{ step := 7, wide := true, widened := [] }] } }

theorem test_watch : watchS.core.obj 0x3710 1 ≠ 0 ∧ watchS.core.fwd.watch.length = 1 ∧ watchS.core.inj = [] ∧
    Mem.read (go (exec .watchRecordsWrite watchS)).core.mem.mem (2 ^ 32 + (3 * 49152 + 5) * 64) 8 = [7, 0, 0, 0, 5, 0, 1, 2] := by
  decide +kernel
/-! ### Backward -/

/-- Bytes of memory from 2^32 on, as (offset, width, value). -/
def memAt (fs : List (Nat × Nat × Nat)) : Mem := fs.foldl (fun m p => Mem.write m (2 ^ 32 + p.1) (toLE p.2.1 p.2.2)) []

/-- A backward descriptor of kind 2, group 0, one row, FIRST without FINAL, BF16 output, its list at 2^32. -/
def bwdD (ty : Nat) (fs : List (Nat × Nat × Nat)) : Desc :=
  mkD ty ([(16, 8, 2 ^ 32), (28, 1, 8), (30, 1, 2), (31, 1, 0x80), (32, 4, 1), (36, 4, 1), (40, 4, 1)] ++ fs)

/-- Slots of the operand list, as (slot, offset from 2^32, format code), then other bytes. -/
def bwdS (x : Desc) (slots : List (Nat × Nat × Nat)) (fs : List (Nat × Nat × Nat)) : State := withD x fun c =>
  { mem9 c with mem := { c.mem with mem := memAt ((slots.flatMap fun p => [(16 * p.1, 8, 2 ^ 32 + p.2.1), (16 * p.1 + 8, 8, p.2.2 * 2 ^ 56)]) ++ fs) } }

/-- An address range lies in P9. -/
def in9 (a n : Nat) : Bool := decide (2 ^ 32 ≤ a) && decide (a + n ≤ 2 ^ 33)

theorem served_in9 (c : Core) (h : only9 c = true) (a n : Nat) (h1 : in9 a n = true) : c.served a n := by
  simp only [in9, Bool.and_eq_true, decide_eq_true_eq] at h1
  exact served_only9 c h a n h1.1 h1.2

/-- What readiness asks that can be decided, with the list and the operands in P9. -/
def bwdOk (c : Core) (x : Desc) : Bool :=
  only9 c && in9 (x.f 16 8) 256 && (c.bwdFree x && !x.rc && fld (x.f 29 1) 5 4 != 3 && x.f 16 8 % 64 == 0) &&
  (knownFormat (x.f 28 1) || (x.f 28 1 == 0 && (x.ty == 0x52 || x.ty == 0x56))) &&
  ((firstBad (c.bwdChecks x (c.bwdList x))).isNone && (firstBad (c.hodChecks x)).isNone) &&
  ((c.bwdList x).all fun e => decide (e.addr < 2 ^ 63) && e.isElem) && (bEnt (c.bwdList x) 15).addr == 0 &&
  (x.bOpnds (c.bwdList x)).all fun o => in9 (bEnt (c.bwdList x) o.1).addr
    (ceilDiv (o.2.1 * o.2.2 * fmtBits (bEnt (c.bwdList x) o.1).code) 8)

theorem ready_of (c : Core) (x : Desc) (h : bwdOk c x = true) : c.bwdReady x := by
  simp only [bwdOk, Bool.and_eq_true, Bool.or_eq_true, Bool.not_eq_true', bne_iff_ne, beq_iff_eq, List.all_eq_true,
    Option.isNone_iff_eq_none, decide_eq_true_eq] at h
  obtain ⟨⟨⟨⟨⟨⟨⟨h9, hl⟩, ⟨⟨hf, hr⟩, hm⟩, ha⟩, hk⟩, hc, hh⟩, he⟩, h15⟩, ho⟩ := h
  have hl2 : x.f 16 8 < 2 ^ 63 := by
    simp only [in9, Bool.and_eq_true, decide_eq_true_eq] at hl; omega
  exact ⟨hf, hr, hm, ha, hl2, hk, served_in9 c h9 _ _ hl, hc, hh, he, h15, fun o q => served_in9 c h9 _ _ (ho o q)⟩

/-- The premises that the statement asks of every type. -/
def bwdMet (s : State) (x : Desc) (ty : Nat) : Prop :=
  s.settled ∧ s.core.clean ∧ s.core.plainEvents ∧ s.issues 0 x ty ∧ s.core.bwdReady x ∧ s.core.xch.out = [] ∧
  s.core.xch.waits0 = []

theorem met_of (s : State) (x : Desc) (ty : Nat) (h1 : s.settled ∧ s.core.clean ∧ s.issues 0 x ty ∧ s.core.xch.out = [] ∧
    s.core.xch.waits0 = []) (h2 : s.core.dict.objs.all (fun p => !(0xB20001 ≤ p.1 && p.1 ≤ 0xB23F01)) = true)
    (h3 : bwdOk s.core x = true) : bwdMet s x ty :=
  ⟨h1.1, h1.2.1, plain_of _ h2, h1.2.2.1, ready_of _ _ h3, h1.2.2.2.1, h1.2.2.2.2⟩

/-- A product of one row, one input, one output, in FP8: dY = 1.0, W = 1.0, X = 2.0. -/
def bprodD : Desc := bwdD 0x50 []
def bprodS : State := bwdS bprodD [(0, 4096, 2), (1, 4160, 2), (2, 4224, 2), (3, 4288, 0), (4, 4352, 0)]
  [(4096, 1, 0x38), (4160, 1, 0x38), (4224, 1, 0x40)]
def bprodJ : BJob := bprodS.core.bwdJob 0 bprodD

theorem test_backward_product : bwdMet bprodS bprodD 0x50 :=
  met_of _ _ _ (by decide +kernel) (by decide +kernel) (by decide +kernel)

theorem test_backward_product_places : only9 bprodS.core = true ∧ bprodD.bFirst = true ∧ bprodD.bFinal = false ∧
    (elemOfCode (bprodD.f 28 1)).isSome = true ∧ (blkOfCode (bprodD.f 28 1)).isNone = true ∧ in9 (bprodJ.addr 3) 2 = true ∧
    in9 (bprodJ.addr 4) (4 * (prodCols bprodD.bWide 0 1 1 (bprodJ.m 2) (bprodJ.m 0)).1.flatten.length) = true := by
  decide +kernel

theorem test_backward_dw : Mem.num (go (exec (.productBackward 0) bprodS)).core.mem.mem (2 ^ 32 + 4352) 4 = 0x40000000 ∧
    Mem.num (go (exec (.productBackward 0) bprodS)).core.mem.mem (2 ^ 32 + 4288) 2 = 0x3F80 := by decide +kernel

/-- The fused normalisation of one element, r = 1.0. -/
def bnormD : Desc := bwdD 0x51 []
def bnormS : State := bwdS bnormD [(0, 4096, 2), (1, 4160, 2), (2, 4224, 2), (3, 4288, 0), (4, 4352, 0), (5, 4416, 0), (6, 4480, 2), (7, 4544, 0)]
  [(4096, 1, 0x38), (4160, 1, 0x38), (4224, 1, 0x40), (4420, 4, 0x3F800000), (4544, 4, 0x3F800000)]
def bnormJ : BJob := bnormS.core.bwdJob 0 bnormD

theorem test_backward_norm : bwdMet bnormS bnormD 0x51 :=
  met_of _ _ _ (by decide +kernel) (by decide +kernel) (by decide +kernel)

theorem test_backward_norm_places : only9 bnormS.core = true ∧ in9 (bnormJ.addr 5) 8 = true ∧ in9 (bnormJ.addr 7) 24 = true ∧
    in9 (bnormJ.addr 3) 2 = true ∧ in9 (bnormJ.addr 4) 4 = true := by decide +kernel

/-- The fused soft maximum of one element at inverse temperature 1.0. -/
def bsmD : Desc := bwdD 0x52 [(64, 4, 0x3F800000)]
def bsmS : State := bwdS bsmD [(1, 4160, 2), (2, 4224, 2), (3, 4288, 0), (4, 4352, 0), (5, 4416, 0), (6, 4480, 0)]
  [(4160, 1, 0x38), (4224, 1, 0x40)]
def bsmJ : BJob := bsmS.core.bwdJob 0 bsmD

theorem test_backward_softmax : bwdMet bsmS bsmD 0x52 :=
  met_of _ _ _ (by decide +kernel) (by decide +kernel) (by decide +kernel)

theorem test_backward_softmax_places : only9 bsmS.core = true ∧ bsmD.bStats = false ∧ in9 (bsmJ.addr 5) 8 = true ∧
    in9 (bsmJ.addr 6) 8 = true ∧ bsmJ.addr 7 = 0 ∧ bsmJ.addr 3 % 64 = 0 ∧ bsmJ.addr 3 + 4 ≤ tsBase ∧
    in9 (bsmJ.addr 3) 4 = true ∧ in9 (bsmJ.addr 4) 4 = true := by decide +kernel

/-- Attention backward of one query and one key, head dimension 128. -/
def battD : Desc := bwdD 0x53 [(36, 4, 128)]
def battS : State := bwdS battD [(0, 4096, 2), (1, 4224, 2), (2, 4352, 2), (3, 8192, 0), (4, 4480, 2), (5, 4608, 0), (6, 4672, 2),
  (7, 12288, 0), (8, 16384, 0)] [(4612, 4, 0x3F800000)]
def battJ : BJob := battS.core.bwdJob 0 battD

theorem test_backward_attention : bwdMet battS battD 0x53 :=
  met_of _ _ _ (by decide +kernel) (by decide +kernel) (by decide +kernel)

theorem test_backward_attention_places : only9 battS.core = true ∧ in9 (battJ.addr 5) (8 * battD.bRows) = true ∧
    battJ.addr 3 % 64 = 0 ∧ battJ.addr 3 + 4 * (battD.bRows * 128) ≤ tsBase ∧ in9 (battJ.addr 3) (4 * (battD.bRows * 128)) = true ∧
    in9 (battJ.addr 7) 256 = true ∧ in9 (battJ.addr 8) 256 = true := by decide +kernel

/-- A deposit of one BF16 element at offset 0 of a table of one hod of 32 elements, step 0 open. -/
def bdepD : Desc := bwdD 0x56 []
def bdepS : State :=
  let s := bwdS bdepD [(0, 4096, 8)] [(4096, 2, 0x3F80), (8192, 4, 1), (8196, 4, 32)]
  { s with core := { (s.core.setObj 0x8010 1 (2 ^ 32 + 8192)).setObj 0x8010 2 1 with stp := { s.core.stp with
      isOpen := true } } }

theorem test_backward_deposit : bwdMet bdepS bdepD 0x56 :=
  met_of _ _ _ (by decide +kernel) (by decide +kernel) (by decide +kernel)

theorem test_backward_counts : (go (exec (.gradientDeposit 0) bdepS)).core.obj 0x5080 9 = 1 ∧
    ((go (exec (.gradientDeposit 0) bdepS)).core.desc? 0).map (·.done) = some true := by decide +kernel
/-! ### Attention and pools -/

/-- A list attention of one item over pool 0, B4 cache, BF16 query and output; the item at 2^32. -/
def attD : Desc := mkD 0x40 [(16, 8, 2 ^ 32), (30, 1, 8), (31, 1, 8), (32, 1, 0x81), (34, 1, 4), (35, 1, 1), (36, 4, 1), (42, 2, 1), (44, 4, 0x3F800000)]

/-- Pool 0 is on: one page of one head at 2^32 + 2^20, its state after it. -/
def poolC (c : Core) : Core := (((((mem9 c).setObj 0x6100 1 (2 ^ 32 + 2 ^ 20)).setObj 0x6100 2 4).setObj 0x6100 7 1).setObj 0x6100 8 0x81)

/-- A DENSE attention with K and V in BF16. -/
def denD : Desc := mkD 0x40 [(16, 8, 2 ^ 32), (29, 1, 8), (30, 1, 8), (31, 1, 8), (33, 1, 4), (34, 1, 4), (35, 1, 1), (36, 4, 1), (42, 2, 1), (44, 4, 0x3F800000),
  (96, 8, 2 ^ 32 + 4096), (112, 8, 2 ^ 32 + 8192)]

/-- One item: one query row, one key; the value row begins with 1.0. -/
def denM : Mem := memAt [(8, 8, 2 ^ 32 + 12288), (24, 8, 2 ^ 32 + 16384), (55, 1, 1), (56, 4, 1), (8192, 2, 0x3F80)]
def denI : AItem := { idx := 0, bytes := Mem.read denM (2 ^ 32) 64, addrs := [0, 2 ^ 32 + 12288, 0, 2 ^ 32 + 16384, 0, 0] }
def denR : AttnRun := { d := 0, base := 2 ^ 32, waiting := [denI], left := 1, lat := ⟨0, 0, 0, false, 0, false, 0, 0, 0, 0, 0, 0, 0⟩
                        k := { addr := 2 ^ 32 + 4096, scale := 0, fmt := 8, rows := 0, cols := 128 }
                        v := { addr := 2 ^ 32 + 8192, scale := 0, fmt := 8, rows := 0, cols := 128 }, kHdr := [], vHdr := [] }
def denS : State := withD { denD with issued := true } fun c =>
  { mem9 c with mem := { c.mem with mem := denM }, attn := { c.attn with runs := [denR] } }

theorem test_attention_queued : (withD attD poolC).issues 0 attD 0x40 ∧ (firstBad ((withD attD poolC).core.attnChecks attD)).isNone = true ∧
    attD.dense = false ∧ attD.aKind = 1 ∧ only9 (withD attD poolC).core = true ∧ in9 (attD.f 16 8) (64 * attD.f 36 4) = true ∧
    (go (exec (.attention 0) (withD attD poolC))).core.attn.runs.map (fun r => (r.base, r.left, r.waiting.length)) =
      [(2 ^ 32, 1, 1)] := by decide +kernel

theorem test_item_output : Mem.num (go (exec (.attentionItem 0) denS)).core.mem.mem (2 ^ 32 + 16384) 4 = 0x3F80 ∧
    Mem.num (go (exec (.attentionItem 0) denS)).core.mem.mem (2 ^ 32 + 60) 1 = 1 := by decide +kernel

theorem test_item_taken : runsWork denS.dev = true ∧ bitAt (denS.core.obj 0x6001 0) 0 = true ∧ bitAt (denD.f 42 2) 0 = true ∧
    denS.core.freeWalker 0 = some 0 ∧ denS.core.attn.runs.find? (fun q => q.d == 0) = some denR ∧ denS.core.clean ∧
    denS.core.attn.items = [] ∧ (denS.core.eng 0).run = none ∧ (denS.core.eng 0).slots = [] ∧ denS.core.links.tagWaits = [] ∧
    denS.core.attn.runs.find? (fun q => !q.waiting.isEmpty && (match denS.core.desc? q.d with
      | some y => bitAt (y.f 42 2) 0
      | none => false)) = some denR := by decide +kernel

theorem test_item_places : denD.dense = true ∧ denD.f 30 1 = 8 ∧ bitAt (denD.f 33 1) 3 = false ∧ denS.core.itemRange denD denI = false ∧
    denI.n = 1 ∧ denI.list = 0 ∧ denI.head = 0 ∧ denD.hg * denI.c = 1 ∧ denI.q = 2 ^ 32 + 12288 ∧ denI.out = 2 ^ 32 + 16384 := by
  decide +kernel

theorem test_item_served : denS.core.plainEvents ∧ denS.core.served (2 ^ 32 + 12288) 256 ∧ denS.core.served (2 ^ 32 + 4096) 256 ∧
    denS.core.served (2 ^ 32 + 8192) 256 ∧ denS.core.served (2 ^ 32 + 16384) 256 :=
  have h : only9 denS.core = true := by decide +kernel
  ⟨plain_of _ (by decide +kernel), served_in9 _ h _ _ (by decide), served_in9 _ h _ _ (by decide), served_in9 _ h _ _ (by decide),
    served_in9 _ h _ _ (by decide)⟩

/-- Items that wait: engine 1 for a remote page, engine 2 for a free page. -/
def waitS : State := { denS with core := { denS.core with attn := { denS.core.attn with
  items := [{ d := 0, engine := 1, walker := 0, item := denI, gen := 0, need := [0] },
            { d := 0, engine := 2, walker := 0, item := denI, gen := 0, pageWait := some 0 }] } } }

theorem test_remote_timeout : (waitS.core.attn.items.find? (fun j => j.engine == 1 && !j.need.isEmpty)).isSome = true ∧
    Mem.num (go (exec (.remoteReadTimeout 1) waitS)).core.mem.mem (2 ^ 32 + 60) 1 = 4 := by decide +kernel

theorem test_page_timeout : (waitS.core.attn.items.find? (fun j => j.engine == 2 && j.pageWait.isSome)).isSome = true ∧
    Mem.num (go (exec (.pageWaitTimeout 2) waitS)).core.mem.mem (2 ^ 32 + 60) 1 = 2 := by decide +kernel

/-- Pool 0 with page 3 allocated; page 2 is in quarantine. -/
def freeS : State := withC .run fun c => { poolC c with attn := { c.attn with
  pools := [(0, { alloc := [3] })], quarantine := [{ pool := 0, page := 2, at_ := 0 }] } }

theorem test_page_freed : freeS.core.reach .run (.pf false) 0x6100 0xB true = true ∧ freeS.core.poolOn 0 = true ∧
    ((go (exec (.poolFreePage (.pf false) 0 3) freeS)).core.pool 0).alloc = [] ∧
    (go (exec (.poolFreePage (.pf false) 0 3) freeS)).core.attn.quarantine.map (·.page) = [2, 3] := by decide +kernel

theorem test_quarantine : freeS.core.attn.items = [] ∧
    ((go (exec .quarantineRelease freeS)).core.pool 0).back = [2] := by decide +kernel

/-! ### Rollout contexts -/

/-- A context op on context 5, its result at 2^32. -/
def opD (op : Nat) (fs : List (Nat × Nat × Nat) := []) : Desc := mkD 0x61 ([(16, 2, if op = 9 then 0 else 5), (18, 1, op), (32, 8, 2 ^ 32)] ++ fs)

/-- A page list at 2^32 + 8192 of one layer and one block, whose entry names a page, or none. -/
def listM (page : Nat) : Mem := memAt [(8196, 4, 1), (8200, 8, 2 ^ 32 + 8320), (8208, 2, 1), (8320, 4, page), (8332, 2, 0xFFFF)]

/-- The record with that list. -/
def listed (y : Ctx) : Ctx := { y with list := 2 ^ 32 + 8192 }

/-- Context 5 holds a record with that list, which names no page. -/
def ctxS (op : Nat) (y : Ctx) : State := withD (opD op) fun c =>
  { mem9 c with mem := { c.mem with mem := listM noPage }, roll := { c.roll with ctxs := [(5, listed y)] } }

/-- The list and its entries lie in P9. -/
def listOk (c : Core) (b0 b1 : Nat) : Bool :=
  only9 c && (c.listRanges (2 ^ 32 + 8192) b0 b1).all fun r => in9 r.2.1 r.2.2

theorem listed_served (c : Core) (b0 b1 : Nat) (h : listOk c b0 b1 = true) : c.listServed (2 ^ 32 + 8192) b0 b1 := by
  simp only [listOk, Bool.and_eq_true, List.all_eq_true] at h
  exact ⟨served_in9 c h.1 _ _ (by decide), fun r q => served_in9 c h.1 _ _ (h.2 r q)⟩

/-- After a context op: the state of context 5 and the first two bytes of the result. -/
def after (r : Host.Outcome State Fault Refusal) : Nat × List Byte :=
  (((go r).core.ctx 5).state, Mem.read (go r).core.mem.mem (2 ^ 32) 2)

theorem test_ctx_issues : (ctxS 3 { state := 1 }).issues 0 (opD 3) 0x61 ∧ (firstBad (ctxChecks (opD 3))).isNone = true ∧
    (ctxS 3 { state := 1 }).core.ctxBusy 5 = false ∧ (ctxS 3 { state := 1 }).core.clean := by decide +kernel

theorem test_ctx_served : (ctxS 3 { state := 1 }).core.plainEvents ∧ (ctxS 3 { state := 1 }).core.served (2 ^ 32) 16 :=
  ⟨plain_of _ (by decide +kernel), served_only9 _ (by decide +kernel) _ _ (by decide) (by decide)⟩

theorem test_hold_release : after (exec (.ctxHold 0) (ctxS 3 { state := 1 })) = (3, [1, 3]) ∧
    after (exec (.ctxHold 0) (ctxS 3 { state := 5 })) = (5, [0x20, 5]) ∧
    after (exec (.ctxRelease 0) (ctxS 4 { state := 3 })) = (1, [1, 1]) ∧
    after (exec (.ctxRelease 0) (ctxS 4 { state := 1 })) = (1, [0x20, 1]) := by decide +kernel

theorem test_abort_close_resume : after (exec (.abortStep 0) (ctxS 8 { state := 2 })) = (1, [1, 1]) ∧
    after (exec (.abortStep 0) (ctxS 8 { state := 1 })) = (1, [0x20, 1]) ∧
    (after (exec (.ctxClose 0) (ctxS 2 { state := 5 }))).1 = 0 ∧
    after (exec (.ctxResume 0) (ctxS 6 { state := 4 })) = (1, [1, 1]) := by decide +kernel

theorem test_resume_empty : (ctxS 6 { state := 4 }).core.parkedEntries (listed { state := 4 }) = [] ∧
    (ctxS 6 { state := 4 }).core.roll.resumes = [] ∧ (ctxS 6 { state := 4 }).core.pfxOn = false := by decide +kernel

theorem test_lists_served : (ctxS 2 { state := 5 }).core.listServed (2 ^ 32 + 8192) 0 ((ctxS 2 { state := 5 }).core.listCap (2 ^ 32 + 8192)) ∧
    (ctxS 6 { state := 4 }).core.listServed (2 ^ 32 + 8192) 0 ((ctxS 6 { state := 4 }).core.listCap (2 ^ 32 + 8192)) :=
  ⟨listed_served _ _ _ (by decide +kernel), listed_served _ _ _ (by decide +kernel)⟩

/-- An image that OPEN takes: pool 0, BF16 keys, prompt of one token 7 at 2^32 + 4096, limit 2, list of capacity 1 at 2^32 + 8192, a ledger of
one entry in P8. -/
def imageFs : List (Nat × Nat × Nat) := [(64 + 3, 1, 1), (64 + 5, 1, 0x81), (64 + 8, 8, 2 ^ 32 + 8192), (64 + 16, 8, 2 ^ 32 + 4096), (64 + 24, 4, 1),
  (64 + 32, 4, 2), (64 + 60, 4, 0x3F800000), (64 + 112, 8, 2 ^ 34), (64 + 120, 4, 1), (4096, 4, 7), (8196, 4, 1)]
def openD : Desc := opD 1 [(24, 8, 2 ^ 32 + 64)]
def openM : Mem := memAt imageFs
def openS : State := withD openD fun c => { ((poolC c).setObj 0x9108 1 (2 ^ 34)).setObj 0x9108 2 4096 with mem := { c.mem with mem := openM } }

theorem test_ctx_open : openS.issues 0 openD 0x61 ∧ openS.core.pfxOn = false ∧
    openS.core.imageOk (openS.core.lread (2 ^ 32 + 64) 256) = true ∧ after (exec (.ctxOpen 0) openS) = (1, [1, 1]) ∧
    ((go (exec (.ctxOpen 0) openS)).core.ctx 5).last = 7 := by decide +kernel

/-- PARK of an ACTIVE context with one page, page 0 of pool 0. -/
def prkS : State := withD (opD 5) fun c =>
  let c := ((((mem9 c).setObj 0x6100 1 (2 ^ 32 + 2 ^ 20)).setObj 0x6100 2 4).setObj 0x6100 4 (2 ^ 32 + 2 ^ 21)).setObj 0x6100 5 64
  { c with mem := { c.mem with mem := listM 0 }, roll := { c.roll with ctxs := [(5, listed { state := 1, parkBase := 4096, pos := 1 })] } }

theorem test_park : prkS.issues 0 (opD 5) 0x61 ∧ (prkS.core.ctx 5).parkEnd = 1 ∧
    (prkS.core.parkList (prkS.core.ctx 5)).map (fun p => (p.1, p.2.1, p.2.2.1.pageNew)) = [(0, 0, 0)] ∧
    in9 (prkS.core.pageAddr 0 0) (prkS.core.pageBytes 0) = true ∧ in9 (prkS.core.slotAddr 0 0) (prkS.core.slotBytes 0) = true ∧
    listOk prkS.core 0 1 = true ∧ (go (exec (.ctxPark 0) prkS)).core.roll.parks = [(0, 5)] := by decide +kernel

theorem test_op_waits : (go (exec (.ctxHold 0) (ctxS 3 { state := 2 }))).core.roll.waits = [{ d := 0, ctx := 5, op := 3 }] ∧
    (go (exec (.ctxPark 0) (ctxS 5 { state := 2 }))).core.roll.waits = [{ d := 0, ctx := 5, op := 5 }] ∧
    (go (exec (.ctxClose 0) (ctxS 2 { state := 2 }))).core.roll.waits = [{ d := 0, ctx := 5, op := 2 }] := by decide +kernel

/-- A HOLD that waited while the step closed, a PARK whose pages are out. -/
def heldS : State := let s := ctxS 3 { state := 1 }
  { s with core := { s.core with roll := { s.core.roll with waits := [{ d := 0, ctx := 5, op := 3 }] } } }
def parkS : State := let s := ctxS 5 { state := 1, parkBase := 4096 }
  { s with core := { s.core with roll := { s.core.roll with parks := [(0, 5)] } } }

theorem test_deferred : runsWork heldS.dev = true ∧ heldS.core.ctxHeld 5 = false ∧ heldS.core.roll.waits.find? (fun w => w.ctx == 5) = some ⟨0, 5, 3⟩ ∧
    after (exec (.deferredContextOp 5) heldS) = (3, [1, 3]) := by decide +kernel

theorem test_parked : listOk parkS.core 0 (parkS.core.listCap (2 ^ 32 + 8192)) = true ∧ parkS.core.roll.parks.find? (fun p => p.2 == 5) = some (0, 5) ∧
    after (exec (.parkPagesAcknowledged 5) parkS) = (4, [1, 4]) := by decide +kernel

/-- INSERT of one block, its prompt zeros, the prefix table on at 2^32 + 2^26; FLUSH_PREFIX with the table off; a RESUME that
waits for a page. -/
def insD : Desc := opD 7 [(20, 4, 1)]
def insS : State := withD insD fun c =>
  let c := ((((mem9 c).setObj 0x6300 1 1).setObj 0x6300 2 (2 ^ 32 + 2 ^ 26)).setObj 0x6300 3 (2 ^ 32 + 2 ^ 27)).setObj 0x6300 4 1
  { c with mem := { c.mem with mem := listM 0 }, roll := { c.roll with ctxs := [(5, listed { state := 1, steps := 1, prompt := 2 ^ 32 + 4096, promptLen := 32 })] } }
def flushS : State := withD (opD 9) mem9
def resS : State := let s := ctxS 6 { state := 4 }
  { s with core := { s.core with roll := { s.core.roll with resumes := [{ d := 0, ctx := 5, todo := [(0, 0, 0)], taken := [] }] } } }

theorem test_insert : insS.issues 0 insD 0x61 ∧ insS.core.pfxOn = true ∧ insS.core.roll.clearing = false ∧
    insS.core.listLayers (2 ^ 32 + 8192) = insS.core.obj 0x6300 4 ∧ listOk insS.core 0 1 = true ∧
    Mem.read (go (exec (.ctxInsert 0) insS)).core.mem.mem (2 ^ 32) 5 = [1, 1, 0, 0, 1] := by decide +kernel

theorem test_insert_sets (h : Nat) : insS.core.served (insS.core.pfxSet h) 256 := by
  have e : insS.core.pfxSet h = 2 ^ 32 + 2 ^ 26 + 32 * (h % 2 ^ 17 * 8) := rfl
  have := Nat.mod_lt h (show 0 < 2 ^ 17 by decide)
  exact served_only9 _ (by decide +kernel) _ _ (by omega) (by omega)

theorem test_flush_on : (withD (opD 9) fun c => (mem9 c).setObj 0x6300 1 1).core.pfxOn = true ∧
    Mem.read (go (exec (.flushPrefix 0) (withD (opD 9) fun c => (mem9 c).setObj 0x6300 1 1))).core.mem.mem (2 ^ 32) 1 = [1] := by
  decide +kernel

theorem test_flush : flushS.issues 0 (opD 9) 0x61 ∧ flushS.core.pfxOn = false ∧
    Mem.read (go (exec (.flushPrefix 0) flushS)).core.mem.mem (2 ^ 32) 1 = [0x23] := by decide +kernel

theorem test_resume_fails : (resS.core.roll.resumes.find? fun r => resS.core.live r.d).isSome = true ∧
    (go (exec (.pageWaitTimeout 16) resS)).core.roll.resumes = [] ∧
    after (exec (.pageWaitTimeout 16) resS) = (4, [0x22, 4]) := by decide +kernel

theorem test_clearing_ends : (go (exec .prefixClearingEnds { at_ .run with core := { (at_ .run).core with roll := { (at_ .run).core.roll with
    clearing := true } } })).core.roll.clearing = false := by decide

/-- A decode step of context 5 on bank 0, which is NEWEST. -/
def decD : Desc := mkD 0x62 [(16, 8, 2 ^ 32), (24, 4, 1)]
def decS : State := withD decD fun c =>
  let c := { mem9 c with mem := { c.mem with mem := memAt [(0, 4, 0x10005)] } }
  let c := { c with roll := { c.roll with ctxs := [(5, { state := 1, cMax := 1 })] } }
  { c with stp := { c.stp with banks := [(0, { state := 1, version := 0, holds := true })] } }

theorem test_decode_step : decS.issues 0 decD 0x62 ∧ (firstBad (openChecks decD)).isNone = true ∧
    decS.core.lnum (2 ^ 32) 4 = 0x10005 ∧ decS.core.ctxBusy 5 = false ∧ (decS.core.bank 0).holds = true ∧ (decS.core.bank 0).state ≠ 4 ∧ decS.core.entryStatus 0 0x10005 [] = 1 ∧
    ((go (exec (.decodeStepOpen 0) decS)).core.ctx 5).state = 2 ∧
    Mem.num (go (exec (.decodeStepOpen 0) decS)).core.mem.mem (2 ^ 32) 4 = 0x1010005 := by decide +kernel

/-- The hold limit of bank 0 runs out while context 5 pins its version. -/
def holdS : State := withC .run fun c =>
  let c := { c with roll := { c.roll with hold := some (0, 0, false), ctxs := [(5, { state := 1, pin := true })] } }
  { c with stp := { c.stp with banks := [(0, { state := 1, version := 0, holds := true })] } }

theorem test_hold_limit : holdS.core.readers 0 ≠ 0 ∧ ((go (exec .holdLimitExpiry holdS)).core.ctx 5).forced = true ∧
    ((go (exec .holdLimitExpiry holdS)).core.ctx 5).pin = false := by decide +kernel

/-- A sample of context 5, which steps: a row of the two BF16 logits 0.0 and 8.0; greedy. -/
def samD : Desc := mkD 0x60 [(16, 8, 2 ^ 32), (24, 8, 2 ^ 32 + 64), (48, 8, 2 ^ 32 + 128), (56, 4, 1), (60, 4, 2), (64, 4, 2), (68, 1, 8), (71, 1, 1)]
def samS (x : Desc) (e : Nat) : State := withD x fun c =>
  let c := { mem9 c with mem := { c.mem with mem := memAt [(0, 4, e), (66, 2, 0x4100)] } }
  { c with roll := { c.roll with ctxs := [(5, { state := 2, cMax := 2, topP := 0x3F800000, ledBase := 2 ^ 32 + 4096, ledCap := 4, limit := 9 })] } }

/-- What a sample asks of its state: the entry, the context, and the row's distribution. -/
def sampleOk (x : Desc) (e : Nat) (fmt row : Nat) : Bool :=
  let s := samS x e
  let y := s.core.ctx 5
  decide (s.issues 0 x 0x60) && (firstBad (s.core.sampleChecks x)).isNone && s.core.lnum (2 ^ 32) 4 == e && !s.core.ctxHeld 5 &&
    y.state == 2 && e / 2 ^ 24 == 1 && y.ledCount != y.ledCap && y.endReason == 0 && only9 s.core &&
    in9 row (x.f 60 4 * logitBytes fmt) && !(distrOf y (s.core.logitsAt fmt (x.f 60 4) row)).kept.isEmpty

theorem test_sample_ready : sampleOk samD 0x1010005 8 (2 ^ 32 + 64) = true ∧ samD.draftMode = false ∧ samD.f 69 1 = 0 ∧
    (samS samD 0x1010005).core.clean := by decide +kernel

theorem test_sample : ((go (exec (.sampleTarget 0) (samS samD 0x1010005))).core.ctx 5).state = 1 ∧
    ((go (exec (.sampleTarget 0) (samS samD 0x1010005))).core.ctx 5).last = 1 ∧
    Mem.read (go (exec (.sampleTarget 0) (samS samD 0x1010005))).core.mem.mem (2 ^ 32 + 4096) 5 = [1, 0, 0, 0, 1] := by decide +kernel

/-- The same with a quota of no entry: the ledger's write waits, and record and result with it (R316, R214). -/
def fullS : State := let s := samS samD 0x1010005
  { s with core := s.core.setObj 0x9109 7 0 }

theorem test_sample_waits : (samS samD 0x1010005).core.roll.ends = [] ∧ 2 ^ 32 + 128 + 16 ≤ 2 ^ 32 + 4096 ∧
    ((samS samD 0x1010005).core.store (2 ^ 32 + 4096) (List.replicate 16 0)).mem.entryWaits.length = 0 ∧
    fullS.issues 0 samD 0x60 ∧ (fullS.core.store (2 ^ 32 + 4096) (List.replicate 16 0)).mem.entryWaits.length = 1 ∧
    ((go (exec (.sampleTarget 0) fullS)).core.roll.ends.map fun f => (f.d, f.ctx)) = [(0, 5)] ∧
    ((go (exec (.sampleTarget 0) fullS)).core.ctx 5).state = 2 := by decide +kernel

/-- Draft 1 of a step with two rows, from the draft logits at 2^32 + 64, into the slots at 2^32 + 256. -/
def drfD : Desc := mkD 0x60 [(16, 8, 2 ^ 32), (24, 8, 2 ^ 32 + 64), (32, 8, 2 ^ 32 + 64), (40, 8, 2 ^ 32 + 256), (56, 4, 1), (60, 4, 2), (64, 4, 2),
  (68, 1, 8), (69, 1, 8), (70, 1, 3), (71, 1, 1)]

theorem test_draft_ready : sampleOk drfD 0x1020005 8 (2 ^ 32 + 64) = true ∧ drfD.draftMode = true ∧ fld (drfD.f 70 1) 3 1 = 1 ∧
    drfD.f 40 8 = 2 ^ 32 + 256 := by decide +kernel

theorem test_draft : (distrOf ((samS drfD 0).core.ctx 5) [.zero false, .ofNat 8]).kept.isEmpty = false ∧
    Mem.num (go (exec (.sampleDraft 0) (samS drfD 0x1020005))).core.mem.mem (2 ^ 32 + 256) 4 = 1 := by decide +kernel

/-! ### The training step -/

/-- A step open of step 4 with one microbatch of input 4096 and ring 4096. -/
def stpD : Desc := mkD 0x70 [(16, 4, 4), (24, 2, 1), (32, 8, 4096), (40, 8, 4096), (48, 8, 4096)]

theorem test_step_open : (withD stpD).issues 0 stpD 0x70 ∧ (firstBad ((withD stpD).core.openChecks stpD)).isNone = true ∧
    (go (exec (.stepOpen 0) (withD stpD))).core.stp.opens = [0] := by decide +kernel

theorem test_step_effect : (go (exec (.stepOpen 0) (withD stpD))).core.openReady 4 = true ∧
    (go (exec (.stepOpen 0) (withD stpD))).core.stp.head = none ∧
    (go (exec .stepOpenEffect (go (exec (.stepOpen 0) (withD stpD))))).core.step = 4 := by decide +kernel

/-- Step 4 is open with one microbatch of boundary 4096 and interior `i`, and a microbatch descriptor is there. -/
def mbD (op : Nat) : Desc := mkD 0x71 [(18, 1, op), (24, 8, 2 ^ 32)]
def mbS (op i : Nat) (mbs : KMap Mb) : State := withD (mbD op) fun c =>
  { mem9 c with step := 4, stp := { c.stp with isOpen := true, everOpened := true, head := some { step := 4, n := 1 }, pal := { n := 1, b := 4096, i := i, r := 4096, tail := 8192, mbs := mbs } } }

theorem test_mb_full : (mbS 1 4096 []).issues 0 (mbD 1) 0x71 ∧ (firstBad ((mbS 1 4096 []).core.mbChecks (mbD 1))).isNone = true ∧
    (mbS 1 4096 []).core.ringClaim = some 8192 ∧ (mbS 1 4096 []).core.auxBad (2 ^ 32) 8 = none ∧
    Mem.num (go (exec (.microbatchOpen 0) (mbS 1 4096 []))).core.mem.mem (2 ^ 32) 8 = 1 := by decide +kernel

/-- Another microbatch holds the claim that the ring's tail comes to. -/
def mbHeld : KMap Mb := [(5, { full := true, base := 8192, closed := false })]

theorem test_mb_boundary : (mbS 1 4096 mbHeld).core.ringClaim = none ∧
    (firstBad ((mbS 1 4096 mbHeld).core.mbChecks (mbD 1))).isNone = true ∧
    Mem.num (go (exec (.microbatchOpen 0) (mbS 1 4096 mbHeld))).core.mem.mem (2 ^ 32) 8 = 2 := by decide +kernel

theorem test_mb_close : (firstBad ((mbS 2 4096 [(0, { full := true, base := 8192, closed := false })]).core.mbChecks (mbD 2))).isNone = true ∧
    (KMap.get? (go (exec (.microbatchClose 0) (mbS 2 4096 [(0, { full := true, base := 8192, closed := false })]))).core.stp.pal.mbs 0).map
      (·.closed) = some true := by decide +kernel

/-- An update of hod 0 (32 elements, one row) of the COMMITTED step 4: masters, grouts, momentum from 2^32, the image of +1.0 gradients. -/
def updD (opt : Nat) : Desc := mkD 0x72 [(16, 8, 2 ^ 32), (24, 8, 2 ^ 32 + 64), (32, 8, 2 ^ 32 + 128), (40, 8, 2 ^ 32 + 192),
  (48, 8, if opt = 1 then 2 ^ 32 + 512 else 0), (76, 4, 4), (80, 4, 1), (84, 4, 32), (92, 4, 1), (108, 4, if opt = 1 then 0x3F800000 else 0), (126, 1, opt)]
def updS (opt : Nat) : State := withD (updD opt) fun c =>
  let c := (((mem9 c).setObj 0x8010 1 (2 ^ 32 + 4096)).setObj 0x8010 2 1)
  let c := { ((c.setObj 0x8012 1 (2 ^ 32 + 8192)).setObj 0x8012 3 (2 ^ 32 + 16384)) with mem := { c.mem with mem := memAt [(4096, 4, 1), (4100, 4, 32), (16384, 4, 1), (16388, 4, 4)] } }
  { c with step := 4, stp := { c.stp with everOpened := true, tail := some { step := 4, st := 3 }, banks := [(0, {}), (1, { state := 4, byStep := true })] } }

theorem test_update_checks (opt : Fin 3) : (updS opt).issues 0 (updD opt) 0x72 ∧ (firstBad ((updS opt).core.updChecks (updD opt))).isNone = true ∧
    (updS opt).core.uus ≠ [] ∧ (updS opt).core.jApplied 0 = false ∧ (updS opt).core.jStarted 0 = false := by
  revert opt; decide +kernel

/-- Where an update's operands lie: what it reads in P9, and the masters' band apart from the other bands. -/
def updOk (opt : Nat) : Bool :=
  let c := (updS opt).core
  let x := updD opt
  let a := x.f 16 8 + 2 * x.u0
  let n := x.uCount
  let apart (b m : Nat) : Bool := decide (a + 2 * n ≤ b) || decide (b + m ≤ a)
  only9 c && (c.updRanges x true).all (fun r => in9 r.2.1 r.2.2) && apart (x.f 24 8 + x.u0) n && apart (x.f 32 8 + x.u0) n &&
    apart x.uLines.1 x.uLines.2 && apart (x.f 48 8 + x.u0) n && !(c.stp.tail.any fun t => t.nonfinite) && x.uFmt == 0 && n == 32

theorem test_update_reads (opt : Fin 3) : updOk opt = true := by revert opt; decide +kernel

/-- A REFRESH outside a step of 32 masters into bank 1, with a forward format of BF16. -/
def refD : Desc := mkD 0x72 [(16, 8, 2 ^ 32), (24, 8, 2 ^ 32 + 64), (76, 4, 1), (80, 4, 1), (84, 4, 32), (92, 4, 1), (126, 1, 3), (127, 1, 8)]
def refS : State := withD refD fun c => ((mem9 c).setObj 0x7201 3 (2 ^ 32 + 4096)).setObj 0x7201 4 4096

theorem test_refresh : refS.issues 0 refD 0x72 ∧ (firstBad (refS.core.updChecks refD)).isNone = true ∧ refS.core.outside refD = true ∧
    refS.core.uus ≠ [] ∧ only9 refS.core = true ∧ ((refS.core.updRanges refD false).all fun r => in9 r.2.1 r.2.2) = true ∧
    ((go (exec (.refresh 0) refS)).core.bank 1).state = 4 := by decide +kernel

/-- Step 4 committed, bank 1 requested. -/
def bankS (x : Desc) (b0 b1 : Bank) (st : Nat) : State := withD x fun c =>
  { mem9 c with stp := { c.stp with everOpened := true, tail := if st = 0 then none else some { step := 4, st := st }, banks := [(0, b0), (1, b1)] } }
def newest : Bank := { state := 1, version := 7, holds := true }

theorem test_grant : (bankS doneD newest { state := 3, byStep := true } 2).core.bankFree 1 = true ∧
    ((go (exec (.bankGrant 1) (bankS doneD newest { state := 3, byStep := true } 2))).core.bank 1).state = 4 := by decide +kernel

def pubD : Desc := mkD 0x73 [(20, 1, 1), (24, 4, 4)]
def pubS : State := bankS pubD newest { state := 4, byStep := true } 3

theorem test_publish : pubS.issues 0 pubD 0x73 ∧ (firstBad (pubS.core.curtainChecks pubD)).isNone = true ∧ pubS.core.newest = some 0 ∧
    ((go (exec (.publish 0) pubS)).core.bank 1).version = 8 ∧ ((go (exec (.publish 0) pubS)).core.bank 0).state = 2 := by decide +kernel

def loadD : Desc := mkD 0x73 [(16, 4, 9), (20, 1, 2), (21, 1, 1)]
def loadBankS : State := bankS loadD newest {} 0

theorem test_load : loadBankS.issues 0 loadD 0x73 ∧ (firstBad (loadBankS.core.curtainChecks loadD)).isNone = true ∧
    ((go (exec (.load 0) loadBankS)).core.bank 1).version = 9 := by decide +kernel

/-- An export of bank 0's first 4,096 bytes to host memory at 0. -/
def expD : Desc := mkD 0x74 [(16, 4, 7), (32, 8, 4096), (48, 8, 2 ^ 32)]
def expS : State := let s := bankS expD newest {} 0
  { s with core := (s.core.setObj 0x7200 3 (2 ^ 32 + 4096)).setObj 0x7200 4 4096 }

theorem test_export : expS.issues 0 expD 0x74 ∧ (firstBad (expS.core.exportChecks expD)).isNone = true ∧
    expS.core.lbad (2 ^ 32) 16 = none ∧ expS.core.lbad (2 ^ 32 + 4096) 4096 = none ∧ (expS.core.bank 0).holds = true := by decide +kernel

/-- An export to a peer that gets no answer. -/
def lateS : State := { expS with core := { expS.core with stp := { expS.core.stp with
  exports := [(0, { bank := 0, src := 2 ^ 32 + 4096, dst := 0, peer := 1, left := [], flight := 1, crc := 5, at_ := 0 })] } } }

theorem test_export_late : (KMap.get? lateS.core.stp.exports 0).isSome = true ∧
    Mem.num (go (exec (.exportTimeout 0) lateS)).core.mem.mem (2 ^ 32) 9 = 4 * 2 ^ 64 + 5 := by decide +kernel

/-! ### The exchange -/

/-- Step 4 is open with members 0, 1 and 2; hod 0 (one block) is this member's, hod 1 (one block) is member 1's ring hod. -/
def xM : Mem := memAt [(4096, 4, 1), (4100, 4, 32), (4128, 4, 1), (4132, 4, 32), (4142, 1, 1), (4143, 1, 1), (4144, 8, 4096)]
def xSlot : StepSlot := { step := 4, n := 1, members := [0, 1, 2] }
def xS (f : Core → Core := id) : State := withC .run fun c =>
  let c := ((mem9 c).setObj 0x8010 1 (2 ^ 32 + 4096)).setObj 0x8010 2 2
  let c := (c.setObj 0x8012 1 (2 ^ 32 + 8192)).setObj 0x8012 3 (2 ^ 32 + 16384)
  let c := ((c.setObj 0x8011 3 8).setObj 0x8200 1 0).setObj 0x8200 2 0
  let c := (c.setObj 0x8011 1 (2 ^ 32 + 2 ^ 20)).setObj 0x8011 2 4096
  let c := { c with mem := { c.mem with mem := xM }, step := 4, links := { c.links with ports := [(0, { state := 3 })] } }
  f { c with stp := { c.stp with isOpen := true, everOpened := true, head := some xSlot }, xch := { c.xch with next := [0, 1, 2] } }

/-- A message of member 1 on hod 0, one block of 1.0 and zeros in B8e. -/
def depM : XMsg := { step := 4, hod := 0, first := 0, kind := 1, sender := 1, count := 1, esc := 0, contribs := 1, sent := 1, imageOff := 0
                     payload := toLE 2 127 ++ [0x3C] ++ List.replicate 201 0 }

/-- The accumulator slots begin here. -/
def accBase : Nat := 2 ^ 32 + 2 ^ 20

/-- A free slot is taken: its place, apart from the hod's row and the pools. -/
theorem test_slot_opens : ((xS.core.openSlot 0).slot? 0).map (fun a => ((xS.core.openSlot 0).slotBase a, a.first, a.ended)) = some (accBase, 0, []) ∧
    accBase % 128 = 0 ∧ xS.core.obj 0x8010 1 + 32 * 0 + 32 ≤ accBase ∧
    ((List.range 4).all fun k => !xS.core.meetsArea k accBase (4 * 32 + 2 * 1 + 1088)) = true := by decide +kernel

theorem test_deposit : exServes xS.dev = true ∧ xS.core.clean ∧ xS.core.ownsHod depM = true ∧ (xS.core.hod 0).ring = false ∧ xS.core.slot? 0 = none ∧
    xS.core.xch.slots.length < xS.core.obj 0x8011 3 ∧ 0 ∉ xS.core.xch.closed := by decide +kernel

/-- The block's first arrival at a slot that is taken. -/
def firstS : State := xS fun c => { c with xch := { c.xch with slots := [{ hod := 0 }] } }

theorem test_deposit_first : firstS.core.slotCnt accBase (firstS.core.hod 0) 0 = 0 ∧
    Mem.num (go (exec (.depositReceived depM) firstS)).core.mem.mem accBase 4 = 0x3F800000 ∧
    Mem.num (go (exec (.depositReceived depM) firstS)).core.mem.mem (accBase + 128) 2 = 1 := by decide +kernel

/-- The same block came before: its sum begins with 1.0. -/
def accS : State := xS fun c => { c with
  mem := { c.mem with mem := Mem.write (Mem.write c.mem.mem accBase (toLE 4 0x3F800000)) (accBase + 128) [1, 0] }
  xch := { c.xch with slots := [{ hod := 0 }] } }

theorem test_deposit_adds : (accS.core.slot? 0).isSome = true ∧ accS.core.slotCnt accBase (accS.core.hod 0) 0 = 1 ∧
    Mem.num (go (exec (.depositReceived depM) accS)).core.mem.mem accBase 4 = 0x40000000 ∧
    Mem.num (go (exec (.depositReceived depM) accS)).core.mem.mem (accBase + 130 + 4) 4 = 1 := by decide +kernel

/-- An END of member 1, while member 2's has not come. -/
theorem test_end : ((go (exec (.endReceived { depM with kind := 2, count := 0 }) accS)).core.slot? 0).map (·.ended) = some [1] := by decide +kernel

theorem test_not_owner : xS.core.ownsHod { depM with hod := 1 } = false := by decide +kernel

/-- Both deadlines are 1,000 ns, and 1,000 ns have passed since the open and the first arrival. -/
def lateS2 (t : Nat) : State := { accS with core := { ((accS.core.setObj 0x8020 1 1000).setObj 0x8020 2 1000) with now := t } }

theorem test_hod_open : (lateS2 1000).core.hodOpen 0 = true ∧ ((lateS2 1000).core.hod 0).blocks = 1 ∧ (lateS2 1000).core.openDue = true ∧
    (lateS2 999).core.openDue = false ∧ 0 ∈ (go (exec (.hodDeadlineOpen 0) (lateS2 1000))).core.xch.closed := by decide +kernel

theorem test_hod_first : (lateS2 1000).core.firstDue 0 = true ∧ (lateS2 999).core.firstDue 0 = false ∧
    0 ∈ (go (exec (.hodDeadlineFirst 0) (lateS2 1000))).core.xch.closed := by decide +kernel

/-- The first bytes of the image of hod 1. -/
def imgM : XMsg := { depM with kind := 5, hod := 1, payload := List.replicate 204 7 }
def imgS : State := xS fun c => (c.setJ 1 4 0)
def imgS2 (n : Nat) : State := { imgS with core := { imgS.core with xch := { imgS.core.xch with imgGot := [(1, if n = 0 then [] else [(0, n)])] } } }

theorem test_image_part : imgS.core.holdOff 1 = false ∧ imgS.core.heldFor 1 4 = false ∧ imgS.core.jStep 1 = 4 ∧ imgS.core.clean ∧
    (KMap.get? (imgS2 0).core.xch.imgGot 1).isSome = true ∧
    KMap.get? (go (exec (.imageReceived imgM) (imgS2 0))).core.xch.imgGot 1 = some [(0, 204)] := by decide +kernel

/-- The image of hod 0 that its owner forms, in the parts it sends. -/
def imgParts : List XMsg := (((lateS2 1000).core.closeHod 0 true).xch.out.filter fun o => o.tgt == 1).map (·.msg)
def imgLast : XMsg := imgParts.getD 1 depM

/-- A member that has voted holds the first part. -/
def lastS : State := xS fun c => { (c.setJ 0 4 0) with
  mem := { (c.setJ 0 4 0).mem with mem := Mem.write (c.setJ 0 4 0).mem.mem (2 ^ 32 + 8192) ((imgParts.getD 0 depM).payload) }
  xch := { c.xch with voted := true, imgGot := [(0, [(0, 204)])] } }

theorem test_image_ends : imgLast.imageOff = 204 ∧ (lastS.core.hod 0).imgBytes = 224 ∧ lastS.core.holdOff 0 = false ∧
    lastS.core.heldFor 0 4 = false ∧ lastS.core.jStep 0 = 4 ∧ lastS.core.xch.voted = true ∧
    ((addRange (204, 224) [(0, 204)]).any fun r => r.1 == 0 && 224 ≤ r.2) = true ∧
    (go (exec (.imageReceived imgLast) lastS)).core.jHeld 0 = true := by decide +kernel

theorem test_image_good : let c := lastS.core.put (2 ^ 32 + 8192 + 204) (bytesAt imgLast.payload 0 20)
    c.hod 0 = lastS.core.hod 0 ∧ c.jAddr 0 = lastS.core.jAddr 0 ∧ imageGood (c.bytes (2 ^ 32 + 8192) 224) 4 0 1 = true := by
  decide +kernel

/-- A tail step that has not applied hod 1 keeps its image. -/
theorem test_image_busy : (xS fun c => { (c.setJ 1 3 1) with stp := { c.stp with tail := some { step := 3, st := 2 } } }).core.holdOff 1 = true := by
  decide +kernel

theorem test_image_again : (xS fun c => c.setJ 0 4 1).core.jHeld 0 = true ∧
    ((go (exec (.imageRequestedAgain 2 0) (xS fun c => c.setJ 0 4 1))).core.xch.out.filter fun o => o.tgt == 2 && o.msg.kind == 5).length =
      ceilDiv ((xS).core.hod 0).imgBytes 204 := by decide +kernel

/-- This hop holds its own block of hod 1: its slot counts one. -/
def ringS : State := xS fun c => { c with
  mem := { c.mem with mem := Mem.write c.mem.mem (accBase + 128) [1, 0] }, xch := { c.xch with slots := [{ hod := 1 }] } }
def ringM : XMsg := { depM with kind := 3, hod := 1, sender := 2 }

theorem test_ring_hop : nextOf [0, 1, 2] 0 = some 1 ∧ (ringS.core.hod 1).ring = true ∧ ownerIn [0, 1, 2] (ringS.core.hod 1).owner = 1 ∧
    nextOf [0, 1, 2] 1 = some 2 ∧ (ringS.core.slot? 1).map (fun a => ringS.core.slotCnt (ringS.core.slotBase a) (ringS.core.hod 1) 0) = some 1 ∧ ringS.core.xch.closed = [] ∧
    ((go (exec (.ringReceived ringM) ringS)).core.xch.out.map fun o => (o.tgt, o.msg.kind, o.msg.contribs)) = [(1, 3, 2)] := by decide +kernel

/-- Its sum of the block begins with 1.0: 1.0 + 1.0 = 2.0 goes on at the exponent that came in. -/
def sumRingS : State := { ringS with core := { ringS.core with mem := { ringS.core.mem with
  mem := Mem.write ringS.core.mem.mem accBase (toLE 4 0x3F800000) } } }

theorem test_ring_sum : (ringBlocks ringM 1 0 0).map (fun b => (b.1, b.2.1)) = [(127, false)] ∧
    ((List.range 4).all fun k => !sumRingS.core.meetsArea k accBase 128) = true ∧ sumRingS.core.clean ∧
    ((go (exec (.ringReceived ringM) sumRingS)).core.xch.out.map fun o => (o.msg.esc, o.msg.payload.take 4)) =
      [(0, [127, 0, 0x40, 0])] := by decide +kernel

/-- A block whose exponent came in as 0 goes on at its own with the margin (R285). -/
def zeroM : XMsg := { ringM with payload := List.replicate 204 0 }

theorem test_ring_first : (ringBlocks zeroM 1 0 0).map (fun b => b.1) = [0] ∧
    (((go (exec (.ringReceived zeroM) sumRingS)).core.xch.out.map fun o => o.msg.payload.take 2)) =
      [toLE 2 (sumRingS.core.firstExp 0 (.ofNat 1 :: List.replicate 31 (.zero false)))] := by decide +kernel

/-- It has sent its last block. -/
def ringEndS : State := xS fun c => { c with xch := { c.xch with slots := [{ hod := 1, done := [0] }] } }

theorem test_ring_end : ((go (exec (.ringEndReceived { ringM with kind := 4, count := 0, payload := toLE 204 4 }) ringEndS)).core.xch.out.map fun o =>
    (o.tgt, o.msg.kind, o.msg.payload.take 2)) = [(1, 4, [5, 0])] := by decide +kernel

/-- A ring message of tag 9 that waits for its answer, or for its timer. -/
def outS (again : Bool) : State := xS fun c => { c with xch := { c.xch with out := [{ die := 0, tgt := 1, msg := ringM, tag := some 9, again := again }] }
                                                        links := { c.links with txns := [] } }

theorem test_hop_timeout : ((outS false).core.outByTag 9 false).isSome = true ∧ (outS false).core.links.tagWaits = [] ∧
    ((go (exec (.ringHopTimeout 9) (outS false))).core.xch.out.map (·.tgt)) = [2] := by decide +kernel

theorem test_resend : ((outS true).core.outByTag 9 true).isSome = true ∧ (go (exec (.resendTimer 9) (outS true))).core.obj 0x8880 7 = 1 := by decide +kernel
/-! ### Votes, commits, closes, rejoin -/

/-- This member leads and waits for the votes of members 1 and 2 on step 4. -/
def leadS (l : Leader) : State := xS fun c => { c with xch := { c.xch with lead := l, voted := true } }

theorem test_vote : leaderOf (xS.core.membersFor 4) = some xS.core.me ∧ xS.core.membersFor 4 = [0, 1, 2] ∧
    (go (exec (.voteReceived 4 1 false (xS.core.obj 0x8010 3) (membershipCrc [0, 1, 2])) (leadS { step := 4, votes := [0] }))).core.xch.lead.votes = [1, 0] ∧
    (go (exec (.voteReceived 4 1 false 5 0) (leadS { step := 4, votes := [0] }))).core.xch.lead.novotes = [1] := by decide +kernel

theorem test_vote_window : meets [0, 1, 2] [1, 0] = [0, 1] ∧
    (go (exec .voteWindowExpiry (leadS { step := 4, votes := [1, 0], windowAt := some 0 }))).core.xch.lead.closing.map (·.c) = [[0, 1]] := by decide +kernel

/-- This member is member 1, which the leader 0 waits for. -/
def memS (f : Core → Core := id) : State := xS fun c => f (c.setObj 0x8001 0 1)

theorem test_novote : leaderOf [0, 1, 2] = some 0 ∧ memS.core.me = 1 ∧ memS.core.xch.voted = false ∧
    (go (exec .novoteTimeout memS)).core.xch.voted = true := by decide +kernel

theorem test_commit : 4 ∉ memS.core.xch.seen ∧ 4 ∉ memS.core.xch.abandoned ∧ memS.core.step = 4 ∧ memS.core.stp.tail = none ∧
    (go (exec (.commitReceived 4 [0, 1] [] [] 5) memS)).core.stp.tail.map (fun u => (u.step, u.st, u.dropped)) = some (4, 2, true) ∧
    (go (exec (.commitReceived 4 [0, 1] [] [] 5) memS)).core.xch.next = [0, 1] := by decide +kernel

theorem test_commit_without : memS.core.plainEvents ∧ (go (exec (.commitReceived 4 [0, 2] [] [] 5) memS)).dev = .faultStop :=
  ⟨plain_of _ (by decide +kernel), by decide +kernel⟩

theorem test_abandon : memS.core.xch.heldCommit = none ∧ (go (exec (.abandonReceived 4 [2]) memS)).core.stp.head = none ∧
    (go (exec (.abandonReceived 4 [2]) memS)).core.membersAt 5 = [0, 1] ∧
    ((go (exec (.abandonReceived 3 [2]) memS)).core.stp.head.map (·.members)) = some [0, 1] := by decide +kernel

theorem test_commit_wait : (go (exec .commitWaitExpiry (memS fun c => { c with xch := { c.xch with voted := true } }))).core.xch.abandoned = [4] := by
  decide +kernel

/-- The leader waits for the fingerprints of step 3. -/
def fpS (fps : KMap (Nat × Nat)) : State := leadS { closing := [{ step := 3, c := [0, 1, 2], listeners := [], fps := fps, fpAt := some 0 }] }

theorem test_fp : ((go (exec (.fpReceived 3 1 99 0) (fpS [(0, (99, 0))]))).core.xch.lead.closing.map fun l => KMap.get? l.fps 1) =
    [some (99, 0)] := by decide +kernel

theorem test_fp_window : agreedOf [0, 1, 2] [(0, (99, 0)), (1, (99, 0)), (2, (98, 0))] = some 99 ∧
    agreedOf [0, 1, 2] [(0, (99, 0)), (1, (97, 0)), (2, (98, 0))] = none := by decide +kernel

/-- Step 3 is the tail step of member 1. -/
def tailS : State := memS fun c => { c with stp := { c.stp with head := none, tail := some { step := 3, st := 4 } } }

theorem test_close : (go (exec (.closeReceived 3 99 [2] false) tailS)).core.stp.tail = none ∧
    (go (exec (.closeReceived 3 99 [2] false) tailS)).core.xch.next = [0, 1] ∧
    (go (exec (.closeReceived 3 99 [1] false) tailS)).dev = .faultStop ∧
    (go (exec (.closeReceived 3 99 [] true) tailS)).dev = .faultStop := by decide +kernel

/-- Member 1 stands in FAULT_STOP with its fault cleared. -/
def rejS (dev : Dev) (f : Core → Core := id) : State :=
  { memS with dev := dev, core := f { memS.core with log := { memS.core.log with cleared := true } } }

theorem test_rejoin_request : (rejS .faultStop).core.reach .faultStop (.pf false) 0x8050 0 true = true ∧
    directBad (.pf false) 0x8050 0 = false ∧ (go (exec (.rejoinRequest (.pf false)) (rejS .faultStop))).core.xch.asked = true := by decide +kernel

theorem test_rejoin_again : (go (exec .rejoinReqResend (rejS .ready fun c => { c with xch := { c.xch with asked := true } }))).core.xch.asked = true := by
  decide +kernel

theorem test_rejoin_kept : (go (exec (.rejoinReqReceived 2 3) xS)).core.xch.reqs = [(2, 3)] := by decide +kernel

theorem test_rejoin_grant : (go (exec (.grantReceived 2 7 0 1 5) (rejS .faultStop fun c => { c with xch := { c.xch with asked := true } }))).dev = .rejoin ∧
    (go (exec (.grantReceived 2 7 0 1 5) (rejS .faultStop fun c => { c with xch := { c.xch with asked := true } }))).core.xch.granter = 2 := by
  decide +kernel

/-- Member 1, granted by member 2, has pulled everything, and it holds both images of step 8. -/
def pullS : State := rejS .rejoin fun c => { ((c.setJ 0 8 1).setJ 1 8 1) with
  xch := { c.xch with asked := true, grant := some (7, 0, 5), granter := 2, pullImages := true } }

theorem test_pull : pullS.core.xch.pullLeft = [] ∧ pullS.core.xch.pullFlight = 0 ∧
    ((List.range pullS.core.hodCount).all fun h => pullS.core.heldFor h 8) = true ∧ pullS.core.xch.granter ≠ pullS.core.me ∧
    (go (exec .rejoinPullDone pullS)).dev = .ready ∧ (go (exec .rejoinHoldExpiry pullS)).dev = .faultStop := by decide +kernel

theorem test_pull_plain : pullS.core.plainEvents := plain_of _ (by decide +kernel)

/-- The leader has granted a rejoin to member 2. -/
def grantS : State := xS fun c => { c with xch := { c.xch with granted := some (2, 7) } }

theorem test_done : grantS.core.xch.lead.ready = none ∧ (go (exec (.doneReceived 2) grantS)).core.xch.back = some (2, 7) ∧
    (go (exec .rejoinHoldExpiry grantS)).core.xch.granted = none := by decide +kernel

/-! ### Memory and ports -/

/-- A read of partition 9 waits on pseudo-channel 5 with tokens in its bucket; one entry of the write-combining buffer of stack 2. -/
def hbmS : State := withC .run fun c => { mem9 c with mem := { c.mem with
  reqs := [{ pc := 5, part := 9, kind := 0, at_ := 0 }], tokens := [(5 * 16 + 9, 4096000)], wcb := [⟨2, 2, 7, 9, 3, false, 0, 0⟩] } }

theorem test_hbm_slot : (hbmS.core.pickReq 5).isSome = true ∧ (go (exec (.hbmSlot 5) hbmS)).core.mem.reqs = [] ∧
    (go (exec (.hbmSlot 5) hbmS)).core.obj 0x9189 1 = 1 := by decide +kernel

theorem test_wcb : ((hbmS.core.mem.wcb.filter fun x => x.stack == 2)[0]?).isSome = true ∧
    (go (exec (.wcbAgeWriteback 2 0) hbmS)).core.mem.wcb = [] := by decide +kernel

theorem test_patrol : patrols hbmS.dev = true ∧ 2 ^ 32 < hbmS.core.hbmBytes ∧ (go (exec (.hbmPatrolScrub (2 ^ 32) 1) hbmS)).core.obj 0x9880 1 = 1 ∧
    (go (exec (.hbmPatrolScrub (2 ^ 32) 2) hbmS)).core.mem.poison = [2 ^ 32] := by decide +kernel

theorem test_tile_scrub : tsBase ≤ tsUser ∧ tsUser < tsBase + tsBytes ∧ (go (exec (.tileStoreScrub tsUser 8) hbmS)).core.obj 0x9880 6 = 1 ∧
    (go (exec (.tileStoreScrub tsUser 9) hbmS)).core.mem.poison = [tsUser] := by decide +kernel

/-- The first word of the tile store, which the device keeps for itself. -/
theorem test_tile_scrub_fixed : (go (exec (.tileStoreScrub tsBase 3) hbmS)).core.mem.poison = [tsBase] := by decide +kernel

theorem test_hbm_unpoisoned : hbmS.core.unpoisoned := by decide +kernel

/-- Kind 1 repair of target 0. -/
def repS (run : Option (Nat × Nat)) : State := withC .ready fun c => { c.setObj 0x9800 2 1 with mem := { c.mem with repairRun := run }, sec := { c.sec with level := 2 } }

theorem test_repair : (repS none).core.opGate .ready (.pf false) 0x9800 3 = stOk ∧ (repS none).core.repairTargetOk 0 1 = true ∧
    (repS none).core.spareLeft 0 1 = true ∧ (go (exec (.repairExecute (.pf false)) (repS none))).core.mem.repairRun = some (0, 1) := by decide +kernel

theorem test_repair_ends : (go (exec (.serviceRepairCompletes true) (repS (some (0, 1))))).core.mem.repairs = [(0, 1)] ∧
    (go (exec (.serviceRepairCompletes false) (repS (some (0, 1))))).core.mem.repairs = [] := by decide +kernel

/-- Port 2 in a state. -/
def portS (p : Port) : State := withC .run fun c => { c.setObj 0x8102 1 1 with links := { c.links with ports := [(2, p)] } }
def st2 (r : Host.Outcome State Fault Refusal) : Nat := ((go r).core.port 2).state

theorem test_port_trains : (portS {}).core.flag 0x8102 1 = true ∧ portsServed .run = true ∧ st2 (exec (.portTrainingStart 2) (portS {})) = 2 ∧
    st2 (exec (.trainingRetry 2) (portS {})) = 2 ∧ st2 (exec (.trainingComplete 2 0 7 3) (portS { state := 2 })) = 3 ∧
    st2 (exec (.trainingComplete 2 0 31 3) (portS { state := 2 })) = 1 := by decide +kernel

theorem test_port_lanes : ((go (exec (.trainingComplete 2 0x30 7 3) (portS { state := 2 }))).core.port 2).lanes = 4 ∧
    st2 (exec (.trainingComplete 2 0x33 7 3) (portS { state := 2 })) = 1 := by decide +kernel

/-- Port 2 in RECOVER since time 0, at a time. -/
def recS (t : Nat) : State := { portS { state := 4, recovers := [0] } with core := { (portS { state := 4, recovers := [0] }).core with now := t } }

theorem test_port_down : st2 (exec (.lossOfSignal 2) (portS { state := 3 })) = 1 ∧ st2 (exec (.recoverDone 2) (recS 2000)) = 3 ∧
    st2 (exec (.recoverDone 2) (recS 2001)) = 1 ∧ st2 (exec (.recoverTimeout 2) (recS 2000)) = 1 := by decide +kernel

/-- A flit of member 3 for this member, number 12; its CRC is good. -/
def flit : Flit := ({
  kind := 1, cls := 2, seq := 12, ack := 0, creditClass := 0, credits := 0, tkind := 1, dest := 0, src := 3, hops := 4,
  tag := 5, payload := List.replicate 240 0, fecFailed := false, crc := 0 } : Flit).seal
/-- Port 2 is ACTIVE and has a class-0 flit to send, or one to send again. -/
def txS : State := portS { state := 3, txq := [(0, [{ flit with cls := 0 }])], credits := [(0, 3)], seq := 9 }
def againS : State := portS { state := 3, replay := [{ flit := { flit with cls := 0 }, sends := 1 }], again := [12] }

/-- What a boundary in RUN does before it chooses (port 2). -/
def atBoundary (s : State) : Port := ((((s.core.settle.pullWork .run).flushAnswers).flushAcks).admitAll 2).port 2

theorem test_flit_sent : (atBoundary txS).canSend 0 = true ∧ ((atBoundary txS).headOf 0).map (·.1) = some { flit with cls := 0 } ∧
    (atBoundary txS).naks = [] ∧ (atBoundary txS).again = [] ∧ (atBoundary txS).replay = [] ∧ (atBoundary txS).state = 3 ∧
    (((go (exec (.flitBoundary 2) txS)).core.port 2).out.map (·.seq)) = some 9 ∧
    ((go (exec (.flitBoundary 2) txS)).core.port 2).credits = [(0, 2)] := by decide +kernel

/-- Class 2 has flits to send in its turn, and out of it; class-0 flits find no credit. -/
def classS (rr left : Nat) : State := portS {
  state := 3, txq := [(0, [{ flit with cls := 0 }]), (2, [flit])], credits := [(2, 3)], seq := 9, rr := rr,
  rrLeft := left }

theorem test_flit_classes : (atBoundary (classS 2 3)).canSend 0 = false ∧ (atBoundary (classS 2 3)).canSend 2 = true ∧
    ((atBoundary (classS 2 3)).headOf 2).map (·.1) = some flit ∧ (classS 2 3).core.links.ended = [] ∧
    ((go (exec (.flitBoundary 2) (classS 2 3))).core.port 2).rrLeft = 2 ∧ (atBoundary (classS 1 0)).rr % 3 + 1 = 2 ∧
    (((go (exec (.flitBoundary 2) (classS 1 0))).core.port 2).out.map (·.cls)) = some 2 ∧
    ((go (exec (.flitBoundary 2) (classS 1 0))).core.port 2).rr = 2 := by decide +kernel

/-- A NAK of number 7 is due. -/
theorem test_flit_nak : (atBoundary (portS { state := 3, naks := [7] })).naks = [7] ∧
    (((go (exec (.flitBoundary 2) (portS { state := 3, naks := [7] }))).core.port 2).out.map fun z => (z.kind, z.ack)) = some (3, 7) := by
  decide +kernel

theorem test_flit_again : (((go (exec (.flitBoundary 2) againS)).core.port 2).out.map (·.seq)) = some 12 ∧
    ((go (exec (.flitBoundary 2) againS)).core.port 2).again = [] := by decide +kernel

/-- A flit of class 2 to send again waits behind a class-0 flit that holds a credit, and goes where that holds none. -/
def again2S (n : Nat) : State := portS { state := 3, replay := [{ flit := flit, sends := 1 }], again := [12], seq := 13,
                                         txq := [(0, [{ flit with cls := 0 }])], credits := [(0, n)] }

theorem test_flit_again_behind : (atBoundary (again2S 1)).canSend 0 = true ∧ (atBoundary (again2S 0)).canSend 0 = false ∧
    (((go (exec (.flitBoundary 2) (again2S 1))).core.port 2).out.map (·.cls)) = some 0 ∧
    (((go (exec (.flitBoundary 2) (again2S 0))).core.port 2).out.map (·.seq)) = some 12 := by decide +kernel

theorem test_flit_link : ((List.range 4).all fun k => ((atBoundary (portS { state := 3 })).headOf k).isNone) = true ∧
    (((go (exec (.flitBoundary 2) (portS { state := 3 }))).core.port 2).out.map (·.kind)) = some 2 := by decide +kernel

theorem test_flit_in : flit.crcGood = true ∧ ({ flit with crc := flit.crc + 1 } : Flit).crcGood = false ∧
    ((go (exec (.txnFlitReceived 2 flit) (portS { state := 3, expect := 12 }))).core.port 2).delivered = [flit] ∧
    ((go (exec (.txnFlitReceived 2 { flit with crc := flit.crc + 1 }) (portS { state := 3, expect := 12 }))).core.port 2).naks = [12] := by decide +kernel

/-- A flit whose hops are used up is dropped, whomever it is for (R349). -/
theorem test_flit_hops : ({ flit with hops := 0 } : Flit).seal.crcGood = true ∧
    ((go (exec (.txnFlitReceived 2 ({ flit with hops := 0 } : Flit).seal) (portS { state := 3, expect := 12 }))).core.port 2).delivered = [] := by
  decide +kernel

/-- A flit for member 7 comes in at port 2 and goes on through port 1, whose class-0 meter has no token left. -/
def relayS : State := withC .run fun c => { c.setObj 0x8200 7 (9) with links := { c.links with
  ports := [(1, { state := 3, meter := 0 }), (2, { state := 3, expect := 12 })] } }

theorem test_flit_relayed : relayS.core.route 7 = .via 1 ∧ relayS.core.me ≠ 7 ∧ ({ flit with dest := 7 } : Flit).seal.crcGood = true ∧
    (KMap.getD ((go (exec (.txnFlitReceived 2 ({ flit with dest := 7 } : Flit).seal) relayS)).core.port 1).fwq 2 []).map (·.hops) = [3] ∧
    ((go (exec (.txnFlitReceived 2 ({ flit with dest := 7, cls := 0 } : Flit).seal) relayS)).core.port 1).offers.map (fun o => (o.flit.hops, o.fwd)) =
      [(3, true)] := by decide +kernel

/-- Port 2 holds flit 12 for replay, sent once or twice. -/
def nakS (n : Nat) : State := portS { state := 3, credits := [(1, 3)], replay := [{ flit := flit, sends := n }] }

theorem test_nak : ((go (exec (.nakReceived 2 12 1 5) (nakS 1))).core.port 2).again = [12] ∧
    KMap.getD ((go (exec (.nakReceived 2 12 1 5) (nakS 1))).core.port 2).credits 1 0 = 8 ∧
    st2 (exec (.nakReceived 2 12 1 5) (nakS 2)) = 4 := by decide +kernel

theorem test_link_flit : KMap.getD ((go (exec (.linkFlitReceived 2 13 0 5) (portS { state := 3, replay := [{ flit := flit, sends := 1 }] }))).core.port 2).credits 0 0 = 5 ∧
    ((go (exec (.linkFlitReceived 2 13 0 5) (portS { state := 3, replay := [{ flit := flit, sends := 1 }] }))).core.port 2).replay = [] ∧
    st2 (exec (.linkFlitReceived 2 13 0 33) (portS { state := 3 })) = 1 := by decide +kernel

/-! ### Transactions -/

/-- Peers may read and write P9; port 0 leads to member 1. -/
def peerS (f : Core → Core := id) : State := withC .run fun c =>
  let c := (((mem9 c).setObj 0x8203 1 0x200).setObj 0x8203 2 0x200).setObj 0x8200 1 0
  f { c with links := { c.links with ports := [(0, { state := 3 })] } }
def sentTo0 (r : Host.Outcome State Fault Refusal) (k : Nat) : List (Nat × Nat) :=
  (((go r).core.port 0).line k).map fun x => (x.tkind, numAt x.payload 0 1)

theorem test_peer_rd : peerS.core.peerStatus .run false (2 ^ 32) 64 = 0 ∧ peerS.core.clean ∧
    sentTo0 (exec (.rd 1 7 (2 ^ 32) 64) peerS) 2 = [(2, 0)] ∧ peerS.core.peerStatus .run false 0 64 = 1 ∧
    sentTo0 (exec (.rd 1 7 0 64) peerS) 2 = [(3, 1)] := by decide +kernel

theorem test_peer_wr : peerS.core.peerStatus .run true (2 ^ 32) 300 = 0 ∧ peerS.core.peerStatus .run true 0 2 = 1 ∧
    sentTo0 (exec (.wr 1 7 (2 ^ 32) 2 [8, 9]) peerS) 2 = [(6, 0)] ∧
    Mem.read (go (exec (.wr 1 7 (2 ^ 32) 2 [8, 9]) peerS)).core.mem.mem (2 ^ 32) 2 = [8, 9] ∧
    (go (exec (.wr 1 7 (2 ^ 32) 300 (List.replicate 224 5)) peerS)).core.links.inWrs.length = 1 ∧
    sentTo0 (exec (.wr 1 7 0 2 [8, 9]) peerS) 2 = [(6, 1)] := by decide +kernel

/-- With a quota of no entry the write waits, and its acknowledgement with it (R316, R347). -/
theorem test_wr_waits : let s := peerS fun c => c.setObj 0x9109 7 0
    ((s.core.put (2 ^ 32) [8, 9]).owe s.core (.peer 1 7)).acknowledged (.peer 1 7) = false ∧
    ((peerS.core.put (2 ^ 32) [8, 9]).owe peerS.core (.peer 1 7)).acknowledged (.peer 1 7) = true ∧
    (go (exec (.wr 1 7 (2 ^ 32) 2 [8, 9]) s)).core.links.ackWaits = [(1, 7, 2)] := by decide +kernel

/-- A WR of 4 bytes has brought 2 of them. -/
def wrS : State := peerS fun c => { c with links := { c.links with inWrs := [{ src := 1, tag := 7, addr := 2 ^ 32, len := 4, got := [1, 2] }] } }

theorem test_wr_data : (wrS.core.links.inWrs.find? fun x => x.src == 1 && x.tag == 7).isSome = true ∧
    Mem.read (go (exec (.wrData 1 7 [3, 4]) wrS)).core.mem.mem (2 ^ 32) 4 = [1, 2, 3, 4] := by decide +kernel

/-- A datagram for MEMBER (0x8001:00). -/
def dgram (cmd : Nat) : Datagram := { cmd := cmd, mode := 0, address := 0, index := 0x8001, sub := 0, status := 0, offset := 0, ack := 0, data := [0] }

theorem test_dreq : portsServed peerS.dev = true ∧ peerS.dev ≠ .rejoin ∧ sentTo0 (exec (.dreq 1 7 (dgram 1)) peerS) 0 = [(10, 1)] := by decide +kernel

/-- A transaction of this device is out under tag 9. -/
def txnS (u : TxnUse) : State := peerS fun c => { c with links := { c.links with txns := [(9, { use := u, peer := 1, addr := 2 ^ 32, len := 4, got := [], at_ := 0 })] } }

theorem test_rd_data : (go (exec (.rdData 9 [1, 2, 3, 4]) (txnS (.bar4 true)))).core.links.hostData = [1, 2, 3, 4] ∧
    (KMap.get? (go (exec (.rdData 9 [1, 2]) (txnS (.bar4 true)))).core.links.txns 9).map (·.got) = some [1, 2] ∧
    (go (exec (.rdErr 9 2) (txnS (.bar4 true)))).core.links.hostData = [0xFF, 0xFF, 0xFF, 0xFF] ∧
    (go (exec (.completionTimeout 9) (txnS (.bar4 true)))).core.obj 0x8980 4 = 1 := by decide +kernel

theorem test_wr_ack : (go (exec (.wrAck 9 0) (txnS (.bar4 false)))).core.links.txns.length = 0 ∧
    (go (exec (.dans 9 { dgram 1 with status := 3 }) (txnS .dict))).core.dict.lastStatus = 3 := by decide +kernel

/-- An exchange message is out under tag 9: its answer, or none. -/
def xmS : State := { txnS (.xmsg 0) with core := { (txnS (.xmsg 0)).core with xch := { (txnS (.xmsg 0)).core.xch with
  out := [{ die := 0, tgt := 1, tag := some 9, msg := ⟨4, 0, 0, 1, 0, 1, 0, 1, 1, 0, []⟩ }] } } }

theorem test_xans : (xmS.core.outByTag 9 false).isSome = true ∧ (go (exec (.xansReceived [{ tag := 9, code := 0 }]) xmS)).core.xch.out = [] ∧
    (go (exec (.xansReceived [{ tag := 9, code := 1 }]) xmS)).core.xch.out.map (·.again) = [true] ∧
    (go (exec (.completionTimeout 9) xmS)).core.xch.out = [] := by decide +kernel

/-! ### The object dictionary and the control ring -/

/-- The device in READY. -/
def ready (f : Core → Core := id) : State := withC .ready f

/-- Whether an access passes its gates. -/
def opens (s : State) (src : Src) (index sub : Nat) : Bool :=
  (s.core.accessGate s.dev src index sub true == stOk) && (s.core.opGate s.dev src index sub == stOk) &&
    (objRow? index sub).isSome && isScalar index sub && aliasFamily index == none

theorem test_object_write : opens ready .ring 0xB400 3 = true ∧ isSelector 0xB400 3 = false ∧ accessOf 0xB400 3 = 2 ∧
    ready.core.objSize 0xB400 3 = 2 ∧ (ownWrite .ring 0xB400 3 5 .ready ready.core).isNone = true ∧ ready.core.slotArmed 0xB400 3 = false ∧
    rwRange 0xB400 3 5 = true ∧ (go (exec (.objectWrite .ring 0xB400 3 0 [5, 0]) ready)).core.obj 0xB400 3 = 5 := by decide +kernel

theorem test_read_only : opens ready .ring 0x6003 0 = true ∧ accessOf 0x6003 0 = 1 ∧
    (go (exec (.objectWrite .ring 0x6003 0 0 [5]) ready)).core.dict.lastStatus = stDenied := by decide +kernel

/-- Alias family 0xD00E names queue 0, which runs. -/
def aliasS (mask : Nat) : State := ready fun c => (c.setObj 0xDE0E 1 mask).setQueue 0 { state := 1, head := 1, tail := 2 }

theorem test_alias : aliasFamily 0xD00E = some (0xA100, 256) ∧ (aliasS 1).core.reach .ready .ring 0xD00E 9 true = true ∧
    (aliasS 1).core.aliasMask 0xD00E = [0] ∧ (aliasS 0).core.aliasMask 0xD00E = [] ∧
    ((aliasS 1).core.writeOne .ready .ring 0xA100 9 0 [1]).2.dict.lastStatus = stOk ∧
    ((go (exec (.aliasWrite .ring 0xD00E 9 [1]) (aliasS 1))).core.queue 0).state = 3 ∧
    (go (exec (.aliasWrite .ring 0xD00E 9 [1]) (aliasS 0))).core.dict.lastStatus = stNoObject := by decide +kernel

/-- Family 0xD008 has six ports: a mask that names a seventh, and one whose port refuses the value (Table 12.3). -/
theorem test_alias_fails : aliasFamily 0xD008 = some (0x8100, 6) ∧ (ready fun c => c.setObj 0xDE08 1 0x40).core.aliasMask 0xD008 = [6] ∧
    (ready fun c => c.setObj 0xDE08 1 1).core.aliasMask 0xD008 = [0] ∧
    (ready.core.writeOne .ready .ring 0x8100 1 0 [2]).2.dict.lastStatus = stType ∧
    (go (exec (.aliasWrite .ring 0xD008 1 [2]) (ready fun c => c.setObj 0xDE08 1 1))).core.dict.lastStatus = stType := by decide +kernel

/-- A direct write of a U16: 4 or 8 bytes, those past the second zero (R379). -/
theorem test_direct_write : directSize 0xB400 3 = some 2 ∧ directValue 0xB400 3 0 [5, 0, 0, 0] = some [5, 0] ∧
    directValue 0xB400 3 0 [5, 0, 1, 0] = none ∧ opens ready (.pf true) 0xB400 3 = true ∧
    (go (exec (.objectWrite (.pf true) 0xB400 3 0 [5, 0, 0, 0]) ready)).core.obj 0xB400 3 = 5 ∧
    (go (exec (.objectWrite (.pf true) 0xB400 3 0 [5, 0]) ready)).core.dict.lastStatus = stType := by decide +kernel

/-- A virtual function reads the status of its own mailbox (R352, R380). -/
theorem test_vf_mailbox : (go (exec (.directAccessRead 3 0x2008 4) (ready fun c => { c with dict := { c.dict with
    mboxLast := [(3, 0x506)] } }))).core.links.hostData = [6, 5, 0, 0] := by decide +kernel

theorem test_direct : (go (exec (.directAccessRead 0 (0x6003 * 2048) 4) ready)).core.links.hostData = [8, 0, 0, 0] ∧
    (go (exec (.directAccessRead 0 (0xB031 * 2048) 4) ready)).core.links.hostData = [0xFF, 0xFF, 0xFF, 0xFF] := by decide +kernel

/-- A datagram that reads the number of page slots (0x6003:00). -/
def readD : Datagram := { cmd := 1, mode := 0, address := 0, index := 0x6003, sub := 0, status := 0, offset := 0, ack := 0, data := [0] }

theorem test_mailbox : (KMap.get? (go (exec (.mailboxDoorbell 0 readD) ready)).core.dict.mbox 0).map (fun g => (g.status, g.data)) = some (stOk, [8]) := by decide +kernel

theorem test_mailbox_busy : (go (exec (.mailboxDoorbell 0 readD) (ready fun c => { c with dict := { c.dict with mboxDone := [(0, 9)] } }))).core.obj 0x1880 0xC = 1 := by
  decide +kernel

theorem test_staging : opens ready .ring 0x6004 0 = true ∧ accessOf 0x6004 0 = 4 ∧ (ownWrite .ring 0x6004 0 5 .ready ready.core).isNone = true ∧
    KMap.get? (go (exec (.stagingWrite .ring 0x6004 0 [5]) ready)).core.dict.staged (okey 0x6004 0) = some 5 := by decide +kernel

/-- A staging set of the ring: the restart limit of lists, or a partition base that is not aligned. -/
def ksS (k v : Nat) : State := ready fun c => { c with dict := { c.dict with staged := [(k, v)], owner := ownerCode .ring } }

/-- What a keystone leaves alone: a staged object of the memory, one that is written plainly. -/
theorem test_settable : accessOf 0x9101 1 = 4 ∧ accessOf 0xB400 3 = 2 := by decide +kernel

theorem test_keystone : (ksS (okey 0x6004 0) 5).core.opGate .ready .ring 0x1F00 0 = stOk ∧
    ksFailing .ready (ksS (okey 0x6004 0) 5).core (ksS (okey 0x6004 0) 5).core.overlay [okey 0x6004 0] = none ∧
    (go (exec (.keystoneApply .ring) (ksS (okey 0x6004 0) 5))).core.obj 0x6004 0 = 5 ∧
    (go (exec (.keystoneDiscard .ring) (ksS (okey 0x6004 0) 5))).core.dict.staged = [] ∧
    (go (exec .stagingHoldExpiry (ksS (okey 0x6004 0) 5))).core.dict.ksResult = 5 := by decide +kernel

theorem test_keystone_fails : (ksFailing .ready (ksS (okey 0x9101 1) 5).core (ksS (okey 0x9101 1) 5).core.overlay [okey 0x9101 1]).isSome = true ∧
    (go (exec (.keystoneApply .ring) (ksS (okey 0x9101 1) 5))).core.dict.ksResult = 2 := by decide +kernel

/-- Both ring ports are up. -/
def ringS2 (f : Core → Core := id) : State := ready fun c => f { c with dict := { c.dict with k0 := true, k1 := true } }
/-- A frame that writes 5 to the detector of injection slot 0, at ring position 0. -/
def wrD : Datagram := { cmd := 2, mode := 0, address := 0, index := 0xB400, sub := 3, status := 0, offset := 0, ack := 0, data := [5, 0] }
def frame (good : Bool) : KFrame := { etherType := 0x88B5, vlan := false, size := 64, version := 1, ident := 0, datagrams := [wrD], fcsGood := good }

theorem test_frame : ringS2.core.kUp 1 = true ∧ ringS2.core.kEntry = some 0 ∧ foreign (frame true) = false ∧ ringS2.core.addressed wrD = true ∧
    frameFits (frame true) = true ∧ (go (exec (.kimalFrame 0 (frame true)) ringS2)).core.obj 0xB400 3 = 5 ∧
    (go (exec (.kimalFrame 0 (frame false)) ringS2)).core.obj 0xB400 3 = 0xFFFF ∧
    (go (exec (.kimalFrame 1 (frame true)) ringS2)).core.dict.ringOut = some (0, frame true) := by decide +kernel

theorem test_ring_links : (go (exec (.kimalLinkDown 1) ringS2)).core.kUp 1 = false ∧ (go (exec (.kimalLinkUp 1) ready)).core.kUp 1 = true := by
  decide +kernel

theorem test_time_set : (ringS2 fun c => c.setObj 0x1030 1 1).core.opGate .ready .ring 0x1030 3 = stOk ∧
    (go (exec (.timeSet .ring 77) (ringS2 fun c => c.setObj 0x1030 1 1))).core.now = 77 ∧
    (go (exec (.timeSet .ring 77) ringS2)).core.dict.lastStatus = stDenied := by decide +kernel

theorem test_probes : (go (exec (.delayProbe 1 (some 90) (some 10)) ringS2)).core.obj 0x1031 2 = 40 ∧
    (go (exec (.probeBlockReceived 1 0) ringS2)).core.dict.probeOut = [(1, 0, some 0)] ∧
    ((go (exec (.delayProbe 1 none none) ringS2)).core.dict.probeOut) = [(1, 0, none)] ∧
    (go (exec .syncLoss ringS2)).core.obj 0x1030 4 = 0 := by decide +kernel

/-! ### Power, security, events, injection -/

def rep (fault : Bool) : StageReport := { inMv := 48000, inMa := 10000, inMw := 480000, outMa := 0, tempMc := 50000, status := 0, warning := false, fault := fault }

theorem test_power_estimate : (go (exec (.powerEstimate 500000) ready)).core.pow.estimate = 500000 ∧
    (go (exec (.stagePoll (rep false)) ready)).core.pow.correction = 480000 - ready.core.pow.estimate ∧
    (go (exec .stageSilent ready)).core.pow.guard = true ∧
    (go (exec .stageSilent (ready fun c => { c with pow := { c.pow with correction := 5 } }))).core.pow.correction = 0 := by decide +kernel

theorem test_power_window : (go (exec (.powerEstimate (10 ^ 10)) (ready fun c => { c with pow := { c.pow with recent := List.replicate 999 0 } }))).core.obj 0x2880 5 = 1 ∧
    (go (exec (.powerEstimate (10 ^ 10)) (ready fun c => { c with pow := { c.pow with recent := List.replicate 998 0 } }))).core.obj 0x2880 5 = 0 := by
  decide +kernel

theorem test_stage_fault : ready.core.plainEvents ∧ (go (exec (.stagePoll (rep true)) ready)).dev = .faultStop :=
  ⟨plain_of _ (by decide +kernel), by decide +kernel⟩

theorem test_governor : ready.core.pow.limited = false ∧ (go (exec (.governorCycle [] []) ready)).core.obj 0x2880 1 = 1 ∧
    3 ∉ ready.core.pow.idle ∧ (go (exec (.idleDrop 3) (ready fun c => { c with now := 100000 }))).core.obj 0x2103 4 = 4 ∧
    (go (exec (.idleDrop 3) (ready fun c => { c with now := 99999 }))).core.obj 0x2103 4 = 0 := by decide +kernel

theorem test_rail : (go (exec (.railMonitorSample 2 750) ready)).dev = .ready ∧
    (go (exec (.railMonitorSample 2 500) (ready fun c => { c with pow := { c.pow with underFor := [(2, 19)] } }))).dev = .faultStop ∧
    (go (exec (.railMonitorSample 2 950) (ready fun c => { c with pow := { c.pow with overFor := [(2, 19)] } }))).dev = .faultStop := by decide +kernel

/-- A supply far below its range pulls PWR_GOOD down at its first sample (R464). -/
theorem test_rail_low : 6 ≤ 18 ∧ (go (exec (.railMonitorSample 18 0) ready)).core.pins.low = [18] ∧
    (go (exec (.railMonitorSample 18 0) ready)).core.pwrGoodPin = false ∧
    (go (exec (.railMonitorSample 18 (fixedMv 18)) ready)).core.pins.low = [] := by decide +kernel

/-- The 128 readings: the first as given, the others cool. The thermal voltage stands at 700 mV, and a domain wants some. -/
def temps (x : Int) : List Int := x :: List.replicate 127 40000
def thermS (wanted : Nat) : State := ready fun c => { c with pow := { c.pow with thermal := 700, wanted := [wanted] } }

theorem test_temperature : (go (exec (.temperatureRead (temps 110000) []) (thermS 800))).core.pins.thermTrip = true ∧
    (go (exec (.temperatureRead (temps 110000) []) (thermS 800))).core.pow.thermal = 695 ∧
    (go (exec (.temperatureRead (temps 40000) []) (thermS 800))).core.pow.thermal = 705 ∧
    (go (exec (.temperatureRead (temps 40000) []) (thermS 700))).core.pow.thermal = 700 ∧
    (go (exec (.temperatureRead (temps 94000) []) (thermS 800))).core.pow.thermal = 700 := by decide +kernel

/-- The core dies' reports count with their stack, and the last ones go on counting (R411). -/
theorem test_core_reports : ready.core.coreDies = 16 ∧
    (go (exec (.temperatureRead (temps 40000) (List.replicate 127 40000 ++ [90000])) ready)).core.obj 0x2200 12 = milliI 90000 ∧
    (go (exec (.temperatureRead (temps 40000) []) (ready fun c => { c with pow := { c.pow with cores := List.replicate 128 90000 } }))).core.obj 0x2200 5 =
      milliI 90000 := by decide +kernel

theorem test_pll : (go (exec (.pllLockLoss 10) (ready fun c => { c with links := { c.links with ports := [(0, { state := 3 })] } }))).core.obj 0x230A 3 = 1 ∧
    (go (exec (.pllLockLoss 20) ready)).dev = .faultStop ∧ (go (exec (.pllLockLoss 38) ready)).dev = .faultStop ∧
    (go (exec (.pllLockLoss 38) ready)).core.obj 0x231D 3 = 1 := by decide +kernel

/-- A key of order 1, and the signature it takes for every message. -/
def key1 : List Byte := 1 :: List.replicate 31 0
def sig1 : List Byte := 1 :: List.replicate 63 0

theorem test_signature : sigOk key1 [1, 2, 3] sig1 = true ∧ sigOk key1 [1, 2, 3] (2 :: List.replicate 63 0) = false := by decide +kernel

/-- A challenge of zeros is live; the debug keys are that key. -/
def secS (f : Sec → Sec := id) : State := ready fun c => { c with sec := f { c.sec with
  challenge := some (List.replicate 32 0), debugKeys := [key1], ownerDebugKeys := [key1], configKeys := [key1], enrolKeys := [key1] } }
/-- A response for level 1 with the owner's debug key. -/
def resp (good : Bool) : List Byte := [1, 1, 0, 0, 0, 0, 0, 0] ++ (if good then sig1 else 2 :: List.replicate 63 0)

theorem test_challenge : ready.core.opGate .ready .ring 0xC100 1 = stOk ∧ ringOrPf .ring = true ∧ ready.core.sec.locked = false ∧
    ready.core.opGate .ready .ring 0xC100 3 = stOk ∧ (go (exec (.challengeRequest .ring) ready)).core.sec.challenge.isSome = true ∧
    (go (exec .challengeExpiry secS)).core.sec.challenge.isSome = true ∧
    (go (exec .challengeExpiry { secS with core := { (secS).core with now := 60000000000 } })).core.sec.challenge = none := by decide +kernel

theorem test_response : sigOk key1 (List.replicate 32 0 ++ secS.core.serialBytes ++ toLE 1 1) (bytesAt (resp true) 8 64) = true ∧
    (resp true).length = 72 ∧ (go (exec (.response .ring (resp true)) secS)).core.sec.level = 1 := by decide +kernel

theorem test_response_bad : (go (exec (.response .ring (resp false)) secS)).core.obj 0xC100 5 = 1 ∧
    (go (exec (.response .ring (resp false)) { secS with core := secS.core.setObj 0xC100 5 7 })).core.sec.locked = true ∧
    (go (exec (.challengeRequest .ring) (secS fun s => { s with locked := true }))).core.dict.lastStatus = stDenied := by decide +kernel

theorem test_nonce : ready.core.opGate .ready .ring 0xC200 1 = stOk ∧ ready.core.sec.identity = true ∧
    (go (exec (.quoteNonce .ring (List.replicate 32 6)) ready)).core.sec.nonce = some (List.replicate 32 6) := by decide +kernel

theorem test_quote : (go (exec .quoteReady (secS fun s => { s with nonce := some (List.replicate 32 6) }))).core.obj 0xC880 1 = 1 := by decide +kernel

/-- The code of the SPDM answer to a command. -/
def spdmCode (i : Instr) (f : Sec → Sec := id) : Nat :=
  numAt (go (exec i { secS f with core := { (secS f).core with pins := { (secS f).core.pins with perstN := true } } })).core.sec.doe 1 1

theorem test_spdm : secS.dev ≠ .boot ∧ secS.core.sec.identity = true ∧ spdmCode .getVersion = 0x04 ∧
    spdmCode .getCapabilities = 0x61 ∧ spdmCode (.negotiateAlgorithms [1]) = 0x63 ∧ spdmCode .getDigests = 0x7F ∧
    spdmCode (.spdmUnsupported 5) = 0x7F ∧ spdmCode .getVersion (fun s => { s with identity := false }) = 0x7F := by decide +kernel

theorem test_spdm_after : spdmCode .getDigests (fun s => { s with spdmAlgs := true }) = 0x01 ∧
    spdmCode (.getCertificate 0 0 16) (fun s => { s with spdmAlgs := true }) = 0x02 ∧
    spdmCode (.challenge 0 (List.replicate 32 0)) (fun s => { s with spdmAlgs := true }) = 0x03 ∧
    spdmCode (.getMeasurements 0 (List.replicate 32 0)) (fun s => { s with spdmAlgs := true }) = 0x60 := by decide +kernel

/-- Updates of bank 1. -/
def updtS (f : Sec → Sec := id) : State := ready fun c => { c.setObj 0xC300 1 1 with sec := f { c.sec with bank := 0, updBank := 1 } }
/-- The command that runs, and the status. -/
def updAfter (r : Host.Outcome State Fault Refusal) : Option Nat × Nat := ((go r).core.sec.updRun, (go r).core.obj 0xC300 3)

theorem test_update_gate : updtS.core.opGate .ready .ring 0xC300 2 = stOk ∧ updtS.core.updTarget = 0 ∧
    updtS.core.opGate .ready .ring 0xC312 0 = stOk ∧ updtS.core.obj 0xC010 0 = 0 := by decide +kernel

theorem test_updates : updAfter (exec (.updateErase .ring) updtS) = (some 1, 1) ∧
    updAfter (exec (.updateVerify .ring) (updtS fun s => { s with updStage := 1 })) = (some 2, 1) ∧
    updAfter (exec (.updateCommit .ring) (updtS fun s => { s with updStage := 2 })) = (some 3, 1) ∧
    updAfter (exec (.updateConfirm .ring) updtS) = (some 4, 1) ∧
    updAfter (exec (.updateAbandon .ring) (updtS fun s => { s with updRun := some 1 })) = (none, 2) := by decide +kernel

/-- Verify of a bank that was not erased is out of sequence; a commit that runs is not abandoned (R441). -/
theorem test_update_sequence : updtS.core.updTargetBank = 1 ∧
    updAfter (exec (.updateVerify .ring) (updtS fun s => { s with updStage := 1, updBank := 0 })) = (none, 8) ∧
    (go (exec (.updateAbandon .ring) (updtS fun s => { s with updRun := some 3 }))).core.dict.lastStatus = stBusy := by decide +kernel

theorem test_update_image : (go (exec (.updateImageWrite .ring 2 0 [1, 2]) (updtS fun s => { s with updStage := 1 }))).core.dict.gathers.map (·.data) =
    [[1, 2]] := by decide +kernel

theorem test_update_ends : updAfter (exec (.updateCommandEnd true) (updtS fun s => { s with updRun := some 2, updFinal := 2 })) = (none, 2) ∧
    (go (exec (.updateCommandEnd true) (updtS fun s => { s with updRun := some 2, updFinal := 2 }))).core.sec.updStage = 2 ∧
    updAfter (exec (.updateCommandEnd false) (updtS fun s => { s with updRun := some 1 })) = (none, 7) := by decide +kernel

/-- A record of 256 bytes with fields (offset, bytes, value), signed by that key. -/
def record (fs : List (Nat × Nat × Nat)) : List Byte :=
  fs.foldl (fun bs p => putAt bs p.1 (toLE p.2.1 p.2.2)) (List.replicate 192 0) ++ sig1

/-- A trims blob with no body: its digest is that of the empty message. -/
def blob : List Byte := putAt (record [(0, 4, blobMagic), (4, 1, 1), (5, 1, 1), (8, 8, 0)]) 28 (sha512 [])

theorem test_blob : secS.core.opGate .ready .ring 0xC401 0 = stOk ∧ blobOk secS.core.module_ secS.core.keys blob = true ∧ blob.length = 256 ∧
    blobOk secS.core.module_ secS.core.keys (record []) = false := by decide +kernel

theorem test_enrol : secS.core.opGate .ready .ring 0xC410 0 = stOk ∧ enrolOk secS.core.keys secS.core.module_.serial (record [(0, 4, enrolMagic), (4, 1, 1), (5, 1, 0), (8, 8, 0)]) = true ∧
    enrolOk secS.core.keys secS.core.module_.serial (record []) = false := by decide +kernel

theorem test_override : (secS fun s => { s with level := 2 }).core.opGate .ready .ring 0xC420 0 = stOk ∧ overrideOk secS.core (record [(0, 4, overrideMagic)]) = true ∧
    overrideOk secS.core (record []) = false := by decide +kernel

/-- A write of both copies that runs, at a time: the first stands from 10 ns, the second from 20 ns on. -/
def flashS (now : Nat) : State := ready fun c => { c with
  now := now
  module_ := { c.module_ with writes := [{ off := overrideOff, dev := 0, oldA := [1], oldB := [2], start := 0, first := 10, second := 20, cfg := true, ctl := true }] } }

theorem test_write_cut : (flashS 10).core.ctlRuns = false ∧ (flashS 10).core.module_.writes.length = 1 ∧
    ((flashS 10).core.cutWrites.module_.flash 0 = (flashS 10).core.module_.flash 0) ∧
    Flash.read ((flashS 9).core.cutWrites.module_.flash 1) overrideOff 1 = [2] := by decide +kernel

/-- A vector that the host has masked brings no notice (R450). -/
theorem test_vectors : ready.core.vectorOn 0 0 = true ∧ (ready fun c => { c with links := { c.links with
      link := some { gen := 7, width := 16, flit := true, vfs := 0, masked := [(0, 0)] } } }).core.vectorOn 0 0 = false := by decide +kernel

/-- An event record of die 0. -/
def ev : EventRec := { time := 1, code := 0x3001, source := 0, step := 0, fmt := 0, inj := false, esc := false, cls := 1, detail := 0, tag := 0 }

theorem test_event_log : (go (exec (.eventLogWrite 0) (ready fun c => { c with log := { c.log with fifo := [(0, [ev])] } }))).core.log.recs = [ev] ∧
    (go (exec (.eventsDropped 0) (ready fun c => { c with log := { c.log with dropped := [(0, 7)] } }))).core.log.fifo.map (fun p => p.2.map (·.code)) =
      [[0xB011]] := by decide +kernel

/-- FAULT_STOP for a cause that may be cleared, or for none. -/
def faultS (own : Nat) : State := withC .faultStop fun c => { c with log := { c.log with cause := some ev, causeOwn := own } }

theorem test_fault_clear : (faultS 1).core.opGate .faultStop .ring 0xB031 0 = stOk ∧ (faultS 1).core.clearable = true ∧ (faultS 3).core.clearable = false ∧
    (go (exec (.faultClear .ring) (faultS 1))).core.log.cleared = true ∧
    (go (exec (.faultClear .ring) (faultS 3))).core.dict.lastStatus = stDenied := by decide +kernel

theorem test_stall : (go (exec (.stageStall 3) ready)).dev = .faultStop ∧ (go (exec (.ringmasterWatchdog 2) ready)).dev = .faultStop := by
  decide +kernel

/-- The fields of slot 1 are those of a one-shot injection of detector 5. -/
def injS : State := ready fun c => ((c.setObj 0xB401 1 5).setObj 0xB401 2 1).setObj 0xB401 4 1
def armedS : State := go (exec (.injectionArm .ring 1) injS)

theorem test_arm : injS.core.reach .ready .ring (injObj 1) 7 true = true ∧ injPatternOk 5 1 = true ∧ injProtected 5 = false ∧
    (KMap.get? armedS.core.inj 1).map (fun x => (x.detector, x.state, x.periodic)) = some (5, 1, false) ∧
    (KMap.get? (go (exec (.injectionDisarm .ring 1) armedS)).core.inj 1).map (·.state) = some 0 ∧
    (KMap.get? (go (exec (.periodicInjection 1) { armedS with core := { armedS.core with inj := armedS.core.inj.map fun p => (p.1, { p.2 with periodic := true }) } })).core.inj 1).map
      (·.due) = some true := by decide +kernel

end Sys2Proof.Tests
end

section
/-! SUPPORT. The device state (R7 to R11, R451): what a dictionary write, a message and each command may make of it,
said once, and the claims about its transitions that follow. -/

namespace Sys2Proof.Machine

/-! ### Dictionary writes and the device state (R7, R8) -/

/-- What one write of 0x1011:00 may make of the device state: nothing, RUN of READY, DRAIN of RUN (R7). -/
inductive Dev.Asked : Dev → Dev → Prop
  | same (a : Dev) : Asked a a
  | run : Asked .ready .run
  | drain : Asked .run .drain

/-- What the writes of one frame may make of it. -/
def Dev.AskedTwice (a b : Dev) : Prop := ∃ m, Dev.Asked a m ∧ Dev.Asked m b

theorem Dev.Asked.twice {a b : Dev} (h : a.Asked b) : a.AskedTwice b := ⟨_, h, .same b⟩

/-- After DRAIN a write moves the device no further, so two moves are all that any number of writes can make. -/
theorem Dev.AskedTwice.next {a b d : Dev} (h : a.AskedTwice b) (k : b.Asked d) : a.AskedTwice d := by
  obtain ⟨m, h1, h2⟩ := h
  cases h2 with
  | same => exact ⟨_, h1, k⟩
  | run =>
    cases h1
    exact ⟨_, .run, k⟩
  | drain =>
    cases k
    exact ⟨_, h1, .drain⟩

theorem Dev.AskedTwice.cases {a b : Dev} (h : a.AskedTwice b) :
    b = a ∨ (a = .ready ∧ b = .run) ∨ ((a = .ready ∨ a = .run) ∧ b = .drain) := by
  obtain ⟨m, h1, h2⟩ := h
  cases h2 with
  | same =>
    cases h1 with
    | same => exact .inl rfl
    | run => exact .inr (.inl ⟨rfl, rfl⟩)
    | drain => exact .inr (.inr ⟨.inr rfl, rfl⟩)
  | run =>
    cases h1
    exact .inr (.inl ⟨rfl, rfl⟩)
  | drain =>
    cases h1 with
    | same => exact .inr (.inr ⟨.inr rfl, rfl⟩)
    | run => exact .inr (.inr ⟨.inl rfl, rfl⟩)

/-- Only READY and RUN are moved, and only to RUN and DRAIN. -/
theorem Dev.AskedTwice.ends {a b : Dev} (h : a.AskedTwice b) (hn : b ≠ a) :
    (a = .ready ∨ a = .run) ∧ (b = .run ∨ b = .drain) := by
  rcases h.cases with e | ⟨ha, hb⟩ | ⟨ha, hb⟩
  · exact absurd e hn
  · exact ⟨.inl ha, .inl hb⟩
  · exact ⟨ha, .inr hb⟩

/-- A request is let through where the state is the one it begins in, its source reaches 0x1011, and no FAULT_STOP is
asked for. -/
theorem Core.stateAllows_iff (c : Core) (dev : Dev) (src : Src) (from_ : Dev) :
    c.stateAllows dev src from_ = true ↔ c.reach dev src 0x1011 0 true = true ∧ dev = from_ ∧ c.faultReq = none := by
  simp [Core.stateAllows, and_assoc]

theorem requestRun_asked (src : Src) (dev : Dev) (c : Core) : dev.Asked (requestRun src dev c).1 := by
  unfold requestRun
  dsimp only
  split
  · next h => rw [((Core.stateAllows_iff _ _ _ _).mp h).2.1]; exact .run
  · exact .same _

theorem requestDrain_asked (src : Src) (dev : Dev) (c : Core) : dev.Asked (requestDrain src dev c).1 := by
  unfold requestDrain
  dsimp only
  split
  · next h => rw [((Core.stateAllows_iff _ _ _ _).mp h).2.1]; exact .drain
  · exact .same _

theorem devWrite_asked {src : Src} {index v : Nat} {dev : Dev} {c : Core} {r : Dev × Core}
    (h : devWrite src index v dev c = some r) : dev.Asked r.1 ∧ index = 0x1011 := by
  unfold devWrite at h
  split at h
  · next hi =>
    refine ⟨?_, hi⟩
    cases h
    split
    · exact requestRun_asked src dev c
    · split
      · exact requestDrain_asked src dev c
      · exact .same _
  · cases h

/-- Of the scalars only 0x1011 moves the device state. -/
theorem Core.writeScalar_asked (c : Core) (dev : Dev) (src : Src) (index sub : Nat) (data : List Byte) :
    (c.writeScalar dev src index sub data).1 = dev ∨
      (dev.Asked (c.writeScalar dev src index sub data).1 ∧ index = 0x1011) := by
  unfold Core.writeScalar
  dsimp only
  split
  · exact .inl rfl
  split
  · exact .inl rfl
  split
  · exact .inl rfl
  split
  · next h => exact .inr (devWrite_asked h)
  · split <;> exact .inl rfl

theorem Core.writeOne_asked (c : Core) (dev : Dev) (src : Src) (index sub off : Nat) (data : List Byte) :
    (c.writeOne dev src index sub off data).1 = dev ∨
      (dev.Asked (c.writeOne dev src index sub off data).1 ∧ index = 0x1011) := by
  unfold Core.writeOne
  dsimp only
  split
  · exact .inl rfl
  split
  · exact .inl rfl
  split
  · exact Core.writeScalar_asked c dev src index sub data
  · exact .inl rfl

theorem Core.writeOne_dev {index : Nat} (hi : index ≠ 0x1011) (c : Core) (dev : Dev) (src : Src) (sub off : Nat)
    (data : List Byte) : (c.writeOne dev src index sub off data).1 = dev :=
  (c.writeOne_asked dev src index sub off data).resolve_right fun h => hi h.2

theorem Core.writeAll_dev {base : Nat} (hb : 0x1011 < base) (dev : Dev) (src : Src) (sub : Nat) (data : List Byte)
    (is : List Nat) (c : Core) : (c.writeAll dev src base sub data is).2.1 = dev := by
  induction is generalizing c with
  | nil => rfl
  | cons i is ih =>
    have h := Core.writeOne_dev (index := base + i) (by omega) c dev src sub 0 data
    unfold Core.writeAll
    generalize c.writeOne dev src (base + i) sub 0 data = r at h
    obtain ⟨d, c'⟩ := r
    subst h
    dsimp only
    split
    · exact ih c'
    · rfl

/-- The families of Table 12.5 lie above 0x1011. -/
theorem aliasFamily_base (index : Nat) : ∀ p, aliasFamily index = some p → 0x1011 < p.1 := by
  unfold aliasFamily
  split <;> simp

theorem Core.aliasWrite_dev (c : Core) (dev : Dev) (src : Src) (o sub : Nat) (data : List Byte) :
    (c.aliasWrite dev src o sub data).1 = dev := by
  unfold Core.aliasWrite
  split
  · rfl
  next base n hf =>
  have h := Core.writeAll_dev (aliasFamily_base o _ hf) dev src sub data (c.aliasMask o) c
  extract_lets is
  split
  · rfl
  split
  · rfl
  split
  next st d c' hr =>
  rw [hr] at h
  split
  · exact h
  · rfl

/-- A write of an object moves the device state as one request may, and through an index of Table 12.5 not at all. -/
theorem Core.writeObj_asked (c : Core) (dev : Dev) (src : Src) (index sub off : Nat) (data : List Byte) :
    (c.writeObj dev src index sub off data).1 = dev ∨
      (dev.Asked (c.writeObj dev src index sub off data).1 ∧ aliasFamily index = none) := by
  have go (d : List Byte) :
      let r := if (aliasFamily index).isSome then c.aliasWrite dev src index sub d
        else c.writeOne dev src index sub off d
      r.1 = dev ∨ (dev.Asked r.1 ∧ aliasFamily index = none) := by
    dsimp only
    split
    · exact .inl (c.aliasWrite_dev dev src index sub d)
    · next h => exact (c.writeOne_asked dev src index sub off d).imp_right fun k => ⟨k.1, by simpa using h⟩
  unfold Core.writeObj
  dsimp only
  split
  · split
    · exact go _
    · exact .inl rfl
  · exact go data

theorem Core.writeObj_moves (c : Core) (dev : Dev) (src : Src) (index sub off : Nat) (data : List Byte) :
    dev.Asked (c.writeObj dev src index sub off data).1 := by
  rcases c.writeObj_asked dev src index sub off data with h | h
  · rw [h]; exact .same dev
  · exact h.1

/-! ### Datagrams and frames (R388, R391) -/

theorem Core.serve_asked (c : Core) (dev : Dev) (src : Src) (g : Datagram) : dev.Asked (c.serve dev src g).2.1 := by
  unfold Core.serve
  split
  · exact .same _
  · exact c.writeObj_moves dev src g.index g.sub g.offset g.data
  all_goals exact .same _

theorem Core.serveAlone_asked (c : Core) (dev : Dev) (src : Src) (g : Datagram) :
    dev.Asked (c.serveAlone dev src g).2.2.1 := by
  have h := c.serve_asked dev src g
  unfold Core.serveAlone
  split <;> next heq => rw [heq] at h; exact h

theorem Core.mailbox_asked (c : Core) (dev : Dev) (fn : Nat) (g : Datagram) : dev.Asked (c.mailbox dev fn g).1 := by
  have h := c.serveAlone_asked dev (fnSrc fn) g
  unfold Core.mailbox
  split
  · exact .same _
  split
  · exact .same _
  generalize c.serveAlone dev (fnSrc fn) g = r at h
  obtain ⟨served, g, d, c⟩ := r
  dsimp only
  split <;> exact h

theorem runAct_asked (s : Dev × Core) (a : KAct) : s.1.Asked (runAct s a).1 := by
  cases a with
  | write g => exact s.2.writeObj_moves s.1 .ring g.index g.sub g.offset g.data
  | sync hop time valid => exact .same _

theorem foldl_runAct_asked {a : Dev} (acts : List KAct) (s : Dev × Core) (h : a.AskedTwice s.1) :
    a.AskedTwice (acts.foldl runAct s).1 := by
  induction acts generalizing s with
  | nil => exact h
  | cons x acts ih => exact ih _ (h.next (runAct_asked s x))

theorem Core.processFrame_asked (c : Core) (dev : Dev) (port : Nat) (f : KFrame) :
    dev.AskedTwice (c.processFrame dev port f).1 := by
  unfold Core.processFrame
  dsimp only
  split
  · exact foldl_runAct_asked _ _ ⟨dev, .same _, .same _⟩
  · exact ⟨dev, .same _, .same _⟩

theorem Core.kimalFrame_asked (c : Core) (dev : Dev) (port : Nat) (f : KFrame) :
    dev.AskedTwice (c.kimalFrame dev port f).1 := by
  have same : dev.AskedTwice dev := ⟨dev, .same _, .same _⟩
  unfold Core.kimalFrame
  dsimp only
  split
  · exact same
  split
  · exact same
  split
  · exact c.processFrame_asked dev port f
  · exact same

/-! ### Answers to messages (R347) -/

/-- What handing a message over may change: the ports, what an exchange message was answered, counters, and the free
values drawn. -/
def Core.Messaged (c c' : Core) : Prop :=
  c' = { c with
    free := c'.free
    incs := c'.incs
    dict := { c.dict with objs := c'.dict.objs }
    links := c'.links
    xch := { c.xch with answer := c'.xch.answer, answers := c'.xch.answers } }

theorem Core.Messaged.refl (c : Core) : c.Messaged c := rfl

theorem Core.Messaged.trans {a b c : Core} (h : a.Messaged b) (k : b.Messaged c) : a.Messaged c := by
  unfold Core.Messaged at *
  rw [k, h]

theorem Core.messaged_bump (c : Core) (i s n : Nat) : c.Messaged (c.bump i s n) := by
  by_cases hn : n = 0
  · rw [hn, Core.bump_zero]; exact .refl c
  · rw [Core.bump_eq c i s n hn]; rfl

theorem Core.messaged_setPort (c : Core) (f : Nat) (p : Port) : c.Messaged (c.setPort f p) := rfl

theorem Core.messaged_admitAll (c : Core) (f : Nat) : c.Messaged (c.admitAll f) :=
  .trans (c.messaged_setPort f _) (Core.messaged_bump _ _ _ _)

theorem Core.messaged_handPort (c : Core) (f : Nat) (x : Flit) (fwd : Bool) : c.Messaged (c.handPort f x fwd) := by
  unfold Core.handPort
  dsimp only
  split
  · exact .trans (c.messaged_setPort f _) (Core.messaged_admitAll _ f)
  · exact c.messaged_setPort f _

theorem Core.messaged_send {c c' : Core} {x : Flit} (h : c.send x = some c') : c.Messaged c' := by
  unfold Core.send at h
  split at h
  · cases h; exact c.messaged_handPort _ x false
  · cases h

theorem Core.messaged_sendAll {xs : List Flit} {c c' : Core} (h : c.sendAll xs = some c') : c.Messaged c' := by
  induction xs generalizing c with
  | nil => cases h; exact .refl _
  | cons x xs ih =>
    obtain ⟨b, hb, h⟩ := Option.bind_eq_some_iff.mp h
    exact .trans (Core.messaged_send hb) (ih h)

theorem Core.messaged_sendOrDrop (c : Core) (xs : List Flit) : c.Messaged (c.sendOrDrop xs) := by
  unfold Core.sendOrDrop
  cases h : c.sendAll xs with
  | none => exact .refl c
  | some c' => exact Core.messaged_sendAll h

theorem Core.messaged_pushAnswer (c : Core) (member cls tag code : Nat) :
    c.Messaged (c.pushAnswer member cls tag code) := by
  unfold Core.pushAnswer
  dsimp only
  have set (bs : List AnsBatch) : c.Messaged { c with xch := { c.xch with answers := bs } } := rfl
  split
  · rfl
  split
  · exact set _
  · exact (set _).trans (Core.messaged_sendOrDrop _ _)

/-- An answer to a message changes nothing but what its sending changes. -/
theorem Core.messaged_answerX (c : Core) (member code : Nat) (bytes : Option (List Byte)) :
    c.Messaged (c.answerX member code bytes) := by
  have kept : c.Messaged { c with xch := { c.xch with answer := some (member, code) } } := rfl
  unfold Core.answerX
  dsimp only
  split
  · exact kept
  · exact .trans (kept.trans (Core.messaged_setPort _ _ _)) (Core.messaged_pushAnswer _ _ _ _ _)

@[simp] theorem Core.answerX_log (c : Core) (member code : Nat) (bytes : Option (List Byte)) :
    (c.answerX member code bytes).log = c.log := by rw [c.messaged_answerX member code bytes]
@[simp] theorem Core.answerX_stp (c : Core) (member code : Nat) (bytes : Option (List Byte)) :
    (c.answerX member code bytes).stp = c.stp := by rw [c.messaged_answerX member code bytes]
@[simp] theorem Core.answerX_asked (c : Core) (member code : Nat) (bytes : Option (List Byte)) :
    (c.answerX member code bytes).xch.asked = c.xch.asked := by rw [c.messaged_answerX member code bytes]

/-! ### What each command makes of the device state -/

/-- BOOT begins with nothing raised. -/
theorem enterBoot_faultReq (c : Core) : (enterBoot c).2.faultReq = none := by
  unfold enterBoot Core.pcieUp
  dsimp only
  split
  · split <;> rfl
  · rfl

/-- The device states that a command in state s may ask for by an effect of its own, with the guards of R7, R8, R298,
R430, R467 to R470. -/
inductive Effect (s : State) : Instr → Dev → Prop
  | stays (i : Instr) : Effect s i s.dev
  | railsFall (mv : Option Nat) : Effect s (.powerDisable mv) .off
  | resetHeld (ns : Nat) (h : s.dev ≠ .faultStop) : Effect s (.moduleResetAssert ns) .off
  | thermTrip : Effect s .thermTripShutdown .off
  | stageShuts : Effect s .stageShutsItselfDown .off
  | resetReleased (h : s.dev = .off ∨ s.dev = .standby ∨ s.dev = .faultStop) : Effect s .moduleResetRelease .boot
  | holdEnds (h : s.dev = .off) : Effect s .internalResetHoldEnd .boot
  | bootPasses (f : BootFinds) (h : s.dev = .boot) (ht : untrained f = [])
      (hv : (({ s.core with mem := { s.core.mem with lanes := f.lanes } } : Core).runBoot f.romsAgree).sec.bootFail = 0) :
      Effect s (.bootComplete f) .ready
  | bootFails (f : BootFinds) (h : s.dev = .boot) : Effect s (.bootComplete f) .standby
  | asked {i : Instr} {d : Dev} (hi : i.mayRequest = true) (h : s.dev.Asked d) : Effect s i d
  | frame (port : Nat) (f : KFrame) {d : Dev} (h : s.dev.AskedTwice d) : Effect s (.kimalFrame port f) d
  | drained (h : s.dev = .drain) (hd : s.core.drained = true) : Effect s .drainComplete .ready
  | granted (leader stepR source rejoiner version : Nat) (ha : s.core.xch.asked = true)
      (h : (s.dev = .faultStop ∧ s.core.log.cleared = true) ∨ (s.dev = .ready ∧ s.core.stp.openedSinceBoot = false)) :
      Effect s (.grantReceived leader stepR source rejoiner version) .rejoin
  | pulled (h : s.dev = .rejoin) : Effect s .rejoinPullDone .ready

/-- The device state a command ends in: one it may ask for, or FAULT_STOP from any state but OFF. -/
def Ends (s : State) (i : Instr) (b : Dev) : Prop :=
  ∃ d, Effect s i d ∧ (b = d ∨ (b = .faultStop ∧ s.dev ≠ .off))

theorem Ends.stays (s : State) (i : Instr) : Ends s i s.dev := ⟨_, .stays i, .inl rfl⟩

/-- The end of a command asks no more of the device state; what OFF asks for must not be met by a FAULT_STOP. -/
theorem Ends.finish {s : State} {i : Instr} {d : Dev} {c : Core} (q : List Instr) (h : Effect s i d)
    (hq : s.dev = .off → d = .off ∨ c.faultReq = none) : Ends s i (finish d c q).dev := by
  refine ⟨d, h, ?_⟩
  rcases finish_dev d c q with e | ⟨e, hd⟩
  · exact .inl e
  · by_cases ho : s.dev = .off
    · rcases hq ho with rfl | hc
      · exact absurd rfl hd
      · rw [finish_quiet d c q hc]; exact .inl rfl
    · exact .inr ⟨e, ho⟩

theorem liftPins_ends {f : Dev → Core → Dev × Core} {s t : State} {i : Instr} (ht : liftPins f s = .next t)
    (h : Effect s i (f s.dev s.core).1)
    (hq : s.dev = .off → (f s.dev s.core).1 = .off ∨ (f s.dev s.core).2.faultReq = none) : Ends s i t.dev := by
  cases ht
  exact .finish _ h hq

theorem liftDev_ends {f : Dev → Core → Dev × Core} {s t : State} {i : Instr} (ht : liftDev f s = .next t)
    (h : Effect s i (f s.dev s.core).1) : Ends s i t.dev := by
  unfold liftDev at ht
  split at ht
  · cases ht; exact .stays s i
  · next hh => exact liftPins_ends ht h fun ho => absurd (by simp [State.held, ho]) hh

theorem resetAssert_effect (s : State) (ns : Nat) (c : Core) :
    Effect s (.moduleResetAssert ns) (resetAssert s.dev c).1 := by
  unfold resetAssert
  dsimp only
  split
  · exact .stays _
  · next h => exact .resetHeld ns fun hf => h (.inr hf)

theorem bootComplete_ends {s t : State} (found : BootFinds) (ht : execBootComplete found s = .next t) :
    Ends s (.bootComplete found) t.dev := by
  refine liftDev_ends ht ?_
  dsimp only
  split
  · exact .stays _
  · next hb =>
    have hb : s.dev = .boot := not_not.mp hb
    split
    · next hv =>
      split
      · next hu => exact .bootPasses found hb (List.isEmpty_iff.mp hu) hv
      · exact .stays _
    · exact .bootFails found hb

theorem moduleResetAssert_ends {s t : State} (ns : Nat)
    (ht : execModuleResetAssert ns s = .next t) : Ends s (.moduleResetAssert ns) t.dev := by
  refine liftPins_ends ht ?_ fun ho => .inl ?_
  · dsimp only
    split
    · exact .stays _
    split
    · split
      · exact .stays _
      · exact resetAssert_effect s ns _
    · exact resetAssert_effect s ns _
  · rw [ho]
    dsimp only
    split
    · rfl
    split
    · split <;> rfl
    · rfl

theorem moduleResetRelease_ends {s t : State} (ht : execModuleResetRelease s = .next t) :
    Ends s .moduleResetRelease t.dev := by
  refine liftPins_ends ht ?_ fun ho => ?_
  · dsimp only
    split
    · next hd =>
      split
      · exact .stays _
      split
      · exact .resetReleased (.inl hd)
      · exact .stays _
    · next hd =>
      split
      · exact .stays _
      · exact .resetReleased (.inr (.inl hd))
    · next hd =>
      split
      · exact .stays _
      · exact .resetReleased (.inr (.inr hd))
    · exact .stays _
  · rw [ho]
    dsimp only
    split
    · exact .inl rfl
    split
    · exact .inr (enterBoot_faultReq _)
    · exact .inl rfl

theorem internalResetHoldEnd_ends {s t : State} (ht : execInternalResetHoldEnd s = .next t) :
    Ends s .internalResetHoldEnd t.dev := by
  refine liftPins_ends ht ?_ fun ho => ?_
  · split
    · next h => exact .holdEnds h.1
    · exact .stays _
  · split
    · exact .inr (enterBoot_faultReq _)
    · exact .inl ho

theorem grantReceived_ends {s t : State} (leader stepR source rejoiner version : Nat)
    (ht : execGrantReceived leader stepR source rejoiner version s = .next t) :
    Ends s (.grantReceived leader stepR source rejoiner version) t.dev := by
  refine liftDev_ends ht ?_
  dsimp only
  split
  · next h =>
    obtain ⟨-, ha, hd⟩ := h
    simp only [Core.answerX_asked, Core.answerX_log, Core.answerX_stp, Bool.not_eq_true'] at ha hd
    exact .granted _ _ _ _ _ ha hd
  · exact .stays _

theorem rejoinPullDone_ends {s t : State} (ht : execRejoinPullDone s = .next t) : Ends s .rejoinPullDone t.dev := by
  refine liftDev_ends ht ?_
  dsimp only
  split
  · exact .stays _
  split
  · next h => exact .pulled h.1
  · exact .stays _

theorem dreq_ends {s t : State} (src tag : Nat) (dg : Datagram) (ht : execDreq src tag dg s = .next t) :
    Ends s (.dreq src tag dg) t.dev := by
  refine liftDev_ends ht ?_
  dsimp only
  split
  · exact .stays _
  · exact .asked rfl (Core.serveAlone_asked _ _ _ _)

theorem powerDisable_ends {s t : State} (mv : Option Nat)
    (ht : execPowerDisable mv s = .next t) : Ends s (.powerDisable mv) t.dev := by
  refine liftPins_ends ht ?_ fun ho => .inl ?_
  · dsimp only
    split_ifs
    · exact .stays _
    · exact .railsFall mv
  · dsimp only
    split_ifs
    · exact ho
    · rfl

theorem thermTripShutdown_ends {s t : State} (ht : execThermTripShutdown s = .next t) :
    Ends s .thermTripShutdown t.dev := by
  refine liftPins_ends ht ?_ fun ho => .inl ?_
  · split
    · exact .thermTrip
    · exact .stays _
  · split
    · rfl
    · exact ho

theorem stageShutsItselfDown_ends {s t : State} (ht : execStageShutsItselfDown s = .next t) :
    Ends s .stageShutsItselfDown t.dev := by
  refine liftPins_ends ht ?_ fun ho => .inl ?_
  · split
    · exact .stageShuts
    · exact .stays _
  · split
    · rfl
    · exact ho

theorem drainComplete_ends {s t : State} (ht : execDrainComplete s = .next t) : Ends s .drainComplete t.dev := by
  refine liftDev_ends ht ?_
  split
  · next h => exact .drained h.1 h.2
  · exact .stays _

/-- The indexes of Table 12.5 reach no object that moves the device state (R378). -/
theorem aliasWrite_ends {s t : State} (src : Src) (a sub : Nat) (data : List Byte)
    (ht : execAliasWrite src a sub data s = .next t) : Ends s (.aliasWrite src a sub data) t.dev := by
  refine liftDev_ends ht ?_
  split
  · next h =>
    rcases (s.core.srcTlp src).writeObj_asked s.dev src a sub 0 data with hd | ⟨-, hn⟩
    · rw [hd]; exact .stays _
    · rw [hn] at h; cases h
  · exact .stays _

/-- A command ends in a device state that its own effect may ask for, or in FAULT_STOP. -/
theorem exec_ends {s t : State} {i : Instr} (ht : exec i s = .next t) : Ends s i t.dev := by
  by_cases hi : i.movesDev = false
  · rcases exec_stays i s hi with ⟨r, hr⟩ | ⟨-, hn⟩ | ⟨c, hc⟩
    · rw [hr] at ht; cases ht
    · rw [hn] at ht; cases ht; exact .stays s i
    · rw [hc] at ht; cases ht
      exact .finish _ (.stays i) .inl
  cases i with
  | powerDisable inputMv => exact powerDisable_ends inputMv ht
  | moduleResetAssert ns => exact moduleResetAssert_ends ns ht
  | moduleResetRelease => exact moduleResetRelease_ends ht
  | internalResetHoldEnd => exact internalResetHoldEnd_ends ht
  | bootComplete found => exact bootComplete_ends found ht
  | thermTripShutdown => exact thermTripShutdown_ends ht
  | stageShutsItselfDown => exact stageShutsItselfDown_ends ht
  | requestRun src => exact liftDev_ends ht (.asked rfl (requestRun_asked src _ _))
  | requestDrain src => exact liftDev_ends ht (.asked rfl (requestDrain_asked src _ _))
  | drainComplete => exact drainComplete_ends ht
  | grantReceived leader stepR source rejoiner version => exact grantReceived_ends _ _ _ _ _ ht
  | rejoinPullDone => exact rejoinPullDone_ends ht
  | dreq src tag dg => exact dreq_ends src tag dg ht
  | objectWrite src index sub offset data => exact liftDev_ends ht (.asked rfl (Core.writeObj_moves _ _ _ _ _ _ _))
  | stagingWrite src index sub data => exact liftDev_ends ht (.asked rfl (Core.writeObj_moves _ _ _ _ _ _ _))
  | aliasWrite src a sub data => exact aliasWrite_ends src a sub data ht
  | mailboxDoorbell fn dg => exact liftDev_ends ht (.asked rfl (Core.mailbox_asked _ _ _ _))
  | kimalFrame port f => exact liftDev_ends ht (.frame port f (Core.kimalFrame_asked _ _ _ _))
  | _ => exact absurd rfl hi

/-! ### The transitions of Table 0.5 -/

/-- One move along Table 0.5 by its cause. -/
def Moves (i : Instr) (a b : Dev) : Prop := devStep a b = true ∧ mayCause i a b = true

theorem Moves.refl (i : Instr) (a : Dev) : Moves i a a := by simp [Moves, devStep, mayCause]

/-- An event of outcome FAULT_STOP moves the device from any state but OFF, whatever the command. -/
theorem Moves.faultStop (i : Instr) {a : Dev} (h : a ≠ .off) : Moves i a .faultStop := by
  cases a with
  | off => exact absurd rfl h
  | _ => exact ⟨rfl, by simp [mayCause]⟩

theorem mayCause_request {i : Instr} (h : i.mayRequest = true) :
    mayCause i .ready .run = true ∧ mayCause i .run .drain = true := by
  cases i with
  | requestRun _ => exact ⟨rfl, rfl⟩
  | requestDrain _ => exact ⟨rfl, rfl⟩
  | objectWrite _ _ _ _ _ => exact ⟨rfl, rfl⟩
  | stagingWrite _ _ _ _ => exact ⟨rfl, rfl⟩
  | mailboxDoorbell _ _ => exact ⟨rfl, rfl⟩
  | kimalFrame _ _ => exact ⟨rfl, rfl⟩
  | dreq _ _ _ => exact ⟨rfl, rfl⟩
  | _ => cases h

theorem Moves.asked {i : Instr} (hi : i.mayRequest = true) {a b : Dev} (h : a.Asked b) : Moves i a b := by
  cases h with
  | same => exact .refl i a
  | run => exact ⟨rfl, (mayCause_request hi).1⟩
  | drain => exact ⟨rfl, (mayCause_request hi).2⟩

theorem devStep_off (a : Dev) : devStep a .off = true := by cases a <;> rfl

/-- What a command that carries one write asks for is one move. -/
theorem Effect.moves {s : State} {i : Instr} {d : Dev} (h : Effect s i d) (hi : i.oneWrite = true) :
    Moves i s.dev d := by
  cases h with
  | stays => exact .refl i _
  | railsFall mv => exact ⟨devStep_off _, by cases s.dev <;> rfl⟩
  | resetHeld ns _ => exact ⟨devStep_off _, by cases s.dev <;> rfl⟩
  | thermTrip => exact ⟨devStep_off _, by cases s.dev <;> rfl⟩
  | stageShuts => exact ⟨devStep_off _, by cases s.dev <;> rfl⟩
  | resetReleased h => rcases h with h | h | h <;> rw [h] <;> exact ⟨rfl, rfl⟩
  | holdEnds h => rw [h]; exact ⟨rfl, rfl⟩
  | bootPasses f h => rw [h]; exact ⟨rfl, rfl⟩
  | bootFails f h => rw [h]; exact ⟨rfl, rfl⟩
  | asked hr h => exact .asked hr h
  | frame port f h => cases hi
  | drained h => rw [h]; exact ⟨rfl, rfl⟩
  | granted _ _ _ _ _ _ h => rcases h with h | h <;> rw [h.1] <;> exact ⟨rfl, rfl⟩
  | pulled h => rw [h]; exact ⟨rfl, rfl⟩

/-- What any command asks for is two moves at most. -/
theorem Effect.movesTwice {s : State} {i : Instr} {d : Dev} (h : Effect s i d) :
    ∃ m, Moves i s.dev m ∧ Moves i m d := by
  by_cases hi : i.oneWrite = true
  · exact ⟨d, h.moves hi, .refl i d⟩
  cases h with
  | stays => exact ⟨_, .refl i _, .refl i _⟩
  | asked hr h => exact ⟨d, .asked hr h, .refl i d⟩
  | frame port f h =>
    obtain ⟨m, h1, h2⟩ := h
    exact ⟨m, .asked rfl h1, .asked rfl h2⟩
  | _ => exact absurd rfl hi

/-- Settles O4: each command's own effect moves the device along Table 0.5 (`Effect.moves`), and its end along the
table's moves to FAULT_STOP. -/
theorem onlyTable05Transitions : Obligations.OnlyTable05Transitions := by
  unfold Obligations.OnlyTable05Transitions
  intro s t i _ ht moves
  obtain ⟨d, he, rfl | ⟨hf, ho⟩⟩ := exec_ends ht
  · exact ⟨he.moves, he.movesTwice⟩
  · rw [hf]
    have hm : Moves i s.dev .faultStop := .faultStop i ho
    exact ⟨fun _ => hm, _, hm, Moves.refl i _⟩

/-! ### The guards of the transitions -/

/-- A command that does not end in FAULT_STOP ends in a state its own effect asks for. -/
theorem Ends.effect {s : State} {i : Instr} {b : Dev} (h : Ends s i b) (hb : b ≠ .faultStop) : Effect s i b := by
  obtain ⟨d, he, rfl | ⟨hf, -⟩⟩ := h
  · exact he
  · exact absurd hf hb

/-- Whatever writes ask for, RUN is asked of READY. -/
theorem Effect.of_run {s : State} {i : Instr} {d : Dev} (h : Effect s i d) (hd : d = .run) (hs : d ≠ s.dev) :
    s.dev = .ready ∧ i.mayRequest = true := by
  have ask (k : s.dev.AskedTwice d) : s.dev = .ready := by
    rcases k.cases with e | ⟨e, -⟩ | ⟨-, e⟩
    · exact absurd e hs
    · exact e
    · rw [hd] at e; cases e
  cases h with
  | stays => exact absurd rfl hs
  | asked hr h => exact ⟨ask h.twice, hr⟩
  | frame port f h => exact ⟨ask h, rfl⟩
  | _ => cases hd

/-- READY comes of DRAIN, of BOOT and of REJOIN, by the end of each. -/
theorem Effect.of_ready {s : State} {i : Instr} {d : Dev} (h : Effect s i d) (hd : d = .ready) (hs : d ≠ s.dev) :
    (s.dev = .drain ∧ s.core.drained = true) ∨ s.dev = .rejoin ∨
    (s.dev = .boot ∧ ∃ f, i = .bootComplete f ∧ untrained f = [] ∧
      (({ s.core with mem := { s.core.mem with lanes := f.lanes } } : Core).runBoot f.romsAgree).sec.bootFail = 0) := by
  have ask : ¬s.dev.AskedTwice d := fun k => by simpa [hd] using (k.ends hs).2
  cases h with
  | stays => exact absurd rfl hs
  | bootPasses f h ht hv => exact .inr (.inr ⟨h, f, rfl, ht, hv⟩)
  | asked hr h => exact absurd h.twice ask
  | frame port f h => exact absurd h ask
  | drained h hq => exact .inl ⟨h, hq⟩
  | pulled h => exact .inr (.inl h)
  | _ => cases hd

theorem Effect.leavesFault {s : State} {i : Instr} {d : Dev} (h : Effect s i d) (hs : d ≠ s.dev)
    (hf : s.dev = .faultStop) : i.leavesFault = true := by
  have ask : ¬s.dev.AskedTwice d := fun k => by simpa [hf] using (k.ends hs).1
  cases h with
  | stays => exact absurd rfl hs
  | railsFall mv => rfl
  | thermTrip => rfl
  | stageShuts => rfl
  | resetReleased h => rfl
  | granted => rfl
  | resetHeld ns h => exact absurd hf h
  | asked hr h => exact absurd h.twice ask
  | frame port f h => exact absurd h ask
  | holdEnds h => rw [hf] at h; cases h
  | bootPasses f h => rw [hf] at h; cases h
  | bootFails f h => rw [hf] at h; cases h
  | drained h => rw [hf] at h; cases h
  | pulled h => rw [hf] at h; cases h

theorem Effect.of_rejoin {s : State} {i : Instr} {d : Dev} (h : Effect s i d) (hd : d = .rejoin) (hs : d ≠ s.dev) :
    s.core.xch.asked = true ∧ ((s.dev = .faultStop ∧ s.core.log.cleared = true) ∨
      (s.dev = .ready ∧ s.core.stp.openedSinceBoot = false)) := by
  have ask : ¬s.dev.AskedTwice d := fun k => by simpa [hd] using (k.ends hs).2
  cases h with
  | stays => exact absurd rfl hs
  | granted _ _ _ _ _ ha h => exact ⟨ha, h⟩
  | asked hr h => exact absurd h.twice ask
  | frame port f h => exact absurd h ask
  | _ => cases hd

/-- Settles O5: a state other than FAULT_STOP is one the command's own effect asked for, under that effect's guard. -/
theorem transitionsAreGuarded : Obligations.TransitionsAreGuarded := by
  unfold Obligations.TransitionsAreGuarded
  intro s t i _ ht hne
  have he : t.dev ≠ .faultStop → Effect s i t.dev := (exec_ends ht).effect
  refine ⟨fun hr => ?_, fun hd hr => ?_, fun hb hr => ?_, fun hf => ?_, fun hj => ?_⟩
  · exact (he (by simp [hr])).of_run hr hne
  · rcases (he (by simp [hr])).of_ready hr hne with ⟨-, h⟩ | h | ⟨h, -⟩
    · exact h
    all_goals rw [hd] at h; cases h
  · rcases (he (by simp [hr])).of_ready hr hne with ⟨h, -⟩ | h | ⟨-, h⟩
    · rw [hb] at h; cases h
    · rw [hb] at h; cases h
    · exact h
  · exact (he (hf ▸ hne)).leavesFault hne hf
  · exact (he (by simp [hj])).of_rejoin hj hne

/-! ### No FAULT_STOP is outstanding between commands (R9, R451) -/

theorem tickCore_faultReq (c : Core) : (tickCore c).faultReq = c.faultReq := by
  unfold tickCore
  dsimp only
  split_ifs <;> rfl

theorem tick_settled {s : State} (h : s.settled) : (tick s).settled := by
  unfold tick
  split
  · exact h
  · exact (tickCore_faultReq s.core).trans h

/-- A command ends with `finish`, which leaves nothing outstanding, or does nothing. -/
theorem exec_settled {s t : State} {i : Instr} (h : s.settled) (ht : exec i s = .next t) : t.settled := by
  rcases exec_answers i s with ⟨r, hr⟩ | ⟨-, hn⟩ | ⟨d, c, hc⟩
  · rw [hr] at ht; cases ht
  · rw [hn] at ht; cases ht; exact h
  · rw [hc] at ht; cases ht; exact finish_faultReq d c s.pending

/-- Settles O6: by the end of a command, and by a nanosecond that raises nothing. -/
theorem stepKeepsSettled : Obligations.StepKeepsSettled := by
  unfold Obligations.StepKeepsSettled
  intro s t hs ht
  unfold step at ht
  split at ht
  · cases ht; exact tick_settled hs
  · next i rest hp => exact exec_settled (s := { s with pending := rest }) hs ht

/-! ### Requests for RUN and DRAIN, and the end of DRAIN (R8, R10, R11, R334) -/

theorem requestRun_granted {src : Src} {dev : Dev} {c : Core} (hp : c.sysPoison sysRingmaster = none)
    (h : c.stateAllows dev src .ready = true) : requestRun src dev c =
      (.run, ({ c with log := { c.log with onceRun := [] } }).noteAnswer src 0x1011 0 stOk) := by
  simp [requestRun, Core.sysRead_clean c _ hp, h]

theorem requestRun_denied {src : Src} {dev : Dev} {c : Core} (hp : c.sysPoison sysRingmaster = none)
    (h : ¬c.stateAllows dev src .ready = true) :
    requestRun src dev c = (dev, c.noteAnswer src 0x1011 0 stDenied) := by
  simp [requestRun, Core.sysRead_clean c _ hp, h]

theorem requestDrain_granted {src : Src} {dev : Dev} {c : Core} (hp : c.sysPoison sysRingmaster = none)
    (h : c.stateAllows dev src .run = true) : requestDrain src dev c =
      (.drain, c.markEarly.writeBackAll.noteAnswer src 0x1011 0 stOk) := by
  simp [requestDrain, Core.sysRead_clean c _ hp, h]

theorem requestDrain_denied {src : Src} {dev : Dev} {c : Core} (hp : c.sysPoison sysRingmaster = none)
    (h : ¬c.stateAllows dev src .run = true) :
    requestDrain src dev c = (dev, c.noteAnswer src 0x1011 0 stDenied) := by
  simp [requestDrain, Core.sysRead_clean c _ hp, h]

@[simp] theorem Core.writeBackAll_faultReq (c : Core) : c.writeBackAll.faultReq = c.faultReq := by
  rw [Core.buffered_writeBackAll c]
@[simp] theorem Core.writeBackAll_roll (c : Core) : c.writeBackAll.roll = c.roll := by
  rw [Core.buffered_writeBackAll c]
@[simp] theorem Core.writeBackAll_links (c : Core) : c.writeBackAll.links = c.links := by
  rw [Core.buffered_writeBackAll c]
@[simp] theorem Core.markEarly_faultReq (c : Core) : c.markEarly.faultReq = c.faultReq := rfl

/-- A command that an awake device takes, and that raises nothing, leaves just what its effect gives. -/
theorem liftDev_quiet {f : Dev → Core → Dev × Core} {s : State} (h : s.awake) {d : Dev} {c : Core}
    (hf : f s.dev s.core = (d, c)) (hc : c.faultReq = none) :
    liftDev f s = .next { s with dev := d, core := c } := by
  rw [liftDev_awake f s h, hf, finish_quiet d c _ hc]

/-- No context is STEPPING once the steps have been aborted (R11). -/
theorem Core.abortStepping_idle (c : Core) : ∀ p ∈ c.abortStepping.2.roll.ctxs, p.2.state ≠ 2 := by
  intro p hp
  obtain ⟨q, -, rfl⟩ := List.mem_map.mp hp
  dsimp only
  split
  · simp
  · assumption

theorem drainComplete_drained {s : State} (hs : s.settled) (ha : s.awake) (hd : s.dev = .drain)
    (hq : s.core.drained = true) : exec .drainComplete s = .next { s with
      dev := .ready, core := (s.core.abortStepping.2.bump 0x6890 0x16 s.core.abortStepping.1).writeBackAll } := by
  unfold exec execDrainComplete
  refine liftDev_quiet ha ?_ ?_
  · rw [if_pos ⟨hd, hq⟩]
  · rw [Core.writeBackAll_faultReq, Core.bump_faultReq]; exact hs

/-- Settles O13: a request's two outcomes, its refusal beside an outstanding FAULT_STOP, and what DRAIN leaves. -/
theorem runAndDrainRequests : Obligations.RunAndDrainRequests := by
  unfold Obligations.RunAndDrainRequests
  refine ⟨fun s src hs ha hu => ?_, fun src dev c hc hp => ?_, fun s hs ha hd hq => ?_⟩
  · have hp : s.core.sysPoison sysRingmaster = none := hu _ (by simp)
    have not_from {from_ : Dev} (h : s.dev ≠ from_ ∨ s.core.reach s.dev src 0x1011 0 true = false) :
        ¬s.core.stateAllows s.dev src from_ = true := by
      rw [Core.stateAllows_iff]
      rintro ⟨hr, hd, -⟩
      rcases h with h | h
      · exact h hd
      · rw [h] at hr; cases hr
    unfold exec execRequestRun execRequestDrain
    refine ⟨fun hd hr => ?_, fun h => ?_, fun hd hr => ?_, fun h => ?_⟩
    · have hg := (Core.stateAllows_iff _ _ _ _).mpr ⟨hd ▸ hr, hd, hs⟩
      exact liftDev_quiet ha (requestRun_granted hp hg) hs
    · exact liftDev_quiet ha (requestRun_denied hp (not_from h)) hs
    · have hg := (Core.stateAllows_iff _ _ _ _).mpr ⟨hd ▸ hr, hd, hs⟩
      refine liftDev_quiet ha (requestDrain_granted hp hg) ?_
      simpa using hs
    · exact liftDev_quiet ha (requestDrain_denied hp (not_from h)) hs
  · have hn (from_ : Dev) : ¬c.stateAllows dev src from_ = true := by
      rw [Core.stateAllows_iff]
      rintro ⟨-, -, h⟩
      exact hc h
    exact ⟨requestRun_denied hp (hn _), requestDrain_denied hp (hn _)⟩
  · refine ⟨_, drainComplete_drained hs ha hd hq, rfl, Core.writeBackAll_wcb _, ?_, ?_, ?_, rfl⟩
    · rw [Core.writeBackAll_roll, Core.bump_roll]; exact s.core.abortStepping_idle
    · rw [Core.writeBackAll_mem, Core.bump_mem]; rfl
    · rw [Core.writeBackAll_links, Core.bump_links]; rfl

end Sys2Proof.Machine
end

section
/-! SUPPORT. Tiles as they are replaced, and what a read of good memory does and leaves alone (R309, R318). -/

namespace Sys2Proof.Machine

/-- A lifted command whose effect raises nothing ends in that effect. -/
theorem lift_quiet {f : Dev → Core → Core} {s : State} {c : Core} (ha : s.awake) (e : f s.dev s.core = c)
    (h : c.faultReq = none) : lift f s = .next (s.withCore c) := by
  rw [lift_awake f s ha, e, finish_quiet _ _ _ h]
  rfl

/-! ### Descriptors and tiles that are replaced -/

theorem Core.setDesc_desc?_self (c : Core) (d : Nat) (x : Desc) : (c.setDesc d x).desc? d = some x :=
  KMap.get?_set_self _ _ _

theorem Core.setTile_tile_self (c : Core) (t : Nat) (y : Tile) : (c.setTile t y).tile t = y :=
  KMap.getD_set_self _ _ _ _

theorem Core.setTile_tile_ne (c : Core) {t u : Nat} (y : Tile) (h : u ≠ t) : (c.setTile t y).tile u = c.tile u :=
  KMap.getD_set_ne _ _ _ h

theorem Core.workDone_eq (c : Core) (d : Nat) (x : Desc) (h : c.desc? d = some x) :
    c.workDone d = c.setDesc d { x with done := true } := by
  unfold Core.workDone Core.modDesc
  rw [h]

/-- With no slot armed no storage of a tile is in error. -/
theorem Core.tileInject_none (c : Core) (h : c.inj = []) (t sel addr : Nat) : c.tileInject t sel addr = (none, c) := by
  simp [Core.tileInject, Core.injectIf, h]

/-! ### Two cores that show the same memory -/

/-- The objects of counters that forward work moves: rounding and saturation, converters, tiles, memory. -/
def fwdCounters : List Nat := [0x3008, 0x3880, 0x4800, 0x9880]

/-- Two cores that show the same bytes at the same places: the same memory, time and module, and the same objects but
for counters. -/
structure Core.Shows (c c' : Core) : Prop where
  now : c'.now = c.now
  mem : c'.mem.mem = c.mem.mem
  module_ : c'.module_ = c.module_
  obj {j u : Nat} (h : okey j u / 256 ∉ fwdCounters) : c'.obj j u = c.obj j u

theorem Core.Shows.refl (c : Core) : c.Shows c := ⟨rfl, rfl, rfl, fun _ => rfl⟩

theorem Core.Shows.trans {a b c : Core} (h : a.Shows b) (k : b.Shows c) : a.Shows c where
  now := k.now.trans h.now
  mem := k.mem.trans h.mem
  module_ := k.module_.trans h.module_
  obj ho := (k.obj ho).trans (h.obj ho)

/-- A counter that counts shows nothing else. -/
theorem Core.shows_bump (c : Core) {i u : Nat} (n : Nat) (hi : okey i u / 256 ∈ fwdCounters) :
    c.Shows (c.bump i u n) where
  now := c.bump_now i u n
  mem := congrArg MemSys.mem (c.bump_mem i u n)
  module_ := c.bump_module_ i u n
  obj ho := Core.obj_bump_ne c n fun e => ho (by rw [e]; exact hi)

section
variable {c c' : Core} (h : c.Shows c')
include h

theorem Core.Shows.poolArea {k : Nat} (hk : k < 4) : c'.poolArea k = c.poolArea k := by
  have key (u : Nat) (hu : u < 256) : c'.obj (0x6100 + k) u = c.obj (0x6100 + k) u := by
    refine h.obj ?_
    have e : okey (0x6100 + k) u / 256 = 0x6100 + k := by unfold okey; omega
    rw [e]
    simp [fwdCounters]
    omega
  unfold Core.poolArea
  rw [key 1 (by omega), key 3 (by omega), key 6 (by omega)]

theorem Core.Shows.inArea (a n : Nat) :
    ((List.range 4).any fun k => c'.meetsArea k a n) = (List.range 4).any fun k => c.meetsArea k a n := by
  rw [Bool.eq_iff_iff, List.any_eq_true, List.any_eq_true]
  refine exists_congr fun k => and_congr_right fun hk => ?_
  unfold Core.meetsArea
  rw [h.poolArea (List.mem_range.mp hk)]

theorem Core.Shows.bytes (a n : Nat) : c'.bytes a n = c.bytes a n := by
  unfold Core.bytes
  simp only [h.inArea, h.mem, h.now]

theorem Core.Shows.pieces (a n : Nat) : c'.pieces a n = c.pieces a n := by
  unfold Core.pieces Core.palTs
  rw [h.obj (j := 0x7100) (u := 1) (by decide), h.obj (j := 0x7100) (u := 2) (by decide)]

theorem Core.Shows.lread (a n : Nat) : c'.lread a n = c.lread a n := by
  unfold Core.lread
  simp only [h.pieces, h.bytes]

theorem Core.Shows.partition {p u : Nat} (hp : p < 16) (hu : u < 256) : c'.obj (0x9100 + p) u = c.obj (0x9100 + p) u := by
  refine h.obj ?_
  have e : okey (0x9100 + p) u / 256 = 0x9100 + p := by unfold okey; omega
  rw [e]
  simp [fwdCounters]
  omega

theorem Core.Shows.partBase {p : Nat} (hp : p < 16) : c'.partBase p = c.partBase p := by
  unfold Core.partBase
  rw [h.partition hp (by omega)]

theorem Core.Shows.partSize {p : Nat} (hp : p < 16) : c'.partSize p = c.partSize p := by
  unfold Core.partSize
  rw [h.partition hp (by omega)]

theorem Core.Shows.partOf (a : Nat) : c'.partOf a = c.partOf a := by
  unfold Core.partOf
  refine List.find?_congr fun p hp => ?_
  rw [h.partBase (List.mem_range.mp hp), h.partSize (List.mem_range.mp hp)]

theorem Core.Shows.plainAt (a : Nat) : c'.plainAt a = c.plainAt a := by
  unfold Core.plainAt
  rw [h.partOf a]
  split
  · cases hp : c.partOf a with
    | none => rfl
    | some p =>
      have hlt : p < 16 := List.mem_range.mp (List.mem_of_find?_eq_some hp)
      unfold Core.hbmBytes
      dsimp only
      rw [h.partBase hlt, h.partSize hlt, h.module_]
  · rfl

theorem Core.Shows.plainBad (a n : Nat) : c'.plainBad a n = c.plainBad a n := by
  have walk (f a e : Nat) : c'.plainWalk f a e = c.plainWalk f a e := by
    induction f generalizing a with
    | zero => rfl
    | succ f ih => simp only [Core.plainWalk, h.plainAt, ih]
  exact walk 32 a (a + n)

/-- The same accesses are served. -/
theorem Core.Shows.lbad (a n : Nat) : c'.lbad a n = c.lbad a n := by
  unfold Core.lbad Core.palCap
  rw [h.plainBad, h.obj (j := 0x7100) (u := 1) (by decide), h.obj (j := 0x7100) (u := 3) (by decide)]

theorem Core.Shows.mask {i s n : Nat} (hi : i ∉ fwdCounters) (hs : s + n ≤ 256) : c'.mask i s n = c.mask i s n := by
  induction n with
  | zero => rfl
  | succ n ih =>
    have e : okey i (s + n) / 256 = i := by unfold okey; omega
    unfold Core.mask
    rw [ih (by omega), h.obj (by rw [e]; exact hi)]

/-- A group keeps its members. -/
theorem Core.Shows.members {g : Nat} (hg : g < 16) : c'.members g = c.members g := by
  have hi : 0x4100 + g ∉ fwdCounters := by
    simp [fwdCounters]
    omega
  unfold Core.members
  rw [h.mask hi (by omega), h.mask (i := 0x4002) (by decide) (by omega)]

end

/-! ### Reads of good memory -/

/-- What a read may change where nothing stored is in error: the slots asked for, and the counter of merged reads. -/
structure Core.Reads (c c' : Core) : Prop where
  same : c' = { c with
    mem := { c.mem with reqs := c'.mem.reqs }
    incs := c'.incs
    dict := { c.dict with objs := c'.dict.objs } }
  shows : c.Shows c'

theorem Core.Reads.refl (c : Core) : c.Reads c := ⟨rfl, .refl c⟩

theorem Core.Reads.trans {a b c : Core} (h : a.Reads b) (k : b.Reads c) : a.Reads c where
  same := by rw [k.same, h.same]
  shows := h.shows.trans k.shows

section
variable {c c' : Core} (h : c.Reads c')
include h

theorem Core.Reads.inj : c'.inj = c.inj := by rw [h.same]
theorem Core.Reads.faultReq : c'.faultReq = c.faultReq := by rw [h.same]
theorem Core.Reads.links : c'.links = c.links := by rw [h.same]
theorem Core.Reads.fwd : c'.fwd = c.fwd := by rw [h.same]
theorem Core.Reads.entryWaits : c'.mem.entryWaits = c.mem.entryWaits := by rw [h.same]

theorem Core.Reads.clean (hc : c.clean) : c'.clean := by
  rw [h.same]
  exact hc

end

/-- A read of good memory asks for its slots and counts the bytes the buffer merges, and no more. -/
theorem Core.touch_reads (c : Core) (a n : Nat) (hc : c.clean) : c.Reads (c.touch a n) := by
  obtain ⟨hi, hs, hf, -⟩ := hc
  have e : c.touch a n = { c.bump 0x9880 8 (c.merges a n) with
      mem := { c.mem with reqs := c.mem.reqs ++ readReqs (c.bump 0x9880 8 (c.merges a n)) a n } } := by
    unfold Core.touch
    dsimp only
    rw [Core.transfers_none c hi]
    simp [hs, hf]
  have hb := c.shows_bump (i := 0x9880) (u := 8) (c.merges a n) (by decide)
  rw [e]
  refine ⟨?_, hb.now, hb.mem, hb.module_, fun ho => hb.obj ho⟩
  by_cases hn : c.merges a n = 0
  · rw [hn, Core.bump_zero]
  · rw [Core.bump_eq c _ _ _ hn]; rfl

theorem foldl_touch_reads (l : List (Nat × Nat)) (c : Core) (hc : c.clean) :
    c.Reads (l.foldl (fun c p => c.touch p.1 p.2) c) := by
  induction l generalizing c with
  | nil => exact .refl c
  | cons p l ih =>
    have ht := c.touch_reads p.1 p.2 hc
    exact ht.trans (ih _ (ht.clean hc))

/-- A descriptor's read of good memory that is served rejects nothing. -/
theorem Core.lfetch_good (c : Core) (a n : Nat) (hc : c.clean) (hb : c.lbad a n = none) :
    ∃ c', c.lfetch a n = (c', none) ∧ c.Reads c' := by
  unfold Core.lfetch
  split
  · exact ⟨c, rfl, .refl c⟩
  · have ht := foldl_touch_reads (c.pieces a n) c hc
    obtain ⟨-, -, -, hp⟩ := ht.clean hc
    refine ⟨_, ?_, ht⟩
    rw [hb]
    dsimp only
    rw [if_neg (by simp [Core.lpoisoned, Core.poisoned, Core.ltouch, hp])]
    rfl

end Sys2Proof.Machine
end

section
/-! SUPPORT. A table load (type 0x23, R65): the fold over the members of its group. -/

namespace Sys2Proof.Machine

/-- The table enters its slot of one tile (the step of `execTableLoad`). -/
def Core.putTable (slot : Nat) (tb : ATable) (a : Nat) (c : Core) (t : Nat) : Core :=
  let (bad, c) := c.tileInject t 1 a
  let x := c.tile t
  let tabBad := x.tabBad.filter (· != slot)
  c.setTile t { x with
    tables := KMap.set x.tables slot tb, tabBad := if bad.isSome then slot :: tabBad else tabBad }

/-- Two cores that differ at most in their tiles. -/
def Core.OnlyTiles (c c' : Core) : Prop := c' = { c with fwd := { c.fwd with tiles := c'.fwd.tiles } }

theorem Core.OnlyTiles.trans {a b c : Core} (h : a.OnlyTiles b) (k : b.OnlyTiles c) : a.OnlyTiles c := by
  unfold Core.OnlyTiles at *
  rw [k, h]

theorem Core.putTable_eq (slot : Nat) (tb : ATable) (a : Nat) (c : Core) (t : Nat) (h : c.inj = []) :
    Core.putTable slot tb a c t = c.setTile t { c.tile t with
      tables := KMap.set (c.tile t).tables slot tb, tabBad := (c.tile t).tabBad.filter (· != slot) } := by
  unfold Core.putTable
  rw [Core.tileInject_none c h]
  rfl

/-- Folded over tiles, the table stands in its slot of each of them, and nothing else changes. -/
theorem foldl_putTable (slot : Nat) (tb : ATable) (a : Nat) (l : List Nat) (c : Core) (h : c.inj = []) :
    let c' := l.foldl (Core.putTable slot tb a) c
    c.OnlyTiles c' ∧ (∀ n ∈ l, KMap.get? (c'.tile n).tables slot = some tb) ∧ ∀ n, n ∉ l → c'.tile n = c.tile n := by
  induction l generalizing c with
  | nil => exact ⟨rfl, by simp, fun _ _ => rfl⟩
  | cons t l ih =>
    have e := Core.putTable_eq slot tb a c t h
    obtain ⟨same, loaded, kept⟩ := ih (Core.putTable slot tb a c t) (by rw [e]; exact h)
    refine ⟨Core.OnlyTiles.trans (by rw [e]; rfl) same, fun n hn => ?_, fun n hn => ?_⟩
    · by_cases hl : n ∈ l
      · exact loaded n hl
      · obtain rfl : n = t := (List.mem_cons.mp hn).resolve_right hl
        rw [List.foldl_cons, kept n hl, e, Core.setTile_tile_self]
        exact KMap.get?_set_self _ _ _
    · obtain ⟨hne, hl⟩ := not_or.mp (List.mem_cons.not.mp hn)
      rw [List.foldl_cons, kept n hl, e, Core.setTile_tile_ne _ _ hne]

/-- What a table load's stage makes of an issued descriptor (the body of `execTableLoad`). -/
def Core.tableStage (d : Nat) (x : Desc) (c : Core) : Core :=
  let g := x.f 22 1 % 16
  let src := c.tileSrc g
  let a := x.f 16 6
  c.checked d src [
      (x.f 24 8 == 0, 0x4001, 24, x.f 24 4),
      (x.f 23 1 / 4 == 0, 0x4001, 23, x.f 23 1),
      (x.f 22 1 / 16 == 0, 0x4001, 22, x.f 22 1),
      (a % 64 == 0, 0x4001, 16, a % 2 ^ 32),
      (c.obj (0x4100 + g) 4 != 0 && !(c.members g).isEmpty, 0x4002, 22, x.f 22 1)] fun c =>
    match c.lfetch a 1088 with
    | (c, some e) => c.rejectAccess d src 16 e
    | (c, none) =>
      match tableOf (c.lread a 1088) with
      | none => c.reject d 0x4007 src 16 (a % 2 ^ 32)
      | some tb => ((c.members g).foldl (Core.putTable (x.f 23 1 % 4) tb a) c).workDone d

theorem execTableLoad_eq (d : Nat) (s : State) (x : Desc) (ha : s.awake) (hi : s.issues d x 0x23)
    (hfree : s.core.groupFree d (x.f 22 1 % 16) = true) (hbusy : s.core.membersBusy (x.f 22 1 % 16) = false) :
    let c := (s.core.setDesc d { x with issued := true }).noteIssue (s.core.groupDoms (x.f 22 1 % 16))
    execTableLoad d s = .next (finish s.dev ((c.tableStage d x).owe c (.desc d)) s.pending) := by
  obtain ⟨hx, hi, hh⟩ := hi
  unfold execTableLoad
  rw [lift_awake _ _ ha]
  dsimp only
  rw [if_neg (by rw [hx]; simp [hfree, hbusy]), Core.issue_ok s.core s.dev d _ _ _ x hx hi hh]
  rfl

/-- A stage that finds its checks good and its image served and in range reads it, and puts it into the members' slots. -/
theorem Core.tableStage_good (c : Core) (d : Nat) (x : Desc) (tb : ATable) (hc : c.clean) (hg : x.f 22 1 < 16)
    (hslot : x.f 23 1 < 4) (hrsvd : x.f 24 8 = 0) (hal : x.f 16 6 % 64 = 0) (hrole : c.obj (0x4100 + x.f 22 1) 4 ≠ 0)
    (hmem : c.members (x.f 22 1) ≠ []) (hbad : c.lbad (x.f 16 6) 1088 = none)
    (htab : tableOf (c.lread (x.f 16 6) 1088) = some tb) :
    ∃ b c', c.Reads b ∧ b.OnlyTiles c' ∧ c.tableStage d x = c'.workDone d ∧
      (∀ n ∈ c.members (x.f 22 1), KMap.get? (c'.tile n).tables (x.f 23 1) = some tb) ∧
      ∀ n, n ∉ c.members (x.f 22 1) → c'.tile n = b.tile n := by
  obtain ⟨b, hfetch, hr⟩ := c.lfetch_good (x.f 16 6) 1088 hc hbad
  obtain ⟨same, loaded, kept⟩ := foldl_putTable (x.f 23 1) tb (x.f 16 6) (c.members (x.f 22 1)) b (hr.inj.trans hc.1)
  refine ⟨b, _, hr, same, ?_, loaded, kept⟩
  unfold Core.tableStage
  dsimp only
  rw [Nat.mod_eq_of_lt hg, Nat.mod_eq_of_lt hslot, Core.checked_ok, hfetch]
  · dsimp only
    rw [hr.shows.lread, htab, hr.shows.members hg]
  · simp [firstBad, hrsvd, hal, hrole, hmem, hg, hslot, Nat.div_eq_of_lt]

/-- Settles O23: the image is read without effect on what it holds, and the fold puts it into the members' slots. -/
theorem tableLoadFillsTheGroup : Obligations.TableLoadFillsTheGroup := by
  unfold Obligations.TableLoadFillsTheGroup
  intro s d x tb hs ha hc hi g a hfree hbusy hg hslot hrsvd hal hrole hmem hbad htab
  have hg16 : x.f 22 1 % 16 = g := Nat.mod_eq_of_lt hg
  let c1 := (s.core.setDesc d { x with issued := true }).noteIssue (s.core.groupDoms (x.f 22 1 % 16))
  have hv : s.core.Shows c1 := ⟨rfl, rfl, rfl, fun _ => rfl⟩
  have hms : c1.members g = s.core.members g := hv.members hg
  obtain ⟨c2, c3, hr, same, hstage, loaded, kept⟩ := c1.tableStage_good d x tb hc hg hslot hrsvd hal hrole (hms ▸ hmem)
    ((hv.lbad _ _).trans hbad) (by rw [hv.lread]; exact htab)
  rw [hms] at loaded kept
  have hlinks : c3.links = c1.links := by rw [same]; exact hr.links
  have hmem3 : c3.mem = c2.mem := by rw [same]
  have hx3 : c3.desc? d = some { x with issued := true } := by
    unfold Core.desc?
    rw [hlinks]
    exact Core.setDesc_desc?_self _ _ _
  rw [c3.workDone_eq d _ hx3] at hstage
  have hexec := execTableLoad_eq d s x ha hi (by rwa [hg16]) (by rwa [hg16])
  dsimp only at hexec
  rw [hstage, Core.owe_same _ _ _ (by rw [Core.setDesc_mem, hmem3, hr.entryWaits]), finish_quiet] at hexec
  · refine ⟨_, hexec, rfl, rfl, ⟨_, Core.setDesc_desc?_self _ _ _, rfl, rfl⟩, loaded, fun n hn => ?_, ?_, ?_⟩
    · exact (kept n hn).trans (by unfold Core.tile; rw [hr.fwd]; rfl)
    · exact (congrArg MemSys.mem hmem3).trans hr.shows.mem
    · exact (congrArg Links.tallies hlinks : c3.links.tallies = c1.links.tallies)
  · rw [Core.setDesc_faultReq, same]
    exact hr.faultReq.trans hs

end Sys2Proof.Machine
end

section
/-! SUPPORT. The state that refutes O24: the load counter of a tile number that no tile has lies on an escalation entry. -/

namespace Sys2Proof.Machine

/-! ### A tile number past Table 2.8's subindices (R68, R452) -/

/-- The tile number whose subindex of 0x4902 has the key of 0xB200:01, the code of the first escalation entry. -/
def farTile : Nat := okey 0xB200 1 - okey 0x4902 0

/-- A forward product of one column over one block of BF16 weights in the tile store's user region. -/
def farDesc : Desc where
  queue := 0
  head := 0
  issued := true
  bytes := List.replicate 15 0 ++ [0x20] ++ List.replicate 12 0 ++ [0x08] ++ List.replicate 13 0 ++ [1, 0, 1] ++
    List.replicate 83 0

/-- Its run on a chain of the far tile alone. -/
def farRun : FtRun where
  d := 0
  tag := 0
  chains := [[farTile]]
  planes := 8
  tail := 0
  key := 0
  actLat := Core.noLatch {} 0 1 0 0
  outLat := Core.noLatch {} 0 1 1 0
  wide := false
  clipT := 0
  crushT := 0
  pMin := 0
  pMax := 0
  master := 0
  step := 0
  addrs := [0, 0, tsUser]
  left := 1

/-- The device runs it. The first weight is an infinity. Two escalation entries name event 0x3005: the first, which
counts, leaves its class, the second would raise it to FAULT_STOP. -/
def farState : State where
  dev := .run
  pending := []
  core :=
    { dict := { objs := [(okey 0xB200 1, 0x3005), (okey 0xB201 1, 0x3005), (okey 0xB201 2, 3)] }
      pins := { modRstN := true }
      mem := { mem := [(tsUser, 0x80), (tsUser + 1, 0x7F)] }
      links := { descs := [(0, farDesc)] }
      fwd := { runs := [farRun] } }

/-- Every code's class is COUNT: the entry of 0x3005 that counts gives it class 0. -/
theorem farState_plain : farState.core.plainEvents := by
  intro code
  by_cases h : code = 0x3005
  · rw [h]; decide
  · have hf : farState.core.dict.objs.find? (fun p => 0xB20001 ≤ p.1 && p.1 ≤ 0xB23F01 && p.1 % 256 == 1 && p.2 == code) = none := by
      simp [farState, okey, Ne.symm h]
    unfold Core.escClass
    rw [hf]

/-- The tile as its run finds it: nothing loaded, nothing looked up. -/
def farTileStart : Tile := { busy := some 0 }

/-- The chunk it wants: its only one. -/
def farReq : ChunkReq where
  quant := farRun.quant farDesc
  lat := farRun.actLat
  f := farRun.wFmt farDesc
  wa := farRun.wAddrs.1
  ws := farRun.wAddrs.2
  col := farRun.colBlk 0 0
  pos := 0

theorem farState_run : farState.core.tileRun farTile = some (farRun, 0, 0, farTileStart) := by decide +kernel

theorem farChunk_served :
    ∀ p ∈ chunkRanges farDesc farReq.quant farReq.f farReq.wa farReq.ws farReq.col farReq.pos,
      farState.core.lbad p.2.1 p.2.2 = none := by decide +kernel

theorem farChunk_joins :
    ∀ b ∈ (farState.core.chunkBlks farDesc farReq).flatten, b.seen.skew = none ∧ b.fraction = false := by
  decide +kernel

/-- The load counts on the first escalation entry, so the infinity's event takes the device to FAULT_STOP. -/
theorem farState_faults : ∀ t, exec (.weightChunkLoad farTile) farState = .next t → t.dev = .faultStop := by
  have e : (match exec (.weightChunkLoad farTile) farState with
    | .next t => t.dev
    | _ => .off) = Dev.faultStop := by decide +kernel
  intro t ht
  rw [ht] at e
  exact e

/-- Refutes O24: nothing keeps the tile number below 192, and 0x4902 counts a far tile's load under the key of an
escalation entry. The load then raises 0x3005 at the class of the entry behind it, FAULT_STOP. -/
theorem not_tilesLoadAndAccumulate : ¬ Obligations.TilesLoadAndAccumulate := by
  unfold Obligations.TilesLoadAndAccumulate
  intro h
  obtain ⟨load, -⟩ := h farState farTile 0 farRun 0 0 farTileStart farDesc rfl rfl rfl farState_run rfl
  obtain ⟨t, ht, hd, -⟩ := load 0 0 ⟨rfl, rfl, rfl, rfl⟩ farState_plain (by decide +kernel) (by decide +kernel)
    (by simp [farTileStart]) farChunk_served farChunk_joins
  rw [farState_faults t ht] at hd
  cases hd

end Sys2Proof.Machine
end

section
/-! SUPPORT. Counting, looking chunks up, and plain stores, as the bond uses them (R54, R64, R68, R312). -/

namespace Sys2Proof.Machine

/-! ### Counting -/

/-- Counters of forward work that count, and nothing else. -/
structure Core.Counted (c c' : Core) : Prop where
  same : c' = { c with incs := c'.incs, dict := { c.dict with objs := c'.dict.objs } }
  shows : c.Shows c'

theorem Core.Counted.refl (c : Core) : c.Counted c := ⟨rfl, .refl c⟩

theorem Core.Counted.trans {a b c : Core} (h : a.Counted b) (k : b.Counted c) : a.Counted c where
  same := by rw [k.same, h.same]
  shows := h.shows.trans k.shows

theorem Core.counted_bump (c : Core) {i u : Nat} (n : Nat) (hi : okey i u / 256 ∈ fwdCounters) :
    c.Counted (c.bump i u n) where
  same := by
    by_cases hn : n = 0
    · rw [hn, Core.bump_zero]
    · rw [Core.bump_eq c _ _ _ hn]; rfl
  shows := c.shows_bump n hi

section
variable {c c' : Core} (h : c.Counted c')
include h

theorem Core.Counted.mem : c'.mem = c.mem := by rw [h.same]
theorem Core.Counted.inj : c'.inj = c.inj := by rw [h.same]
theorem Core.Counted.faultReq : c'.faultReq = c.faultReq := by rw [h.same]
theorem Core.Counted.links : c'.links = c.links := by rw [h.same]
theorem Core.Counted.fwd : c'.fwd = c.fwd := by rw [h.same]

end

/-- What a conversion counts. -/
theorem Core.counted_countConv (c : Core) (t : Tally5) : c.Counted (c.countConv t) := by
  unfold Core.countConv
  iterate 9 refine .trans ?_ (Core.counted_bump _ _ (by decide))
  exact Core.counted_bump _ _ (by decide)

/-- Readings that met no non-finite input only count. -/
theorem Core.counted_countSeen (c : Core) (d source : Nat) (s : Seen) (h : s.nonfin = 0) :
    c.Counted (c.countSeen d source s) := by
  unfold Core.countSeen
  dsimp only
  rw [if_pos h]
  iterate 2 refine .trans ?_ (Core.counted_bump _ _ (by decide))
  exact Core.counted_bump _ _ (by decide)

/-- Looking resident chunks up counts the hits; the tile keeps its lane groups and its FIFOs. -/
theorem Core.lookHits_spec (t : Nat) (r : FtRun) (x : Desc) (ci pos f : Nat) (c : Core) (y : Tile) :
    c.Counted (c.lookHits t r x ci pos f y).1 ∧ (c.lookHits t r x ci pos f y).2.lgs = y.lgs ∧
      (c.lookHits t r x ci pos f y).2.outq = y.outq := by
  induction f generalizing c y with
  | zero => exact ⟨.refl c, rfl, rfl⟩
  | succ f ih =>
    unfold Core.lookHits
    split
    · exact ⟨.refl c, rfl, rfl⟩
    · split
      · exact ⟨.refl c, rfl, rfl⟩
      · obtain ⟨hc, hl, ho⟩ := ih (c.bump 0x4800 0xA 1) _
        exact ⟨.trans (Core.counted_bump _ _ (by decide)) hc, hl, ho⟩

/-! ### Plain stores -/

theorem Core.store_fwd (c : Core) (a : Nat) (bs : List Byte) : (c.store a bs).fwd = c.fwd := by
  unfold Core.store
  dsimp only
  rw [Core.buffered_enterRange]
  dsimp only [Core.clearPoison, Core.breakPools]
  split <;> rfl

theorem Core.store_links (c : Core) (a : Nat) (bs : List Byte) : (c.store a bs).links = c.links := by
  unfold Core.store
  dsimp only
  rw [Core.buffered_enterRange]
  dsimp only [Core.clearPoison, Core.breakPools]
  split <;> rfl

/-- With no slot armed a write outside the pallet is one store. -/
theorem Core.lput_plain (c : Core) (a : Nat) (bs : List Byte) (hi : c.inj = []) (ha : a < palBit) :
    c.lput a bs = c.store a bs := by
  have hp : c.pieces a bs.length = [(a, bs.length)] := if_pos ha
  unfold Core.lput
  rw [hp]
  simp [Core.put_none c hi]

theorem Core.modDesc_fwd (c : Core) (d : Nat) (f : Desc → Desc) : (c.modDesc d f).fwd = c.fwd := by
  unfold Core.modDesc; split <;> rfl

theorem Core.modDesc_mem (c : Core) (d : Nat) (f : Desc → Desc) : (c.modDesc d f).mem = c.mem := by
  unfold Core.modDesc; split <;> rfl

theorem Core.modDesc_faultReq (c : Core) (d : Nat) (f : Desc → Desc) : (c.modDesc d f).faultReq = c.faultReq := by
  unfold Core.modDesc; split <;> rfl

/-- A descriptor's output at a plain address writes its bytes; the units keep their work, and nothing is raised. -/
theorem Core.outPut_plain (c : Core) (d a : Nat) (bs : List Byte) (hi : c.inj = []) (ha : a < palBit) :
    (c.outPut d a bs).mem.mem = Mem.write c.mem.mem a bs ∧ (c.outPut d a bs).fwd = c.fwd ∧
      (c.outPut d a bs).faultReq = c.faultReq := by
  unfold Core.outPut Core.noteOut
  rw [Core.lput_plain c a bs hi ha, Core.modDesc_mem, Core.modDesc_fwd, Core.modDesc_faultReq]
  exact ⟨by rw [Core.owe_mem_mem, Core.store_mem], by rw [Core.owe_fwd, Core.store_fwd],
    by rw [Core.owe_faultReq, Core.store_faultReq]⟩

end Sys2Proof.Machine
end

section
/-! SUPPORT. The bond (R54 to R56) and a final tile's output stage (R61, R64): what a handshake that releases a token
does. -/

namespace Sys2Proof.Machine

/-! ### Where a tile stands -/

/-- A tile that begins a run has an empty output FIFO; one at work keeps its own. -/
theorem Core.tileRun_outq {c : Core} {t ci pos : Nat} {r : FtRun} {y : Tile} (h : c.tileRun t = some (r, ci, pos, y))
    (ho : (c.tile t).outq = []) : y.outq = [] := by
  unfold Core.tileRun at h
  split at h
  · cases h
  · split at h
    · cases h
    · cases h
      split
      · exact ho
      · rfl

/-- Where a tile stands rests on the runs and the tile alone. -/
theorem Core.tileRun_congr {c c' : Core} {t : Nat} (hr : c'.fwd.runs = c.fwd.runs) (ht : c'.tile t = c.tile t) :
    c'.tileRun t = c.tileRun t := by
  unfold Core.tileRun
  rw [hr, ht]

theorem Core.chainRoom_of_tileRun {c : Core} {d t ci pos : Nat} {r : FtRun} {z : Tile}
    (h : c.tileRun t = some (r, ci, pos, z)) (hd : r.d = d) (hz : z.chain.length < 8) : c.chainRoom d t = true := by
  unfold Core.chainRoom
  rw [h]
  simp [hd, hz]

/-! ### A token that the bond releases (R54, R55) -/

/-- The tokens of the lane groups that the bond joins: those at the heads of their skew FIFOs that are the tile's next. -/
def Tile.joined (y : Tile) : List SkewEnt :=
  ((List.range 16).map fun g => KMap.getD y.lgs g {}).filterMap fun g =>
    g.fifo.head?.filter fun e => e.tok == y.relTok && e.rnd == y.relRnd

/-- The chain's input for the tile's next token. -/
def Tile.chainIn (y : Tile) : Option ChainEnt :=
  y.chain.head?.filter fun e => e.tok == y.relTok && e.rnd == y.relRnd

/-- The sums of the 32 columns. -/
def Tile.sums (y : Tile) : List Wide := (List.range 32).map (bondCol y.joined y.chainIn)

/-- The skew FIFOs of a tile move on past their heads. -/
def Tile.popped (y : Tile) : KMap LaneGrp :=
  (List.range 16).map fun g => (g, { KMap.getD y.lgs g {} with fifo := (KMap.getD y.lgs g {}).fifo.drop 1 })

theorem Tile.popped_getD (y : Tile) {g : Nat} (hg : g < 16) :
    KMap.getD y.popped g {} = { KMap.getD y.lgs g {} with fifo := (KMap.getD y.lgs g {}).fifo.drop 1 } := by
  have key (f : Nat → LaneGrp) (l : List Nat) (h : g ∈ l) : KMap.get? (l.map fun k => (k, f k)) g = some (f g) := by
    induction l with
    | nil => cases h
    | cons k l ih =>
      by_cases hk : k = g
      · simp [KMap.get?, hk]
      · simp [KMap.get?, hk, ih ((List.mem_cons.mp h).resolve_left (Ne.symm hk))]
  unfold KMap.getD Tile.popped
  rw [key _ _ (List.mem_range.mpr hg)]
  rfl

theorem Tile.advance_keeps (y : Tile) (toks : Nat) : (y.advance toks).lgs = y.lgs ∧ (y.advance toks).outq = y.outq := by
  unfold Tile.advance
  split <;> exact ⟨rfl, rfl⟩

/-- The token goes to the next tile of the chain, or through the output stage of a final tile. -/
def Core.handOver (c : Core) (tile : Nat) (r : FtRun) (ci pos : Nat) (y : Tile) (x : Desc) : Core :=
  match (r.chains.getD ci [])[pos + 1]? with
  | some t =>
    match c.tileRun t with
    | some (_, _, _, z) => c.setTile t { z with chain := z.chain ++ [{ tok := y.relTok, rnd := y.relRnd, vals := y.sums }] }
    | none => c
  | none => Core.drainOuts r.d tile x 8 (c.outToken r x tile ci y y.sums)

/-- The tile moves on past its token, looks chunks up, and hands the token over. -/
def Core.moveOn (c : Core) (tile : Nat) (r : FtRun) (ci pos : Nat) (y : Tile) (x : Desc) : Core :=
  let y1 : Tile := { y with lgs := y.popped, chain := if pos = 0 then y.chain else y.chain.drop 1 }
  let (c, y2) := c.lookHits tile r x ci pos 8 (y1.advance (x.f 48 4))
  (c.setTile tile y2).handOver tile r ci pos y x

theorem Core.moveOn_spec (c : Core) (tile : Nat) (r : FtRun) (ci pos : Nat) (y : Tile) (x : Desc) :
    ∃ c' y', c.Counted c' ∧ y'.lgs = y.popped ∧ y'.outq = y.outq ∧
      c.moveOn tile r ci pos y x = (c'.setTile tile y').handOver tile r ci pos y x := by
  unfold Core.moveOn
  extract_lets y1
  obtain ⟨count, hlgs, houtq⟩ := Core.lookHits_spec tile r x ci pos 8 c (y1.advance (x.f 48 4))
  obtain ⟨hal, hao⟩ := y1.advance_keeps (x.f 48 4)
  exact ⟨_, _, count, hlgs.trans hal, houtq.trans hao, rfl⟩

/-- A token is released unless a detector stops it. -/
def Core.releaseToken (c : Core) (tile : Nat) (r : FtRun) (ci pos : Nat) (y : Tile) (x : Desc) : Core :=
  match c.injectIf 0x06 tile 0 (fun p => bitAt p 0) with
  | (some _, c) => c.reject r.d 0x4012 (srcOf 0x01 tile) 0xFFFF 0 true
  | (none, c) =>
    let nrun := (y.joined.flatMap fun e => e.runs.map List.length).foldl max 0
    let h := ceilDiv (r.planes + r.tail) (if r.wFmt x == .q2 then 2 else 1)
    (c.bump 0x4800 6 (ceilDiv nrun 2 - h)).moveOn tile r ci pos y x

/-- Is there a next tile that cannot take the token? -/
def Core.nextFull (c : Core) (d : Nat) (next : Option Nat) : Bool :=
  match next with
  | some t => !c.chainRoom d t
  | none => false

/-- What the bond does once the store path has taken what it can: it waits, is spent on a full output FIFO, or releases
its token. -/
def Core.bondHandshake (c : Core) (tile : Nat) (r : FtRun) (ci pos : Nat) (y : Tile) (x : Desc) : Core :=
  if !c.live r.d ∨ y.joined.length < 16 ∨ (pos ≠ 0 ∧ y.chainIn.isNone) ∨ c.nextFull r.d (r.chains.getD ci [])[pos + 1]? then c
  else if ((r.chains.getD ci [])[pos + 1]?).isNone ∧ 8 ≤ y.outq.length then c.bump 0x4800 0xF 1
  else c.releaseToken tile r ci pos y x

theorem Core.bondStep_eq (c : Core) (tile : Nat) (r : FtRun) (ci pos : Nat) (y : Tile) (x : Desc) :
    c.bondStep tile r ci pos y x =
      (Core.drainOuts r.d tile x y.outq.length c).bondHandshake tile r ci pos
        { y with outq := ((Core.drainOuts r.d tile x y.outq.length c).tile tile).outq } x := rfl

/-- Where the output FIFO is empty the store path takes nothing. -/
theorem Core.bondStep_undrained (c : Core) (tile : Nat) (r : FtRun) (ci pos : Nat) (y : Tile) (x : Desc)
    (hy : y.outq = []) (ho : (c.tile tile).outq = []) :
    c.bondStep tile r ci pos y x = c.bondHandshake tile r ci pos y x := by
  have hdrain : Core.drainOuts r.d tile x y.outq.length c = c := by rw [hy]; rfl
  have hy' : ({ y with outq := (c.tile tile).outq } : Tile) = y := by rw [ho, ← hy]
  rw [Core.bondStep_eq, hdrain, hy']

/-- A bond that may release its token counts, moves its tile on, and hands the token over. -/
theorem Core.bondStep_releases (c : Core) (tile : Nat) (r : FtRun) (ci pos : Nat) (y : Tile) (x : Desc) (hi : c.inj = [])
    (hl : c.live r.d = true) (hy : y.outq = []) (ho : (c.tile tile).outq = []) (hj : 16 ≤ y.joined.length)
    (hc : pos = 0 ∨ y.chainIn.isSome = true)
    (hn : ∀ t, (r.chains.getD ci [])[pos + 1]? = some t → c.chainRoom r.d t = true) :
    ∃ c' y', c.Counted c' ∧ y'.lgs = y.popped ∧ y'.outq = [] ∧
      c.bondStep tile r ci pos y x = (c'.setTile tile y').handOver tile r ci pos y x := by
  have hwait : ¬(!c.live r.d ∨ y.joined.length < 16 ∨ (pos ≠ 0 ∧ y.chainIn.isNone) ∨
      c.nextFull r.d (r.chains.getD ci [])[pos + 1]?) := by
    rw [hl]
    rintro (h | h | ⟨hp, h⟩ | h)
    · cases h
    · omega
    · rw [Option.isNone_iff_eq_none.mp h] at hc
      exact hc.elim hp Bool.false_ne_true
    · unfold Core.nextFull at h
      split at h
      · next t ht => rw [hn t ht] at h; cases h
      · cases h
  have hinj : c.injectIf 0x06 tile 0 (fun p => bitAt p 0) = (none, c) := by simp [Core.injectIf, hi]
  rw [Core.bondStep_undrained c tile r ci pos y x hy ho]
  unfold Core.bondHandshake
  rw [if_neg hwait, if_neg (by rw [hy]; simp)]
  unfold Core.releaseToken
  rw [hinj]
  dsimp only
  obtain ⟨c', y', count, hlgs, houtq, e⟩ := Core.moveOn_spec _ tile r ci pos y x
  exact ⟨c', y', .trans (Core.counted_bump _ _ (by decide)) count, hlgs, houtq.trans hy, e⟩

end Sys2Proof.Machine
end

section
/-! SUPPORT. A final tile's token through the output stage, its FIFO and the store path (R60, R61, R64). -/

namespace Sys2Proof.Machine

/-! ### The output stage (R61, R64) -/

theorem Num.ofScaled_finite (m e : Int) : (Num.ofScaled m e).nonFinite = false := by
  unfold Num.ofScaled
  split <;> rfl

/-- Without a table a column's value keeps the column's non-finite mark. -/
theorem outStage_nf (x : Desc) (ws : List Wide) (hty : x.ty = 0x20) (hw : ∀ w ∈ ws, w.nf = false) :
    ∀ o ∈ (outStage x none ws).1, o.nf = false := by
  have hg : x.ty ≠ 0x21 := by rw [hty]; decide
  intro o ho
  simp only [outStage, hg, if_false, List.map_map, List.mem_map] at ho
  obtain ⟨w, hm, rfl⟩ := ho
  exact hw w hm

/-- Finite columns leave the output stage finite. -/
theorem outStage_finite (x : Desc) (ws : List Wide) (hty : x.ty = 0x20) (hw : ∀ w ∈ ws, w.nf = false) :
    (((outStage x none ws).1.map OutVal.num).filter Num.nonFinite).length = 0 := by
  rw [List.length_eq_zero_iff, List.filter_eq_nil_iff]
  intro v hv
  obtain ⟨o, ho, rfl⟩ := List.mem_map.mp hv
  unfold OutVal.num
  rw [outStage_nf x ws hty hw o ho]
  simp [Num.ofScaled_finite]

/-- What a token counts as it leaves the output stage: itself, and how many columns saturated or left the table. -/
def Core.countOut (c : Core) (os : List OutVal × Nat × Nat × Nat) : Core :=
  (((c.bump 0x4800 1 1).bump 0x4800 0xD os.2.1).bump 0x4800 0xB os.2.2.1).bump 0x4800 0xC os.2.2.2

theorem Core.counted_countOut (c : Core) (os : List OutVal × Nat × Nat × Nat) : c.Counted (c.countOut os) := by
  unfold Core.countOut
  iterate 3 refine .trans ?_ (Core.counted_bump _ _ (by decide))
  exact Core.counted_bump _ _ (by decide)

/-- The values of a final tile's token from output column k on, for an ungated product without a table. -/
def Tile.outVals (y : Tile) (x : Desc) (k : Nat) : List Num :=
  (outStage x none (y.sums.take (min 32 (x.f 44 4 - k)))).1.map OutVal.num

/-- A token of an ungated product without a table enters the output FIFO, where a rerun is not under way. -/
theorem Core.outToken_plain (c : Core) (r : FtRun) (x : Desc) (tile ci : Nat) (y : Tile) (hty : x.ty = 0x20)
    (htab : bitAt (x.f 34 1) 3 = false) (hsup : y.sup ≤ y.relTok) :
    ∃ c', c.Counted c' ∧ c.outToken r x tile ci y y.sums = c'.setTile tile { c.tile tile with
      outq := (c.tile tile).outq ++ [{ tok := y.relTok, col := 32 * r.colBlk ci y.relRnd,
                                       vals := y.outVals x (32 * r.colBlk ci y.relRnd) }] } := by
  have hg : x.ty ≠ 0x21 := by rw [hty]; decide
  refine ⟨_, c.counted_countOut (outStage x none (y.sums.take (min 32 (x.f 44 4 - 32 * r.colBlk ci y.relRnd)))), ?_⟩
  unfold Core.outToken
  simp only [htab, hg, Bool.false_eq_true, false_and, if_false, Nat.not_lt.mpr hsup]
  rfl

/-! ### The store path (R60, R64) -/

/-- The bytes of a token's columns from k on: values converted to an element format (R166). -/
def outBytes (c : Core) (r : FtRun) (x : Desc) (t : Elem) (tok k : Nat) (vs : List Num) : List Byte :=
  (convElemsTo t x.nfp (fld (x.f 31 1) 5 4) (c.convKey x.tag r.actLat.layer) 1 (tok * x.f 44 4 + k) vs).flatMap
    fun q => toLE (t.width / 8) q.code

theorem outBytes_shows {c c' : Core} (h : c.Shows c') (r : FtRun) (x : Desc) (t : Elem) (tok k : Nat) (vs : List Num) :
    outBytes c' r x t tok k vs = outBytes c r x t tok k vs := by
  unfold outBytes Core.convKey
  rw [h.obj (j := 0x3A10) (u := 0) (by decide)]

/-- The address of column k of a token in an output of elements of w bits. -/
def FtRun.outAddr (r : FtRun) (x : Desc) (w tok k : Nat) : Nat := r.outAddrs.1 + (tok * x.f 44 4 + k) * (w / 8)

/-- Finite values at a served plain address are written there; the tiles keep their work, and nothing is raised. -/
theorem Core.outElems_plain (c : Core) (r : FtRun) (x : Desc) (src : Nat) (t : Elem) (tok k : Nat) (vs : List Num)
    (hi : c.inj = []) (hl : c.live r.d = true) (hacc : bitAt (x.f 31 1) 7 = false)
    (hfin : (vs.filter Num.nonFinite).length = 0) (ha : r.outAddr x t.width tok k < palBit)
    (hbad : c.lbad (r.outAddr x t.width tok k) (vs.length * (t.width / 8)) = none) :
    let c' := c.outElems r x src t tok k vs
    c'.mem.mem = Mem.write c.mem.mem (r.outAddr x t.width tok k) (outBytes c r x t tok k vs) ∧
      c'.fwd = c.fwd ∧ c'.faultReq = c.faultReq := by
  have counted (c : Core) (t : Tally5) : c.Counted ((c.countConv t).countSeen r.d src
      { nonfin := (vs.filter Num.nonFinite).length }) :=
    .trans (c.counted_countConv t) (Core.counted_countSeen _ _ _ _ hfin)
  intro c'
  obtain ⟨b, hb, e⟩ : ∃ b, c.Counted b ∧ c' = b.outPut r.d (r.outAddr x t.width tok k) (outBytes c r x t tok k vs) := by
    let cs := convElemsTo t x.nfp (fld (x.f 31 1) 5 4) (c.convKey x.tag r.actLat.layer) 1 (tok * x.f 44 4 + k) vs
    have hb := counted c (elemTally vs cs)
    have hlive : ((c.countConv (elemTally vs cs)).countSeen r.d src
        { nonfin := (vs.filter Num.nonFinite).length }).live r.d = true := by
      unfold Core.live Core.desc?
      rw [hb.links]
      exact hl
    refine ⟨_, hb, ?_⟩
    unfold FtRun.outAddr at hbad
    simp only [c', Core.outElems, hbad, hacc, Bool.false_eq_true, false_and, if_false]
    exact if_pos hlive
  obtain ⟨hm, hf, hq⟩ := b.outPut_plain r.d (r.outAddr x t.width tok k) (outBytes c r x t tok k vs)
    (hb.inj.trans hi) ha
  rw [e, hm, hf, hq, hb.mem, hb.fwd, hb.faultReq]
  exact ⟨rfl, rfl, rfl⟩

/-- A token leaves the output FIFO of its tile, and counts in its run. -/
def Core.takeToken (c : Core) (d tile : Nat) (rest : List OutEnt) : Core :=
  let c := c.setTile tile { c.tile tile with outq := rest }
  { c with fwd := { c.fwd with
    runs := c.fwd.runs.map fun (q : FtRun) => if q.d = d then { q with left := q.left - 1 } else q } }

/-- After its last token a run's work is done. -/
def Core.endRun (c : Core) (d : Nat) : Core :=
  match c.run? d with
  | some q => if q.left = 0 then c.workDone d else c
  | none => c

theorem Core.endRun_keeps (c : Core) (d : Nat) :
    (c.endRun d).mem = c.mem ∧ (c.endRun d).fwd = c.fwd ∧ (c.endRun d).faultReq = c.faultReq := by
  unfold Core.endRun Core.workDone
  split
  · split
    · exact ⟨c.modDesc_mem d _, c.modDesc_fwd d _, c.modDesc_faultReq d _⟩
    · exact ⟨rfl, rfl, rfl⟩
  · exact ⟨rfl, rfl, rfl⟩

theorem Core.drainOuts_nil (d tile : Nat) (x : Desc) (f : Nat) (c : Core) (h : (c.tile tile).outq = []) :
    Core.drainOuts d tile x f c = c := by
  cases f with
  | zero => rfl
  | succ f =>
    unfold Core.drainOuts
    rw [h]
    split
    · next hc => cases hc
    · rfl

/-- The store path takes one token of an element format, where nothing holds it up. -/
theorem Core.drainOuts_cons (d tile : Nat) (x : Desc) (f : Nat) (c : Core) (r : FtRun) (e : OutEnt)
    (rest : List OutEnt) (t : Elem) (hr : c.run? d = some r) (ho : (c.tile tile).outq = e :: rest)
    (ht : elemOfCode (x.f 29 1) = some t) (hw : c.mem.entryWaits = []) :
    Core.drainOuts d tile x (f + 1) c = Core.drainOuts d tile x f
      (((c.takeToken d tile rest).outElems r x (srcOf 0x01 tile) t e.tok e.col e.vals).endRun d) := by
  have hheld : c.outHeld r x e = false := by
    unfold Core.outHeld Core.storeWaits
    rw [ht, hw]
    rfl
  rw [Core.drainOuts, hr, ho]
  dsimp only
  rw [hheld, ht]
  rfl

/-- The one token of a final tile's output FIFO goes to memory: its bytes at its place, and nothing else of memory. -/
theorem Core.drainOuts_one (d tile : Nat) (x : Desc) (f : Nat) (c : Core) (r : FtRun) (e : OutEnt) (t : Elem)
    (hr : c.run? d = some r) (hd : r.d = d) (ho : (c.tile tile).outq = [e]) (ht : elemOfCode (x.f 29 1) = some t)
    (hw : c.mem.entryWaits = []) (hi : c.inj = []) (hl : c.live d = true) (hacc : bitAt (x.f 31 1) 7 = false)
    (hfin : (e.vals.filter Num.nonFinite).length = 0) (ha : r.outAddr x t.width e.tok e.col < palBit)
    (hbad : c.lbad (r.outAddr x t.width e.tok e.col) (e.vals.length * (t.width / 8)) = none) :
    (Core.drainOuts d tile x (f + 1) c).mem.mem =
        Mem.write c.mem.mem (r.outAddr x t.width e.tok e.col) (outBytes c r x t e.tok e.col e.vals) ∧
      (Core.drainOuts d tile x (f + 1) c).faultReq = c.faultReq := by
  have hv : c.Shows (c.takeToken d tile []) := ⟨rfl, rfl, rfl, fun _ => rfl⟩
  obtain ⟨hm, hf, hq⟩ := (c.takeToken d tile []).outElems_plain r x (srcOf 0x01 tile) t e.tok e.col e.vals hi
    (by rw [hd]; exact hl) hacc hfin ha ((hv.lbad _ _).trans hbad)
  rw [Core.drainOuts_cons d tile x f c r e [] t hr ho ht hw]
  generalize (c.takeToken d tile []).outElems r x (srcOf 0x01 tile) t e.tok e.col e.vals = b at hm hf hq
  obtain ⟨em, ef, eq⟩ := b.endRun_keeps d
  have hnil : ((b.endRun d).tile tile).outq = [] := by
    unfold Core.tile
    rw [ef, hf]
    exact congrArg Tile.outq (c.setTile_tile_self tile _)
  rw [Core.drainOuts_nil _ _ _ _ _ hnil, em, eq, hm, hq]
  exact ⟨rfl, rfl⟩

end Sys2Proof.Machine
end

section
/-! SUPPORT. What a handshake of the bond that releases a token leaves (O25). -/

namespace Sys2Proof.Machine

/-- A bond at work takes its handshake, and owes what it writes to its descriptor. -/
theorem execBondRelease_eq (s : State) (tile : Nat) (r : FtRun) (ci pos : Nat) (y : Tile) (x : Desc) (ha : s.awake)
    (hw : runsWork s.dev = true) (ht : s.core.tileRun tile = some (r, ci, pos, y)) (hx : s.core.desc? r.d = some x)
    (hq : ((s.core.bondStep tile r ci pos y x)).faultReq = none) :
    execBondRelease tile s = .next (s.withCore ((s.core.bondStep tile r ci pos y x).owe s.core (.desc r.d))) := by
  unfold execBondRelease
  refine lift_quiet ha ?_ (by rw [Core.owe_faultReq, hq])
  rw [if_pos hw, ht]
  simp only [hx]

/-- The next tile of a chain takes the token. -/
theorem Core.handOver_next {c : Core} {tile ci pos t ci' pos' : Nat} {r r' : FtRun} {y z : Tile} {x : Desc}
    (hn : (r.chains.getD ci [])[pos + 1]? = some t) (ht : c.tileRun t = some (r', ci', pos', z)) :
    c.handOver tile r ci pos y x =
      c.setTile t { z with chain := z.chain ++ [{ tok := y.relTok, rnd := y.relRnd, vals := y.sums }] } := by
  unfold Core.handOver
  rw [hn]
  dsimp only
  rw [ht]

/-- A final tile's token goes through the output stage and its FIFO to memory: the bytes of its finite values at their
place, and nothing else of memory. -/
theorem Core.handOver_final (c : Core) (tile : Nat) (r : FtRun) (ci pos : Nat) (y : Tile) (x : Desc) (t : Elem) (k : Nat)
    (hk : k = 32 * r.colBlk ci y.relRnd) (hn : (r.chains.getD ci [])[pos + 1]? = none) (hr : c.run? r.d = some r)
    (ho : (c.tile tile).outq = []) (hty : x.ty = 0x20) (htab : bitAt (x.f 34 1) 3 = false)
    (hacc : bitAt (x.f 31 1) 7 = false) (hsup : y.sup ≤ y.relTok) (ht : elemOfCode (x.f 29 1) = some t)
    (hnf : ∀ w ∈ y.sums, w.nf = false) (hw : c.mem.entryWaits = []) (hi : c.inj = []) (hl : c.live r.d = true)
    (ha : r.outAddr x t.width y.relTok k < palBit)
    (hbad : c.lbad (r.outAddr x t.width y.relTok k) ((y.outVals x k).length * (t.width / 8)) = none) :
    (c.handOver tile r ci pos y x).mem.mem = Mem.write c.mem.mem (r.outAddr x t.width y.relTok k)
        (outBytes c r x t y.relTok k (y.outVals x k)) ∧
      (c.handOver tile r ci pos y x).faultReq = c.faultReq := by
  obtain ⟨b, hb, e⟩ := c.outToken_plain r x tile ci y hty htab hsup
  rw [← hk, ho, List.nil_append] at e
  unfold Core.handOver
  rw [hn]
  dsimp only
  rw [e]
  generalize hf : b.setTile tile _ = f
  have hv : c.Shows f := by
    rw [← hf]
    exact hb.shows.trans ⟨rfl, rfl, rfl, fun _ => rfl⟩
  have hq : (f.tile tile).outq = [{ tok := y.relTok, col := k, vals := y.outVals x k }] := by
    rw [← hf, Core.setTile_tile_self]
  have hrun : f.run? r.d = some r := by
    rw [← hr, ← hf]
    exact congrArg (fun w : Fwd => w.runs.find? fun q => q.d == r.d) hb.fwd
  have hlive : f.live r.d = true := by
    rw [← hl, ← hf]
    exact congrArg (fun w : Links => (KMap.get? w.descs r.d).isSome) hb.links
  have hmem : f.mem = c.mem := by rw [← hf]; exact hb.mem
  have hinj : f.inj = [] := by rw [← hf]; exact hb.inj.trans hi
  have hfault : f.faultReq = c.faultReq := by rw [← hf]; exact hb.faultReq
  obtain ⟨em, eq⟩ := f.drainOuts_one r.d tile x 7 r _ t hrun rfl hq ht (by rw [hmem, hw]) hinj hlive hacc
    (outStage_finite x _ hty fun w h => hnf w (List.mem_of_mem_take h)) ha ((hv.lbad _ _).trans hbad)
  rw [em, eq, hmem, hfault, outBytes_shows hv]
  exact ⟨rfl, rfl⟩

/-- Settles O25: the handshake releases its token (`Core.bondStep_releases`); a next tile takes it into its chain FIFO,
a final tile's token goes through the output FIFO to memory (`Core.drainOuts_one`). -/
theorem bondReleasesTokens : Obligations.BondReleasesTokens := by
  unfold Obligations.BondReleasesTokens
  intro s tile r ci pos y x hs ha hi hwork hrun hx hoq ready ents chainIn ch ws hents hchain
  have hy : y.outq = [] := Core.tileRun_outq hrun hoq
  have hlive : s.core.live r.d = true := by unfold Core.live; rw [hx]; rfl
  refine ⟨fun t z ci' pos' r' hnext hne hrun' hd hz => ?_, ?_⟩
  · obtain ⟨c, y', hc, hlgs, -, e⟩ := s.core.bondStep_releases tile r ci pos y x hi hlive hy hoq hents hchain
      fun u hu => by
        obtain rfl : t = u := Option.some.inj (hnext.symm.trans hu)
        exact Core.chainRoom_of_tileRun hrun' hd hz
    have htile : (c.setTile tile y').tile t = s.core.tile t := by
      rw [Core.setTile_tile_ne _ _ hne]
      unfold Core.tile
      rw [hc.fwd]
    have hruns : (c.setTile tile y').fwd.runs = s.core.fwd.runs := by rw [← hc.fwd]; rfl
    have hrun2 : (c.setTile tile y').tileRun t = some (r', ci', pos', z) := (Core.tileRun_congr hruns htile).trans hrun'
    have hself (w : Tile) : ((c.setTile tile y').setTile t w).tile tile = y' := by
      rw [Core.setTile_tile_ne _ _ hne.symm, Core.setTile_tile_self]
    rw [Core.handOver_next hnext hrun2] at e
    have hexec := execBondRelease_eq s tile r ci pos y x ha hwork hrun hx (by rw [e]; exact hc.faultReq.trans hs)
    rw [e, Core.owe_same _ _ _ (by rw [Core.setTile_mem, Core.setTile_mem, hc.mem])] at hexec
    refine ⟨_, hexec, rfl, rfl, ?_, fun g hg => ?_, hc.mem⟩
    · exact congrArg Tile.chain (Core.setTile_tile_self _ t _)
    · refine (congrArg (fun q : Tile => (KMap.getD q.lgs g {}).fifo) (hself _)).trans ?_
      rw [hlgs, y.popped_getD hg]
  · intro el hnext hr hew hty htab hacc hsup hel hnf k vs i0 a hbad hlt
    obtain ⟨c, y', hc, -, hq', e⟩ := s.core.bondStep_releases tile r ci pos y x hi hlive hy hoq hents hchain
      fun u hu => by rw [hnext] at hu; cases hu
    have hv : s.core.Shows (c.setTile tile y') := hc.shows.trans ⟨rfl, rfl, rfl, fun _ => rfl⟩
    have ha63 : a < palBit := lt_trans hlt (by decide)
    have hlbad : s.core.lbad a (vs.length * (el.width / 8)) = none := by
      unfold Core.lbad
      rw [if_pos ha63, if_neg (by omega), hbad]
    obtain ⟨hm, hq⟩ := (c.setTile tile y').handOver_final tile r ci pos y x el k rfl hnext
      (by rw [← hr]; exact congrArg (fun w : Fwd => w.runs.find? fun q => q.d == r.d) hc.fwd)
      ((congrArg Tile.outq (Core.setTile_tile_self _ _ _)).trans hq') hty htab hacc hsup hel hnf
      ((congrArg MemSys.entryWaits hc.mem).trans hew) (hc.inj.trans hi)
      (by rw [← hlive]; exact congrArg (fun w : Links => (KMap.get? w.descs r.d).isSome) hc.links) ha63
      ((hv.lbad _ _).trans hlbad)
    rw [← e] at hm hq
    have hexec := execBondRelease_eq s tile r ci pos y x ha hwork hrun hx (hq.trans (hc.faultReq.trans hs))
    refine ⟨_, hexec, rfl, rfl, ?_⟩
    refine (Core.owe_mem_mem _ _ _).trans (hm.trans ?_)
    rw [outBytes_shows hv, hv.mem]
    rfl

end Sys2Proof.Machine
end

section
/-! SUPPORT. What the planes of a block add to its register, and what the runs of a lane hold (R50, R51, R53). -/

namespace Sys2Proof.Machine

/-! ### Planes (R50, R51) -/

/-- The signed weight of element i of a block, by the sign of its activation. -/
def signedQ (neg : List Bool) (w : WBlk) (i : Nat) : Int := if neg.getD i false then -w.q.getD i 0 else w.q.getD i 0

/-- The split offset of element i's sub-block. -/
def WBlk.offAt (w : WBlk) (i : Nat) : Nat := fld w.off (2 * (i / 8) + 1) (2 * (i / 8))

theorem WBlk.offAt_lt (w : WBlk) (i : Nat) : w.offAt i < 4 := by
  have e : 2 * (i / 8) + 1 + 1 - 2 * (i / 8) = 2 := by omega
  unfold WBlk.offAt fld
  rw [e]
  exact Nat.mod_lt _ (by norm_num)

/-- Adding the terms that a condition picks is adding the sum of all, with 0 for the others. -/
theorem foldl_add_ite {α : Type} (c : α → Bool) (t : α → Int) (l : List α) (s : Int) :
    l.foldl (fun s p => if c p then s + t p else s) s = s + (l.map fun p => if c p then t p else 0).sum := by
  induction l generalizing s with
  | nil => simp
  | cons p l ih =>
    simp only [List.foldl_cons, List.map_cons, List.sum_cons, ih]
    split <;> omega

theorem sum_listRange (f : Nat → Int) (n : Nat) : ((List.range n).map f).sum = ∑ i ∈ Finset.range n, f i := rfl

/-- A sum over a list with its positions, place by place. -/
theorem map_zipIdx_eq_range {α β : Type} (l : List α) (z : α) (f : α × Nat → β) :
    l.zipIdx.map f = (List.range l.length).map fun i => f (l.getD i z, i) := by
  refine List.ext_getElem (by simp) fun i h _ => ?_
  have hi : i < l.length := by simpa using h
  simp [hi]

/-- One plane adds each element's weight where the element's bit is set, in units shifted by its sub-block's offset. -/
theorem planeAdd_eq_sum (unit : Nat) (bits neg : List Bool) (w : WBlk) (hb : bits.length = 32) (hn : neg.length = 32)
    (hq : w.q.length = 32) : planeAdd unit bits neg w =
      ∑ i ∈ Finset.range 32, if bits.getD i false then signedQ neg w i * ((unit / 2 ^ w.offAt i : Nat) : Int) else 0 := by
  have e : planeAdd unit bits neg w = 0 + (((bits.zip neg).zip w.q).zipIdx.map fun p => if p.1.1.1 then
      (if p.1.1.2 then -p.1.2 else p.1.2) * ((unit / 2 ^ w.offAt p.2 : Nat) : Int) else 0).sum :=
    foldl_add_ite (fun p : ((Bool × Bool) × Int) × Nat => p.1.1.1) _ _ 0
  have hl : ((bits.zip neg).zip w.q).length = 32 := by simp [hb, hn, hq]
  rw [e, zero_add, map_zipIdx_eq_range _ ((false, false), 0), hl, sum_listRange]
  refine Finset.sum_congr rfl fun i hi => ?_
  have hi : i < 32 := Finset.mem_range.mp hi
  simp [signedQ, hb, hn, hq, hi]

/-- The bits of a number below place p, each at its weight, are the number modulo 2^p. -/
theorem sum_bits_eq_mod (m p : Nat) : (∑ j ∈ Finset.range p, if bitAt m j then (2 : Int) ^ j else 0) = (m % 2 ^ p : Nat) := by
  induction p with
  | zero => simp [Nat.mod_one]
  | succ p ih =>
    have h2 : m / 2 ^ p % 2 = 0 ∨ m / 2 ^ p % 2 = 1 := by omega
    rw [Finset.sum_range_succ, ih, Nat.mod_pow_succ]
    unfold bitAt
    rw [Nat.testBit_eq_decide_div_mod_eq]
    rcases h2 with h | h <;> simp [h]

/-- A plane's unit at place j, shifted by an offset of at most 6, is exact. -/
theorem unit_shift (j o : Nat) (h : o < 4) : ((64 * 2 ^ j / 2 ^ o : Nat) : Int) = 2 ^ j * 2 ^ (6 - o) := by
  have e : 64 * 2 ^ j = 2 ^ o * (2 ^ (6 - o) * 2 ^ j) := by
    rw [← mul_assoc, ← pow_add, show o + (6 - o) = 6 by omega]; norm_num
  rw [e, Nat.mul_div_cancel_left _ (by positivity)]
  push_cast
  ring

/-- Adding planes one after another is adding their sum. -/
theorem foldl_add_eq_sum {α : Type} (f : α → Int) (l : List α) (s : Int) :
    l.foldl (fun s p => s + f p) s = s + (l.map f).sum := by
  induction l generalizing s with
  | nil => simp
  | cons p l ih => simp only [List.foldl_cons, List.map_cons, List.sum_cons, ih]; omega

/-- Without a tail the planes of one block, from the top. -/
theorem FtRun.planesOf_noTail (r : FtRun) (tile lg pos rnd tok : Nat) (a : ActBlk) (ht : r.tail = 0) :
    r.planesOf tile lg pos rnd tok [a] =
      (List.range r.planes).reverse.map fun j => (64 * 2 ^ j, [a.mag.map fun m => bitAt m j]) := by
  simp [FtRun.planesOf, ht]

/-- What the planes of a block add, without a tail: the integer dot product of R50, in units of 2^-6. -/
theorem FtRun.planes_dot (r : FtRun) (tile lg pos rnd tok : Nat) (a : ActBlk) (w : WBlk) (ht : r.tail = 0)
    (hm : a.mag.length = 32) (hn : a.neg.length = 32) (hq : w.q.length = 32) (hp : ∀ m ∈ a.mag, m < 2 ^ r.planes) :
    (r.planesOf tile lg pos rnd tok [a]).foldl (fun s p => s + planeAdd p.1 (p.2.getD 0 []) a.neg w) 0 =
      ∑ i ∈ Finset.range 32, signedQ a.neg w i * (a.mag.getD i 0 : Int) * 2 ^ (6 - w.offAt i) := by
  have bits (i j : Nat) (hi : i < 32) : (a.mag.map fun m => bitAt m j).getD i false = bitAt (a.mag.getD i 0) j := by
    simp [hm, hi]
  have plane (j : Nat) : planeAdd (64 * 2 ^ j) (a.mag.map fun m => bitAt m j) a.neg w = ∑ i ∈ Finset.range 32,
      signedQ a.neg w i * 2 ^ (6 - w.offAt i) * (if bitAt (a.mag.getD i 0) j then (2 : Int) ^ j else 0) := by
    rw [planeAdd_eq_sum _ _ _ _ (by simpa using hm) hn hq]
    refine Finset.sum_congr rfl fun i hi => ?_
    rw [bits i j (Finset.mem_range.mp hi), unit_shift j _ (w.offAt_lt i)]
    split <;> ring
  have hsum : ((List.range r.planes).reverse.map fun j =>
        planeAdd (64 * 2 ^ j) (a.mag.map fun m => bitAt m j) a.neg w).sum =
      ∑ j ∈ Finset.range r.planes, planeAdd (64 * 2 ^ j) (a.mag.map fun m => bitAt m j) a.neg w := by
    rw [List.map_reverse, List.sum_reverse, sum_listRange]
  rw [r.planesOf_noTail _ _ _ _ _ _ ht, foldl_add_eq_sum, zero_add, List.map_map]
  refine hsum.trans ?_
  simp only [plane]
  rw [Finset.sum_comm]
  refine Finset.sum_congr rfl fun i hi => ?_
  have hi : i < a.mag.length := by rw [hm]; exact Finset.mem_range.mp hi
  have hlt : a.mag.getD i 0 < 2 ^ r.planes := by
    rw [List.getD_eq_getElem _ _ hi]; exact hp _ (List.getElem_mem hi)
  rw [← Finset.mul_sum, sum_bits_eq_mod, Nat.mod_eq_of_lt hlt]
  ring

/-! ### Runs (R53) -/

/-- The 24-bit range of a block register and of a run's sum. -/
def In24 (v : Int) : Prop := -8388608 ≤ v ∧ v ≤ 8388607

/-- What runs of (sum, exponent) stand for, in units of 2^m. -/
def runsValue (m : Int) (l : List (Int × Int)) : Int := (l.map fun q => q.1 * 2 ^ (q.2 - m).toNat).sum

@[simp] theorem runsValue_nil (m : Int) : runsValue m [] = 0 := rfl
@[simp] theorem runsValue_append (m : Int) (k l : List (Int × Int)) :
    runsValue m (k ++ l) = runsValue m k + runsValue m l := by simp [runsValue]
@[simp] theorem runsValue_cons (m : Int) (p : Int × Int) (l : List (Int × Int)) :
    runsValue m (p :: l) = p.1 * 2 ^ (p.2 - m).toNat + runsValue m l := by simp [runsValue]

/-- Registers at their blocks' exponents, as runs: a block's unit is 2^-6 of its exponent's. -/
def atExps (l : List (Int × Int)) : List (Int × Int) := l.map fun p => (p.1, p.2 - 6)

/-- A register at exponent e may join a run whose top is `top`: it shifts there without loss, and counts in units of
2^m. -/
structure Aligns (m top : Int) (p : Int × Int) : Prop where
  le_top : p.2 ≤ top
  dvd : (2 : Int) ^ (top - p.2).toNat ∣ p.1
  range : In24 p.1
  unit : m ≤ p.2 - 6

/-- A register shifted right stays in the 24-bit range. -/
theorem In24.shift {v : Int} (h : In24 v) (k : Nat) : In24 (v / 2 ^ k) := by
  obtain ⟨lo, hi⟩ := h
  have hk : (1 : Int) ≤ 2 ^ k := one_le_pow₀ (by norm_num)
  refine ⟨(Int.le_ediv_iff_mul_le (by omega)).mpr (by nlinarith), ?_⟩
  have : v / 2 ^ k < 8388608 := (Int.ediv_lt_iff_lt_mul (by omega)).mpr (by nlinarith)
  omega

/-- The alignment shift of a register that aligns keeps its value. -/
theorem Aligns.shift {m top : Int} {p : Int × Int} (h : Aligns m top p) :
    p.1 / 2 ^ (top - p.2).toNat * 2 ^ (top - 6 - m).toNat = p.1 * 2 ^ (p.2 - 6 - m).toNat := by
  obtain ⟨ht, hd, -, hm⟩ := h
  have e : (top - 6 - m).toNat = (top - p.2).toNat + (p.2 - 6 - m).toNat := by omega
  rw [e, pow_add, ← mul_assoc, Int.ediv_mul_cancel hd]

/-- One register joins the run being summed (the step of `promote`). -/
def promoteStep (top : Int) (st : List (Int × Int) × Int × Bool × Nat) (p : Int × Int) :
    List (Int × Int) × Int × Bool × Nat :=
  let v := p.1 / 2 ^ (top - p.2).toNat
  let s := st.2.1 + v
  if st.2.2.1 ∧ (s < -8388608 ∨ 8388607 < s) then (st.1 ++ [(st.2.1, top - 6)], v, true, st.2.2.2 + 1)
  else (st.1, s, true, st.2.2.2)

theorem promote_cons (p : Int × Int) (run : List (Int × Int)) (top : Int) : (promote (p :: run) top).1 =
    ((p :: run).foldl (promoteStep top) ([], 0, false, 0)).1 ++
      [(((p :: run).foldl (promoteStep top) ([], 0, false, 0)).2.1, top - 6)] := rfl

/-- A run being summed: its pieces and its open sum hold the value of n registers, within the 24-bit range. -/
structure Promoting (m top : Int) (value : Int) (n : Nat) (st : List (Int × Int) × Int × Bool × Nat) : Prop where
  value_eq : runsValue m st.1 + st.2.1 * 2 ^ (top - 6 - m).toNat = value
  count : st.1.length + 1 ≤ n
  started : st.2.2.1 = true
  sum_range : In24 st.2.1
  pieces_range : ∀ q ∈ st.1, In24 q.1

theorem Promoting.first {m top : Int} {p : Int × Int} (h : Aligns m top p) :
    Promoting m top (runsValue m (atExps [p])) 1 (promoteStep top ([], 0, false, 0) p) where
  value_eq := by simpa [promoteStep, atExps] using h.shift
  count := by simp [promoteStep]
  started := by simp [promoteStep]
  sum_range := by simpa [promoteStep] using h.range.shift _
  pieces_range := by simp [promoteStep]

theorem Promoting.step {m top value : Int} {n : Nat} {st : List (Int × Int) × Int × Bool × Nat} {p : Int × Int}
    (hs : Promoting m top value n st) (h : Aligns m top p) :
    Promoting m top (value + runsValue m (atExps [p])) (n + 1) (promoteStep top st p) := by
  obtain ⟨hv, hc, hst, hr, hp⟩ := hs
  have hshift := h.shift
  have hval : runsValue m (atExps [p]) = p.1 * 2 ^ (p.2 - 6 - m).toNat := by simp [atExps]
  unfold promoteStep
  dsimp only
  rw [hst, hval, ← hshift, ← hv]
  split
  · refine ⟨?_, by simpa using hc, rfl, h.range.shift _, fun q hq => ?_⟩
    · simp only [runsValue_append, runsValue_cons, runsValue_nil, add_zero]
    · rcases List.mem_append.mp hq with hq | hq
      · exact hp q hq
      · rw [List.mem_singleton.mp hq]; exact hr
  · next hn =>
    refine ⟨by ring, by dsimp only; omega, rfl, ?_, hp⟩
    unfold In24
    simp only [true_and, not_or, not_lt] at hn
    exact hn

theorem Promoting.foldl {m top : Int} {run : List (Int × Int)} (hr : ∀ p ∈ run, Aligns m top p) {value : Int} {n : Nat}
    {st : List (Int × Int) × Int × Bool × Nat} (hs : Promoting m top value n st) :
    Promoting m top (value + runsValue m (atExps run)) (n + run.length) (run.foldl (promoteStep top) st) := by
  induction run generalizing value n st with
  | nil => simpa [atExps] using hs
  | cons p run ih =>
    rw [List.forall_mem_cons] at hr
    have := ih hr.2 (hs.step hr.1)
    simpa [atExps, add_assoc, Nat.add_comm 1] using this

/-- The pieces of registers that align hold exactly the registers' sum, are no more than them, and stay in range. -/
theorem promote_spec (m top : Int) (run : List (Int × Int)) (hr : ∀ p ∈ run, Aligns m top p) :
    runsValue m (promote run top).1 = runsValue m (atExps run) ∧ (promote run top).1.length ≤ run.length ∧
      ∀ q ∈ (promote run top).1, In24 q.1 := by
  cases run with
  | nil => exact ⟨rfl, le_refl _, by simp [promote]⟩
  | cons p run =>
    rw [List.forall_mem_cons] at hr
    obtain ⟨hv, hc, -, hs, hp⟩ := (Promoting.first hr.1).foldl hr.2
    rw [promote_cons, List.foldl_cons]
    refine ⟨?_, by simp only [List.length_append, List.length_cons, List.length_nil]; omega, fun q hq => ?_⟩
    · rw [runsValue_append, runsValue_cons, runsValue_nil, add_zero]
      simpa [atExps] using hv
    · rcases List.mem_append.mp hq with hq | hq
      · exact hp q hq
      · rw [List.mem_singleton.mp hq]; exact hs

/-- One block joins the lane's open run, or closes it and begins the next (the step of `laneRuns`). -/
def laneStep (st : List (Int × Int) × Nat × List (Int × Int) × Int × Int) (p : Int × Int × Int) :
    List (Int × Int) × Nat × List (Int × Int) × Int × Int :=
  let ntop := if st.2.2.1.isEmpty then p.2.1 else max st.2.2.2.1 p.2.1
  let ncap := if st.2.2.1.isEmpty then p.2.1 + p.2.2 else min st.2.2.2.2 (p.2.1 + p.2.2)
  if ncap < ntop then
    (st.1 ++ (promote st.2.2.1 st.2.2.2.1).1, st.2.1 + (promote st.2.2.1 st.2.2.2.1).2, [(p.1, p.2.1)], p.2.1,
      p.2.1 + p.2.2)
  else (st.1, st.2.1, st.2.2.1 ++ [(p.1, p.2.1)], ntop, ncap)

theorem laneRuns_eq (blks : List (Int × Int × Int)) :
    let st := blks.foldl laneStep ([], 0, [], 0, 0)
    (laneRuns blks).1 = st.1 ++ (promote st.2.2.1 st.2.2.2.1).1 := rfl

/-- A block's register leaves room for its alignment shift: it is a multiple of 2^limit, in range, in units of 2^m. -/
structure Roomy (m : Int) (p : Int × Int × Int) : Prop where
  limit : 0 ≤ p.2.2
  dvd : (2 : Int) ^ p.2.2.toNat ∣ p.1
  range : In24 p.1
  unit : m ≤ p.2.1 - 6

/-- What blocks stand for, in units of 2^m. -/
def blksValue (m : Int) (l : List (Int × Int × Int)) : Int := (l.map fun p => p.1 * 2 ^ (p.2.1 - 6 - m).toNat).sum

/-- A register of an open run whose exponents reach from its own to `top`, and may reach to `cap`. -/
structure Joined (m top cap : Int) (p : Int × Int) : Prop where
  le_top : p.2 ≤ top
  dvd : (2 : Int) ^ (cap - p.2).toNat ∣ p.1
  range : In24 p.1
  unit : m ≤ p.2 - 6

/-- A block that leaves room joins a run of any cap its limit allows. -/
theorem Roomy.joined {m top cap : Int} {p : Int × Int × Int} (h : Roomy m p) (ht : p.2.1 ≤ top)
    (hc : cap ≤ p.2.1 + p.2.2) : Joined m top cap (p.1, p.2.1) where
  le_top := ht
  dvd := dvd_trans (pow_dvd_pow _ (by dsimp only; omega)) h.dvd
  range := h.range
  unit := h.unit

theorem Joined.mono {m top cap top' cap' : Int} {p : Int × Int} (h : Joined m top cap p) (ht : top ≤ top')
    (hc : cap' ≤ cap) : Joined m top' cap' p where
  le_top := h.le_top.trans ht
  dvd := dvd_trans (pow_dvd_pow _ (by omega)) h.dvd
  range := h.range
  unit := h.unit

theorem Joined.aligns {m top cap : Int} {p : Int × Int} (h : Joined m top cap p) (hc : top ≤ cap) : Aligns m top p where
  le_top := h.le_top
  dvd := dvd_trans (pow_dvd_pow _ (by omega)) h.dvd
  range := h.range
  unit := h.unit

/-- A lane that has taken n blocks: its closed runs and its open run hold their value. -/
structure Taking (m value : Int) (n : Nat) (st : List (Int × Int) × Nat × List (Int × Int) × Int × Int) : Prop where
  value_eq : runsValue m st.1 + runsValue m (atExps st.2.2.1) = value
  count : st.1.length + st.2.2.1.length ≤ n
  closed_range : ∀ q ∈ st.1, In24 q.1
  joined : ∀ p ∈ st.2.2.1, Joined m st.2.2.2.1 st.2.2.2.2 p
  room : st.2.2.1 ≠ [] → st.2.2.2.1 ≤ st.2.2.2.2

/-- The open run's registers align at its top. -/
theorem Taking.aligns {m value : Int} {n : Nat} {st : List (Int × Int) × Nat × List (Int × Int) × Int × Int}
    (h : Taking m value n st) : ∀ p ∈ st.2.2.1, Aligns m st.2.2.2.1 p :=
  fun p hp => (h.joined p hp).aligns (h.room (List.ne_nil_of_mem hp))

/-- The open run closes, if there is one, and the block begins the next. -/
def laneBegin (st : List (Int × Int) × Nat × List (Int × Int) × Int × Int) (p : Int × Int × Int) :
    List (Int × Int) × Nat × List (Int × Int) × Int × Int :=
  (st.1 ++ (promote st.2.2.1 st.2.2.2.1).1, st.2.1 + (promote st.2.2.1 st.2.2.2.1).2, [(p.1, p.2.1)], p.2.1,
    p.2.1 + p.2.2)

/-- The block joins the open run. -/
def laneJoin (st : List (Int × Int) × Nat × List (Int × Int) × Int × Int) (p : Int × Int × Int) :
    List (Int × Int) × Nat × List (Int × Int) × Int × Int :=
  (st.1, st.2.1, st.2.2.1 ++ [(p.1, p.2.1)], max st.2.2.2.1 p.2.1, min st.2.2.2.2 (p.2.1 + p.2.2))

/-- A block joins the open run where their exponents leave it room, and begins one otherwise. -/
theorem laneStep_cases (st : List (Int × Int) × Nat × List (Int × Int) × Int × Int) (p : Int × Int × Int)
    (hl : 0 ≤ p.2.2) : laneStep st p = laneBegin st p ∨
      (max st.2.2.2.1 p.2.1 ≤ min st.2.2.2.2 (p.2.1 + p.2.2) ∧ laneStep st p = laneJoin st p) := by
  obtain ⟨out, k, run, top, cap⟩ := st
  cases run with
  | nil => left; simp [laneStep, laneBegin, promote, not_lt.mpr hl]
  | cons r run =>
    by_cases h : min cap (p.2.1 + p.2.2) < max top p.2.1
    · left; exact if_pos h
    · right; exact ⟨not_lt.mp h, if_neg h⟩

theorem Taking.begin {m value : Int} {n : Nat} {st : List (Int × Int) × Nat × List (Int × Int) × Int × Int}
    {p : Int × Int × Int} (hs : Taking m value n st) (h : Roomy m p) :
    Taking m (value + blksValue m [p]) (n + 1) (laneBegin st p) := by
  obtain ⟨qv, ql, qr⟩ := promote_spec m _ _ hs.aligns
  obtain ⟨hv, hc, hcl, -, -⟩ := hs
  refine ⟨?_, ?_, fun q hq => ?_, ?_, fun _ => ?_⟩
  · rw [← hv]; simp [laneBegin, blksValue, atExps, qv]
  · simp only [laneBegin, List.length_append, List.length_cons, List.length_nil]; omega
  · exact (List.mem_append.mp hq).elim (hcl q) (qr q)
  · simpa [laneBegin] using h.joined (le_refl _) (le_refl _)
  · simpa [laneBegin] using h.limit

theorem Taking.join {m value : Int} {n : Nat} {st : List (Int × Int) × Nat × List (Int × Int) × Int × Int}
    {p : Int × Int × Int} (hs : Taking m value n st) (h : Roomy m p)
    (hroom : max st.2.2.2.1 p.2.1 ≤ min st.2.2.2.2 (p.2.1 + p.2.2)) :
    Taking m (value + blksValue m [p]) (n + 1) (laneJoin st p) := by
  obtain ⟨hv, hc, hcl, hj, -⟩ := hs
  refine ⟨?_, ?_, hcl, fun q hq => ?_, fun _ => hroom⟩
  · rw [← hv]; simp [laneJoin, blksValue, atExps, add_assoc]
  · simp only [laneJoin, List.length_append, List.length_cons, List.length_nil]; omega
  · rcases List.mem_append.mp hq with hq | hq
    · exact (hj q hq).mono (le_max_left _ _) (min_le_left _ _)
    · rw [List.mem_singleton.mp hq]
      exact h.joined (le_max_right _ _) (min_le_right _ _)

theorem Taking.step {m value : Int} {n : Nat} {st : List (Int × Int) × Nat × List (Int × Int) × Int × Int}
    {p : Int × Int × Int} (hs : Taking m value n st) (h : Roomy m p) :
    Taking m (value + blksValue m [p]) (n + 1) (laneStep st p) := by
  rcases laneStep_cases st p h.limit with e | ⟨hroom, e⟩ <;> rw [e]
  · exact hs.begin h
  · exact hs.join h hroom

theorem Taking.foldl {m : Int} {blks : List (Int × Int × Int)} (hb : ∀ p ∈ blks, Roomy m p) {value : Int} {n : Nat}
    {st : List (Int × Int) × Nat × List (Int × Int) × Int × Int} (hs : Taking m value n st) :
    Taking m (value + blksValue m blks) (n + blks.length) (blks.foldl laneStep st) := by
  induction blks generalizing value n st with
  | nil => simpa [blksValue] using hs
  | cons p blks ih =>
    rw [List.forall_mem_cons] at hb
    have := ih hb.2 (hs.step hb.1)
    simpa [blksValue, add_assoc, Nat.add_comm 1] using this

/-- The runs of blocks that leave room hold exactly the blocks' sum, are no more than them, and stay in range. -/
theorem laneRuns_spec (m : Int) (blks : List (Int × Int × Int)) (hb : ∀ p ∈ blks, Roomy m p) :
    runsValue m (laneRuns blks).1 = blksValue m blks ∧ (laneRuns blks).1.length ≤ blks.length ∧
      ∀ q ∈ (laneRuns blks).1, In24 q.1 := by
  have start : Taking m 0 0 ([], 0, [], 0, 0) := ⟨by simp [atExps], by simp, by simp, by simp, by simp⟩
  have hs := start.foldl hb
  obtain ⟨qv, ql, qr⟩ := promote_spec m _ _ hs.aligns
  obtain ⟨hv, hc, hcl, -, -⟩ := hs
  rw [laneRuns_eq]
  refine ⟨by rw [runsValue_append, qv, hv, zero_add], ?_, fun q hq => ?_⟩
  · rw [List.length_append]; omega
  · rcases List.mem_append.mp hq with hq | hq
    · exact hcl q hq
    · exact qr q hq

/-- Settles O26: planes by exchanging the sums over planes and elements (`FtRun.planes_dot`), runs by the value that a
lane's closed runs and its open run keep (`Taking`). -/
theorem planesGiveTheDotProduct : Obligations.PlanesGiveTheDotProduct := by
  unfold Obligations.PlanesGiveTheDotProduct
  refine ⟨fun blks m h => ?_, fun r tile lg pos rnd tok a w ht hm hn hq hp => ?_⟩
  · exact laneRuns_spec m blks fun p hp => by
      obtain ⟨hl, hd, lo, hi, hu⟩ := h p hp
      exact ⟨hl, hd, ⟨lo, hi⟩, hu⟩
  · exact r.planes_dot tile lg pos rnd tok a w ht hm hn hq hp

end Sys2Proof.Machine
end

section
/-! SUPPORT. What a unit's work leaves of the objects: it moves counters, and with them neither the address map nor the
escalation entries (R318, R452). -/

namespace Sys2Proof.Machine

/-- The objects of counters that a precision unit's work moves: those of forward work, its own handshakes, and the event
log's. -/
def unitCounters : List Nat := fwdCounters ++ [0x5880, 0xB101, 0xB104, 0xB105]

/-- Every object but those counters keeps its value, and every code its escalation class. -/
structure Core.KeepsObjs (c c' : Core) : Prop where
  obj {j u : Nat} (h : okey j u / 256 ∉ unitCounters) : c'.obj j u = c.obj j u
  esc (code : Nat) : c'.escClass code = c.escClass code

theorem Core.KeepsObjs.trans {a b c : Core} (h : a.KeepsObjs b) (k : b.KeepsObjs c) : a.KeepsObjs c where
  obj ho := (k.obj ho).trans (h.obj ho)
  esc code := (k.esc code).trans (h.esc code)

theorem Core.keepsObjs_of_dict {c c' : Core} (h : c'.dict = c.dict) : c.KeepsObjs c' := by
  refine ⟨fun _ => ?_, fun _ => ?_⟩
  · unfold Core.obj
    rw [h]
  · unfold Core.escClass Core.obj
    rw [h]

theorem Core.KeepsObjs.refl (c : Core) : c.KeepsObjs c := Core.keepsObjs_of_dict rfl

/-- A counter lies below the escalation entries. -/
theorem Core.keepsObjs_bump (c : Core) {i u : Nat} (n : Nat) (hi : okey i u / 256 ∈ unitCounters) :
    c.KeepsObjs (c.bump i u n) where
  obj ho := Core.obj_bump_ne c n fun e => ho (by rw [e]; exact hi)
  esc code := by
    refine Core.escClass_bump c (.inl ?_) n code
    have hmax : ∀ k ∈ unitCounters, k ≤ 0xB105 := by decide
    have := hmax _ hi
    omega

/-- A counter counts in a core that has changed elsewhere. -/
theorem Core.keepsObjs_bump_of_dict {c b : Core} {i u n : Nat} (hd : b.dict = c.dict)
    (hi : okey i u / 256 ∈ unitCounters) : c.KeepsObjs (b.bump i u n) :=
  .trans (Core.keepsObjs_of_dict hd) (b.keepsObjs_bump n hi)

/-! ### Stores -/

theorem Core.keepsObjs_evict (stack part n : Nat) (c : Core) (l : Option Nat) :
    c.KeepsObjs (Core.evict stack part n c l).1 := by
  refine Core.keepsObjs_of_dict ?_
  induction n generalizing c l with
  | zero => rfl
  | succ n ih =>
    simp only [Core.evict]
    split
    · exact ih _ _
    · rfl

theorem Core.keepsObjs_makeRoom (c : Core) (stack part g : Nat) : c.KeepsObjs (c.makeRoom stack part g) := by
  unfold Core.makeRoom
  dsimp only
  split
  · generalize hr : Core.evict stack part _ c none = r
    have h : c.KeepsObjs r.1 := hr ▸ Core.keepsObjs_evict stack part _ c none
    exact h.trans (Core.keepsObjs_bump_of_dict rfl (by decide))
  · exact .refl c

theorem Core.keepsObjs_joinWait (c : Core) (pc j g : Nat) : c.KeepsObjs (c.joinWait pc j g) := by
  unfold Core.joinWait
  split
  · exact Core.keepsObjs_bump_of_dict rfl (by decide)
  · exact .refl c

theorem Core.keepsObjs_enterGranule (c : Core) (sums : Bool) (g lo hi : Nat) :
    c.KeepsObjs (c.enterGranule sums g lo hi) := by
  have put (p : Prop) [Decidable p] (c : Core) (e : WcbEntry) (r : List WcbEntry) : c.KeepsObjs
      (if p then c.writeBack e else { c with mem := { c.mem with wcb := r } }) := by
    split <;> exact Core.keepsObjs_of_dict rfl
  unfold Core.enterGranule
  dsimp only
  split
  · exact .trans (Core.keepsObjs_joinWait _ _ _ _) (put _ _ _ _)
  · split
    · exact Core.keepsObjs_makeRoom _ _ _ _
    · exact .trans (Core.keepsObjs_makeRoom _ _ _ _) (put _ _ _ _)

theorem Core.keepsObjs_enterRange (c : Core) (sums : Bool) (a n : Nat) : c.KeepsObjs (c.enterRange sums a n) := by
  unfold Core.enterRange
  split
  · exact .refl c
  · have fold (l : List Nat) (lo hi : Nat → Nat) (c : Core) :
        c.KeepsObjs (l.foldl (fun c i => c.enterGranule sums (a / 256 + i) (lo i) (hi i)) c) := by
      induction l generalizing c with
      | nil => exact .refl c
      | cons i l ih => exact .trans (Core.keepsObjs_enterGranule _ _ _ _ _) (ih _)
    exact fold _ _ _ c

theorem Core.keepsObjs_store (c : Core) (a : Nat) (bs : List Byte) : c.KeepsObjs (c.store a bs) := by
  unfold Core.store
  refine .trans (Core.keepsObjs_of_dict ?_) (Core.keepsObjs_enterRange _ _ _ _)
  dsimp only [Core.clearPoison, Core.breakPools]
  split <;> rfl

/-! ### Logging -/

theorem Core.keepsObjs_countEvent (c : Core) (e : EventRec) (hc : e.cls < 256) (hk : e.code < 65536) :
    c.KeepsObjs (c.countEvent e) := by
  have key {i u : Nat} (h : u < 256) : okey i u / 256 = i := by unfold okey; omega
  unfold Core.countEvent
  refine .trans ?_ (Core.keepsObjs_bump _ _ (by rw [key (by omega)]; decide))
  exact Core.keepsObjs_bump_of_dict rfl (by rw [key hc]; decide)

theorem Core.keepsObjs_note (c : Core) (v : Ev) (hc : c.evClass v < 256) (hk : v.code < 65536) :
    c.KeepsObjs (c.note v) := by
  have queued : c.KeepsObjs (c.enqueueAt (srcDie v.source) (c.evRecord v)) := by
    unfold Core.enqueueAt
    dsimp only
    split
    · exact Core.keepsObjs_of_dict rfl
    · refine .trans ?_ (Core.keepsObjs_bump _ _ (by decide))
      refine .trans ?_ (Core.keepsObjs_countEvent _ _ hc hk)
      exact Core.keepsObjs_of_dict rfl
  unfold Core.note Core.noteAt
  dsimp only
  split
  · exact queued.trans (Core.keepsObjs_of_dict rfl)
  · exact queued

/-! ### The address map -/

/-- Two cores with the same address map, at the same time: what `Core.Shows` says but for the bytes, where more counters
move. -/
structure Core.SameMap (c c' : Core) : Prop where
  now : c'.now = c.now
  module_ : c'.module_ = c.module_
  obj {j u : Nat} (h : okey j u / 256 ∉ unitCounters) : c'.obj j u = c.obj j u

section
variable {c c' : Core} (h : c.SameMap c')
include h

/-- An object of an index that counts nothing. -/
theorem Core.SameMap.objAt {j u : Nat} (hu : u < 256) (hj : j ∉ unitCounters) : c'.obj j u = c.obj j u := by
  refine h.obj ?_
  have e : okey j u / 256 = j := by unfold okey; omega
  rwa [e]

theorem Core.SameMap.meetsArea {k : Nat} (hk : k < 4) (a n : Nat) : c'.meetsArea k a n = c.meetsArea k a n := by
  have hj : 0x6100 + k ∉ unitCounters := by
    simp [unitCounters, fwdCounters]
    omega
  unfold Core.meetsArea Core.poolArea
  rw [h.objAt (u := 1) (by omega) hj, h.objAt (u := 3) (by omega) hj, h.objAt (u := 6) (by omega) hj]

theorem Core.SameMap.bytes (hm : c'.mem.mem = c.mem.mem) (a n : Nat) : c'.bytes a n = c.bytes a n := by
  have area (a n : Nat) :
      ((List.range 4).any fun k => c'.meetsArea k a n) = (List.range 4).any fun k => c.meetsArea k a n := by
    rw [Bool.eq_iff_iff, List.any_eq_true, List.any_eq_true]
    exact exists_congr fun k => and_congr_right fun hk => by rw [h.meetsArea (List.mem_range.mp hk)]
  unfold Core.bytes
  simp only [area, hm, h.now]

theorem Core.SameMap.lread (hm : c'.mem.mem = c.mem.mem) (a n : Nat) : c'.lread a n = c.lread a n := by
  unfold Core.lread Core.pieces Core.palTs
  rw [h.objAt (j := 0x7100) (u := 1) (by decide) (by decide), h.objAt (j := 0x7100) (u := 2) (by decide) (by decide)]
  simp only [h.bytes hm]

theorem Core.SameMap.part {p : Nat} (hp : p < 16) :
    c'.partBase p = c.partBase p ∧ c'.partSize p = c.partSize p := by
  have hj : 0x9100 + p ∉ unitCounters := by
    simp [unitCounters, fwdCounters]
    omega
  unfold Core.partBase Core.partSize
  rw [h.objAt (u := 1) (by omega) hj, h.objAt (u := 2) (by omega) hj]
  exact ⟨rfl, rfl⟩

theorem Core.SameMap.plainAt (a : Nat) : c'.plainAt a = c.plainAt a := by
  have hof : c'.partOf a = c.partOf a := by
    unfold Core.partOf
    refine List.find?_congr fun p hp => ?_
    rw [(h.part (List.mem_range.mp hp)).1, (h.part (List.mem_range.mp hp)).2]
  unfold Core.plainAt Core.hbmBytes
  rw [hof, h.module_]
  split
  · cases hp : c.partOf a with
    | none => rfl
    | some p =>
      obtain ⟨hb, hs⟩ := h.part (List.mem_range.mp (List.mem_of_find?_eq_some hp))
      dsimp only
      rw [hb, hs]
  · rfl

/-- The same accesses are served. -/
theorem Core.SameMap.lbad (a n : Nat) : c'.lbad a n = c.lbad a n := by
  have walk (f a e : Nat) : c'.plainWalk f a e = c.plainWalk f a e := by
    induction f generalizing a with
    | zero => rfl
    | succ f ih => simp only [Core.plainWalk, h.plainAt, ih]
  unfold Core.lbad Core.plainBad Core.palCap
  rw [walk, h.objAt (j := 0x7100) (u := 1) (by decide) (by decide),
    h.objAt (j := 0x7100) (u := 3) (by decide) (by decide)]

end

end Sys2Proof.Machine
end

section
/-! SUPPORT. The invariant of a precision unit at work, and what the shared operations make of it (R96, R97). -/

namespace Sys2Proof.Machine

/-- What a unit at work on descriptor d has made of a core s so far: memory holds m, the next free value is the f-th;
the address map is that of s, nothing is in error or armed, no FAULT_STOP is asked for, and d is issued. -/
structure Core.AtWork (s : Core) (d : Nat) (m : Mem) (f : Nat) (c : Core) : Prop where
  map : s.SameMap c
  mem : c.mem.mem = m
  free : c.free = f
  clean : c.clean
  plain : c.plainEvents
  quiet : c.faultReq = none
  issued : ∃ x, c.desc? d = some x ∧ x.issued = true

section
variable {s c c' : Core} {d f : Nat} {m : Mem} (h : s.AtWork d m f c)
include h

/-- An operation that keeps the objects, the bytes, the good state and the descriptors keeps the unit at work. -/
theorem Core.AtWork.keep (hk : c.KeepsObjs c') (hn : c'.now = c.now) (hmod : c'.module_ = c.module_)
    (hm : c'.mem.mem = c.mem.mem) (hf : c'.free = c.free) (hc : c'.clean) (hq : c'.faultReq = none)
    (hl : c'.links = c.links) : s.AtWork d m f c' where
  map := ⟨hn.trans h.map.now, hmod.trans h.map.module_, fun ho => (hk.obj ho).trans (h.map.obj ho)⟩
  mem := hm.trans h.mem
  free := hf.trans h.free
  clean := hc
  plain code := (hk.esc code).trans (h.plain code)
  quiet := hq
  issued := by
    unfold Core.desc?
    rw [hl]
    exact h.issued

theorem Core.AtWork.bump {i u : Nat} (n : Nat) (hi : okey i u / 256 ∈ unitCounters) : s.AtWork d m f (c.bump i u n) :=
  h.keep (c.keepsObjs_bump n hi) (c.bump_now i u n) (c.bump_module_ i u n) (congrArg _ (c.bump_mem i u n))
    (c.bump_free i u n) (by rw [Core.clean, c.bump_mem, c.bump_inj]; exact h.clean)
    (by rw [c.bump_faultReq]; exact h.quiet) (c.bump_links i u n)

theorem Core.AtWork.live : c.live d = true := by
  obtain ⟨x, hx, -⟩ := h.issued
  unfold Core.live
  rw [hx]
  rfl

/-- A descriptor that stays issued may change. -/
theorem Core.AtWork.setDesc {x : Desc} (hx : x.issued = true) : s.AtWork d m f (c.setDesc d x) where
  map := ⟨h.map.now, h.map.module_, h.map.obj⟩
  mem := h.mem
  free := h.free
  clean := h.clean
  plain := h.plain
  quiet := h.quiet
  issued := ⟨x, Core.setDesc_desc?_self _ _ _, hx⟩

/-- Where no event is escalated, one whose own class is COUNT is logged, and its descriptor goes on (R451). -/
theorem Core.AtWork.raiseOnce {v : Ev} (hv : v.own = 0) (hk : v.code < 65536) : s.AtWork d m f (c.raiseOnce d v) := by
  obtain ⟨x, hx, hi⟩ := h.issued
  unfold Core.raiseOnce
  rw [hx]
  dsimp only
  split
  · exact h
  · have h1 := h.setDesc (x := { x with marks := v.code :: x.marks }) hi
    generalize c.setDesc d { x with marks := v.code :: x.marks } = b at h1
    have hcls : b.evClass { v with d := some d } = 0 := by
      unfold Core.evClass
      rw [h1.plain]
      exact Nat.max_eq_zero_iff.mpr ⟨hv, rfl⟩
    have e : b.raise { v with d := some d } = b.note { v with d := some d } := by
      unfold Core.raise
      rw [hcls]
      simp [hv]
    rw [e]
    exact h1.keep (b.keepsObjs_note _ (by rw [hcls]; decide) hk) (by simp) (by simp) (by simp) (by simp)
      (by rw [Core.clean, Core.note_mem, Core.note_inj]; exact h1.clean)
      (b.note_quiet _ h1.quiet (by rw [hcls]; decide)) (by simp)

/-- Counting what a reading met: non-finite elements are only an event of class COUNT (R33). -/
theorem Core.AtWork.countSeen (src : Nat) (r : Seen) : s.AtWork d m f (c.countSeen d src r) := by
  have h0 := (h.bump (i := 0x3008) (u := 1) r.nonfin (by decide)).bump (i := 0x3008) (u := 4) r.nfZero (by decide)
  have h1 := h0.bump (i := 0x3008) (u := 5) r.rsvd (by decide)
  unfold Core.countSeen
  dsimp only
  split
  · exact h1
  · exact h1.raiseOnce rfl (by norm_num)

theorem Core.AtWork.countConv (t : Tally5) : s.AtWork d m f (c.countConv t) := by
  unfold Core.countConv
  iterate 9 refine Core.AtWork.bump ?_ _ (by decide)
  exact h.bump _ (by decide)

/-- A free value is drawn. -/
theorem Core.AtWork.draw (n : Nat) : s.AtWork d m (f + 1) (c.draw n).2 where
  map := ⟨h.map.now, h.map.module_, h.map.obj⟩
  mem := h.mem
  free := congrArg (· + 1) h.free
  clean := h.clean
  plain := h.plain
  quiet := h.quiet
  issued := h.issued

theorem Core.AtWork.puBusy : s.AtWork d m (f + 1) c.puBusy :=
  (h.draw (2 ^ 32)).bump (i := 0x5880) (u := 2) (c.draw (2 ^ 32)).1 (by decide)

/-! ### Reads and writes -/

theorem Core.AtWork.touch (a n : Nat) : s.AtWork d m f (c.touch a n) := by
  obtain ⟨hi, hs, hf, hp⟩ := h.clean
  have e : c.touch a n = { c.bump 0x9880 8 (c.merges a n) with
      mem := { c.mem with reqs := c.mem.reqs ++ readReqs (c.bump 0x9880 8 (c.merges a n)) a n } } := by
    unfold Core.touch
    dsimp only
    rw [Core.transfers_none c hi]
    simp [hs, hf]
  have h1 := h.bump (i := 0x9880) (u := 8) (c.merges a n) (by decide)
  have hm := c.bump_mem 0x9880 8 (c.merges a n)
  rw [e]
  generalize c.bump 0x9880 8 (c.merges a n) = b at h1 hm
  exact h1.keep (Core.keepsObjs_of_dict rfl) rfl rfl (by rw [hm]) rfl ⟨h1.clean.1, hs, hf, hp⟩ h1.quiet rfl

/-- A descriptor's reads that are served reject nothing. -/
theorem Core.AtWork.fetchAll {rs : List (Nat × Nat × Nat)}
    (hb : ∀ r ∈ rs, r.2.2 = 0 ∨ s.lbad r.2.1 r.2.2 = none) :
    ∃ c', c.fetchAll rs = (c', none) ∧ s.AtWork d m f c' := by
  have fetch {c : Core} (h : s.AtWork d m f c) (a n : Nat) (hb : n = 0 ∨ s.lbad a n = none) :
      ∃ c', c.lfetch a n = (c', none) ∧ s.AtWork d m f c' := by
    unfold Core.lfetch
    split
    · exact ⟨c, rfl, h⟩
    · next hn =>
      have ht : s.AtWork d m f (c.ltouch a n) := by
        unfold Core.ltouch
        generalize c.pieces a n = ps
        induction ps generalizing c with
        | nil => exact h
        | cons p ps ih => exact ih (h.touch p.1 p.2)
      rw [h.map.lbad, hb.resolve_left hn]
      exact ⟨_, by simp [Core.lpoisoned, Core.poisoned, ht.clean.2.2.2], ht⟩
  induction rs generalizing c with
  | nil => exact ⟨c, rfl, h⟩
  | cons r rs ih =>
    obtain ⟨hr, hrs⟩ := List.forall_mem_cons.mp hb
    obtain ⟨c1, e, h1⟩ := fetch h r.2.1 r.2.2 hr
    obtain ⟨c2, e2, h2⟩ := ih h1 hrs
    exact ⟨c2, by rw [Core.fetchAll, e]; exact e2, h2⟩

theorem Core.AtWork.store (a : Nat) (bs : List Byte) : s.AtWork d (Mem.write m a bs) f (c.store a bs) := by
  have hk := c.keepsObjs_store a bs
  obtain ⟨hi, hs, hf, hp⟩ := h.clean
  have e : (c.store a bs).now = c.now ∧ (c.store a bs).module_ = c.module_ ∧ (c.store a bs).free = c.free ∧
      (c.store a bs).mem.injSyms = [] ∧ (c.store a bs).mem.tsFlips = [] ∧ (c.store a bs).mem.poison = [] := by
    unfold Core.store
    dsimp only
    rw [Core.buffered_enterRange]
    dsimp only [Core.clearPoison, Core.breakPools]
    split <;> simp [hs, hf, hp]
  obtain ⟨en, em, ef, es, et, ep⟩ := e
  exact {
    map := ⟨en.trans h.map.now, em.trans h.map.module_, fun ho => (hk.obj ho).trans (h.map.obj ho)⟩
    mem := by rw [Core.store_mem, h.mem]
    free := ef.trans h.free
    clean := ⟨(c.store_inj a bs).trans hi, es, et, ep⟩
    plain := fun code => (hk.esc code).trans (h.plain code)
    quiet := (c.store_faultReq a bs).trans h.quiet
    issued := by
      unfold Core.desc?
      rw [Core.store_links]
      exact h.issued }

/-- A write at a plain address writes its bytes, and no others. -/
theorem Core.AtWork.lput {a : Nat} (ha : a < palBit) (bs : List Byte) :
    s.AtWork d (Mem.write m a bs) f (c.lput a bs) := by
  rw [Core.lput_plain c a bs h.clean.1 ha]
  exact h.store a bs

end

end Sys2Proof.Machine
end

section
/-! SUPPORT. The precision units' issue, operands and results, where the units are free and the formats are FP32 (R96 to
R98). -/

namespace Sys2Proof.Machine

/-! ### Operands -/

/-- The addresses of a precision-unit descriptor: A and its scales, B and its scales, the output and its scales, the
expansion table, the auxiliary one (Table 3.4). -/
def Desc.puAddrs (x : Desc) : List Nat :=
  [x.f 64 8, x.f 72 8, x.f 80 8, x.f 88 8, x.f 96 8, x.f 104 8, x.f 112 8, x.f 120 8]

@[simp] theorem Desc.puAddrs_a (x : Desc) : x.puAddrs.getD 0 0 = x.f 64 8 := rfl
@[simp] theorem Desc.puAddrs_b (x : Desc) : x.puAddrs.getD 2 0 = x.f 80 8 := rfl
@[simp] theorem Desc.puAddrs_out (x : Desc) : x.puAddrs.getD 4 0 = x.f 96 8 := rfl
@[simp] theorem Desc.puAddrs_expansion (x : Desc) : x.puAddrs.getD 6 0 = x.f 112 8 := rfl
@[simp] theorem Desc.puAddrs_aux (x : Desc) : x.puAddrs.getD 7 0 = x.f 120 8 := rfl

/-- Row r of a matrix of w FP32 columns at an address. -/
def Core.fp32Row (c : Core) (a w r : Nat) : List Num :=
  (unpack 32 w (c.lread (a + r * w * 4) (w * 4))).map fmtFP32.decode

theorem Core.fp32Row_length (c : Core) (a w r : Nat) : (c.fp32Row a w r).length = w := by
  simp [Core.fp32Row, unpack]

theorem Opnd.isBlk_fp32 (o : Opnd) (hf : o.fmt = 0x0A) : o.isBlk = false := by
  unfold Opnd.isBlk
  rw [hf]
  rfl

theorem Core.readRow_fp32 (c : Core) (o : Opnd) (hdr : List Byte) (nfp : Bool) (r : Nat) (hf : o.fmt = 0x0A) :
    c.readRow o hdr nfp r =
      (c.fp32Row o.addr o.cols r, { nonfin := ((c.fp32Row o.addr o.cols r).filter Num.nonFinite).length }) := by
  unfold Core.readRow Opnd.isBlk
  rw [hf]
  rfl

/-- Rows of an element format are read as they stand, and no join of them fails. -/
theorem Core.readRows_fp32 (c : Core) (o : Opnd) (hdr : List Byte) (nfp : Bool) (hf : o.fmt = 0x0A)
    (ht : o.top = none) :
    (c.readRows o hdr nfp).1 = (List.range o.rows).map (c.fp32Row o.addr o.cols) ∧
      (c.readRows o hdr nfp).2.skew = none := by
  have fold (l : List Nat) (acc : List (List Num) × Seen) (hs : acc.2.skew = none) :
      let r := l.foldl (fun (acc : List (List Num) × Seen) r =>
        let x := c.readRow o hdr nfp r
        (acc.1 ++ [x.1], acc.2.add x.2)) acc
      r.1 = acc.1 ++ l.map (c.fp32Row o.addr o.cols) ∧ r.2.skew = none := by
    induction l generalizing acc with
    | nil => exact ⟨by simp, hs⟩
    | cons r l ih =>
      obtain ⟨hr, hs'⟩ := ih (acc.1 ++ [(c.readRow o hdr nfp r).1], acc.2.add (c.readRow o hdr nfp r).2)
        (by simp [Seen.add, hs, c.readRow_fp32 o hdr nfp r hf])
      exact ⟨hr.trans (by simp [c.readRow_fp32 o hdr nfp r hf]), hs'⟩
  unfold Core.readRows
  rw [ht]
  exact fold (List.range o.rows) ([], {}) rfl

theorem Seen.add_nonfin (n : Nat) : ({} : Seen).add { nonfin := n } = { nonfin := n } := by simp [Seen.add]

theorem Opnd.ranges_fp32 (o : Opnd) (off soff : Nat) (hdr : List Byte) (hf : o.fmt = 0x0A) (ht : o.top = none) :
    o.ranges off soff hdr = [(off, o.addr, 4 * (o.rows * o.cols))] := by
  have hbytes : ceilDiv (o.rows * o.cols * 32) 8 = 4 * (o.rows * o.cols) := by unfold ceilDiv; omega
  unfold Opnd.ranges Opnd.bytes Opnd.isBlk fmtBits
  rw [hf, ht, ← hbytes]
  rfl

/-- An element format has no header to check. -/
theorem Core.headersOk_fp32 (c : Core) (d src : Nat) (conv : Option Nat)
    (l : List (Nat × Opnd × Bool × (List Byte → Option Nat))) (hs : List (List Byte))
    (k : List (List Byte) → Core → Core) (hf : ∀ p ∈ l, p.2.1.fmt = 0x0A) :
    c.headersOk d src conv l hs k = k (hs.reverse ++ List.replicate l.length []) c := by
  induction l generalizing hs with
  | nil => simp [Core.headersOk]
  | cons p l ih =>
    obtain ⟨hp, hl⟩ := List.forall_mem_cons.mp hf
    rw [Core.headersOk, p.2.1.isBlk_fp32 hp, if_neg Bool.false_ne_true, ih _ hl]
    simp [List.replicate_succ]

/-! ### Conversions -/

/-- The bytes of FP32 values as a unit writes a row of them, rounded to nearest even. -/
def fp32Bytes (nfp : Bool) (vs : List Num) : List Byte :=
  pack 32 (vs.map fun v => ((Elem.flt fmtFP32).conv nfp .rne v).code)

/-- A function of the values alone needs no places. -/
theorem map_zipIdx_left {α β : Type} (g : α → β) (l : List α) : (l.zipIdx.map fun p => g p.1) = l.map g :=
  (List.map_map (f := Prod.fst) (g := g)).symm.trans (congrArg (List.map g) (List.zipIdx_map_fst 0 l))

/-- Without stochastic rounding a conversion needs no counter. -/
theorem convElemsTo_rne (t : Elem) (nfp : Bool) (key role i0 : Nat) (vs : List Num) :
    convElemsTo t nfp 0 key role i0 vs = vs.map fun v => t.conv nfp .rne v :=
  map_zipIdx_left (t.conv nfp .rne) vs

/-! ### The end of a unit's work -/

/-- The unit has done its work on descriptor d, and memory holds m. -/
def Core.Finished (s : Core) (d : Nat) (m : Mem) (c : Core) : Prop := (∃ f, s.AtWork d m f c) ∧ c.isDone d

section
variable {s c : Core} {d f : Nat} {m m' : Mem} (h : s.AtWork d m f c)
include h

theorem Core.AtWork.workDone : s.Finished d m (c.workDone d) := by
  obtain ⟨x, hx, hi⟩ := h.issued
  rw [c.workDone_eq d x hx]
  exact ⟨⟨f, h.setDesc hi⟩, _, Core.setDesc_desc?_self _ _ _, hi, rfl⟩

/-! ### What a unit's work begins with -/

theorem Core.AtWork.fetched {src : Nat} {rs : List (Nat × Nat × Nat)} {k : Core → Core}
    (hb : ∀ r ∈ rs, r.2.2 = 0 ∨ s.lbad r.2.1 r.2.2 = none)
    (hk : ∀ c', s.AtWork d m f c' → s.Finished d m' (k c')) :
    s.Finished d m' (c.fetched d src rs k) := by
  obtain ⟨c', e, h'⟩ := h.fetchAll hb
  unfold Core.fetched
  rw [e]
  exact hk c' h'

theorem Core.AtWork.fp32Row (hm : m = s.mem.mem) (a w r : Nat) : c.fp32Row a w r = s.fp32Row a w r := by
  unfold Core.fp32Row
  rw [h.map.lread (h.mem.trans hm)]

theorem Core.AtWork.lnum (hm : m = s.mem.mem) (a n : Nat) : c.lnum a n = s.lnum a n := by
  unfold Core.lnum
  rw [h.map.lread (h.mem.trans hm)]

/-- A served FP32 operand is read as memory holds it. -/
theorem Core.AtWork.readAll {src off soff slot : Nat} {nfp : Bool} {o : Opnd} {hdr : List Byte}
    {rest : List (Nat × Nat × Nat × Opnd × List Byte)} {acc : List (List (List Num))}
    {k : List (List (List Num)) → Core → Core} (hm : m = s.mem.mem) (hf : o.fmt = 0x0A) (ht : o.top = none)
    (hb : s.lbad o.addr (4 * (o.rows * o.cols)) = none)
    (hk : ∀ c', s.AtWork d m f c' → s.Finished d m'
      (c'.readAll d src nfp rest ((List.range o.rows).map (s.fp32Row o.addr o.cols) :: acc) k)) :
    s.Finished d m' (c.readAll d src nfp ((off, soff, slot, o, hdr) :: rest) acc k) := by
  obtain ⟨c1, e, h1⟩ := h.fetchAll (rs := o.ranges off soff hdr) fun r hr => by
    rw [Opnd.ranges_fp32 o off soff hdr hf ht, List.mem_singleton] at hr
    exact .inr (by rw [hr]; exact hb)
  obtain ⟨hrows, hskew⟩ := c1.readRows_fp32 o hdr nfp hf ht
  have h2 := h1.countSeen src (c1.readRows o hdr nfp).2
  rw [funext (h1.fp32Row hm o.addr o.cols)] at hrows
  rw [Core.readAll, e]
  dsimp only
  rw [hskew]
  dsimp only
  rw [if_pos h2.live, hrows]
  exact hk _ h2

/-! ### Results -/

/-- The first row of a result in FP32 goes to its place, and nothing else of memory changes. -/
theorem Core.AtWork.putRow {t : Dest} (src w : Nat) (nfp : Bool) {vs : List Num} (hmode : t.mode = 0)
    (hacc : t.accum = false) (ha : t.addr < palBit) (hb : s.lbad t.addr (4 * vs.length) = none) :
    s.AtWork d (Mem.write m t.addr (fp32Bytes nfp vs)) f (c.putRow d src nfp t (.flt fmtFP32) w 0 vs) := by
  have hw : (Elem.flt fmtFP32).width = 32 := rfl
  have hn : ceilDiv (0 * w * 32 % 8 + vs.length * 32) 8 = 4 * vs.length := by unfold ceilDiv; omega
  have ha0 : t.addr + 0 * w * 32 / 8 = t.addr := by simp
  have hc := (h.countConv (elemTally vs (vs.map fun v => (Elem.flt fmtFP32).conv nfp .rne v))).countSeen src
    { nonfin := (vs.filter Num.nonFinite).length }
  have hput (c : Core) (cs : List Nat) : c.putCodes t.addr (0 * w * 32 % 8) 32 cs = c.lput t.addr (pack 32 cs) := by
    unfold Core.putCodes
    dsimp only
    rw [if_pos ⟨by simp, by omega⟩]
  unfold Core.putRow
  simp only [hw, ha0, hn, h.map.lbad, hb, hacc, hmode, convElemsTo_rne, Bool.false_eq_true, false_and, if_false]
  rw [if_pos hc.live, hput, List.map_map]
  exact hc.lput ha _

/-- A result of one row in FP32 is that row. -/
theorem Core.AtWork.writeRow {t : Dest} (src w : Nat) (nfp : Bool) {vs : List Num} (hf : t.fmt = 0x0A)
    (hmode : t.mode = 0) (hacc : t.accum = false) (ha : t.addr < palBit) (hb : s.lbad t.addr (4 * vs.length) = none) :
    s.AtWork d (Mem.write m t.addr (fp32Bytes nfp vs)) f (c.writeRows d src nfp t w [vs]) := by
  have e : c.writeRows d src nfp t w [vs] = if c.live d then c.putRow d src nfp t (.flt fmtFP32) w 0 vs else c := by
    unfold Core.writeRows
    rw [hf]
    rfl
  rw [e, if_pos h.live]
  exact h.putRow src w nfp hmode hacc ha hb

/-- The row of results goes to the descriptor's output address. -/
theorem Core.AtWork.result {x : Desc} (src w : Nat) {vs : List Num} (hf : x.f 42 1 = 0x0A)
    (hmode : fld (x.f 43 1) 5 4 = 0) (hacc : bitAt (x.f 43 1) 7 = false) (ha : x.f 96 8 < palBit)
    (hb : s.lbad (x.f 96 8) (4 * vs.length) = none) :
    s.AtWork d (Mem.write m (x.f 96 8) (fp32Bytes x.nfp vs)) f
      ((c.puDest x x.puAddrs).2.writeRows d src x.nfp (c.puDest x x.puAddrs).1 w [vs]) := by
  have e : (c.puDest x x.puAddrs).2 = c := by
    unfold Core.puDest
    rw [hf]
    rfl
  rw [e]
  exact h.writeRow src w x.nfp (t := (c.puDest x x.puAddrs).1) hf hmode hacc ha hb

end

end Sys2Proof.Machine
end

section
/-! SUPPORT. A precision-unit descriptor from its issue on (R96, R98). -/

namespace Sys2Proof.Machine

/-- With no slot armed a unit's buffers are in order (R99). -/
theorem Core.puBuffers_none (c : Core) (h : c.inj = []) (d : Nat) (us : List Nat) : c.puBuffers d us = c := by
  unfold Core.puBuffers
  induction us with
  | nil => rfl
  | cons u us ih =>
    rw [List.foldl_cons, Core.inject_none c h]
    simpa using ih

/-- Addresses without bit 63 stay as they are (R243). -/
theorem Core.resolveAll_plain (c : Core) (fs : List (Nat × Nat)) (h : ∀ p ∈ fs, p.2 < 2 ^ 63) :
    c.resolveAll true fs = .ok (fs.map Prod.snd) := by
  induction fs with
  | nil => rfl
  | cons p fs ih =>
    obtain ⟨hp, hfs⟩ := List.forall_mem_cons.mp h
    rw [Core.resolveAll, ih hfs]
    dsimp only
    rw [if_neg fun hn => absurd hn.2 (Nat.not_le.mpr hp)]
    rfl

theorem Core.resolved_plain (c : Core) (d src : Nat) (fs : List (Nat × Nat)) (k : List Nat → Core → Core)
    (h : ∀ p ∈ fs, p.2 < 2 ^ 63) : c.resolved d src true fs k = k (fs.map Prod.snd) c := by
  unfold Core.resolved
  rw [c.resolveAll_plain fs h]

/-- Without RC a stage goes on (R246). -/
theorem Core.rcGate_off (c : Core) (d src : Nat) (x : Desc) (kind2 : Bool) (k : Core → Core) (h : x.rc = false) :
    c.rcGate d src x kind2 k = k c := by
  unfold Core.rcGate
  rw [h]
  rfl

/-- A precision-unit descriptor of this type that may begin: issued to free units in a good state, without RC, its
addresses plain ones, on one row of FP32 operands and results. -/
structure State.PuReady (s : State) (d ty : Nat) (x : Desc) : Prop where
  settled : s.settled
  awake : s.awake
  clean : s.core.clean
  plain : s.core.plainEvents
  issues : s.issues d x ty
  free : s.core.puFree d = true
  rc : x.rc = false
  addrs : ∀ o ∈ [64, 72, 80, 88, 96, 104, 112, 120], x.f o 8 < 2 ^ 63
  fmtA : x.f 40 1 = 0x0A
  fmtB : x.f 41 1 = 0x0A
  fmtOut : x.f 42 1 = 0x0A
  oneRow : x.f 60 4 = 1

theorem State.PuReady.outPlain {s : State} {d ty : Nat} {x : Desc} (h : s.PuReady d ty x) : x.f 96 8 < palBit :=
  (h.addrs 96 (by simp)).trans (by decide)

theorem State.PuReady.auxPlain {s : State} {d ty : Nat} {x : Desc} (h : s.PuReady d ty x) : x.f 120 8 < palBit :=
  (h.addrs 120 (by simp)).trans (by decide)

/-- Its checks passed, its work begins on a core of which nothing that work reads has changed. -/
theorem State.PuReady.issue {s : State} {d ty : Nat} {x : Desc} (h : s.PuReady d ty x) (fmts : Desc → List Nat)
    (work : Desc → Nat → List Nat → Core → Core) (hchk : firstBad (s.core.puChecks x (fmts x)) = none) :
    ∃ c src c0, s.core.AtWork d s.core.mem.mem s.core.free c ∧
      s.core.puIssue s.dev d ty fmts work = (work x src x.puAddrs c).owe c0 (.desc d) := by
  obtain ⟨hx, hi, hh⟩ := h.issues
  have h1 : s.core.AtWork d s.core.mem.mem s.core.free
      ((s.core.setDesc d { x with issued := true }).noteIssue (s.core.puDoms x)) := {
    map := ⟨rfl, rfl, fun _ => rfl⟩
    mem := rfl
    free := rfl
    clean := h.clean
    plain := h.plain
    quiet := h.settled
    issued := ⟨_, Core.setDesc_desc?_self _ _ _, rfl⟩ }
  have hchk1 : firstBad (((s.core.setDesc d { x with issued := true }).noteIssue (s.core.puDoms x)).puChecks x
      (fmts x)) = none := hchk
  unfold Core.puIssue
  rw [if_neg (by rw [h.free]; decide), Core.issue_ok s.core s.dev d _ _ _ x hx hi hh]
  dsimp only
  generalize (s.core.setDesc d { x with issued := true }).noteIssue (s.core.puDoms x) = c1 at h1 hchk1 ⊢
  refine ⟨c1, srcOf 0x04 ((c1.units x).headD 0), c1, h1, ?_⟩
  rw [Core.checked_ok _ _ _ _ _ hchk1, Core.rcGate_off _ _ _ _ _ _ h.rc,
    Core.resolved_plain _ _ _ _ _ (by simpa using h.addrs), Core.puBuffers_none _ h1.clean.1, if_pos h1.live]
  rfl

/-- A command whose work finishes ends in what that work made, and nothing else of memory changes. -/
theorem State.PuReady.runs {s : State} {d ty : Nat} {x : Desc} {m : Mem} (h : s.PuReady d ty x)
    {fmts : Desc → List Nat} {work : Desc → Nat → List Nat → Core → Core}
    (hchk : firstBad (s.core.puChecks x (fmts x)) = none)
    (hwork : ∀ c src, s.core.AtWork d s.core.mem.mem s.core.free c → s.core.Finished d m (work x src x.puAddrs c)) :
    ∃ c : Core, lift (fun dev c => c.puIssue dev d ty fmts work) s = .next (s.withCore c) ∧ c.isDone d ∧
      c.mem.mem = m := by
  obtain ⟨c, src, c0, hc, e⟩ := h.issue fmts work hchk
  obtain ⟨⟨f, hf⟩, hd⟩ := hwork c src hc
  refine ⟨_, lift_quiet h.awake e (by rw [Core.owe_faultReq, hf.quiet]), ?_, by rw [Core.owe_mem_mem, hf.mem]⟩
  unfold Core.isDone Core.desc?
  rw [Core.owe_links]
  exact hd

end Sys2Proof.Machine
end

section
/-! SUPPORT. The four types of the precision units on one FP32 row (R97). -/

namespace Sys2Proof.Machine

theorem Core.served.all {c : Core} {a n : Nat} (h : c.served a n) : c.lbad a n = none := h a n le_rfl le_rfl

/-- FP32 values in storage, as a stage stores them one by one. -/
def storedF32 (nfp : Bool) (vs : List Num) : List Byte :=
  vs.flatMap fun v => toLE 4 ((Elem.flt fmtFP32).conv nfp .rne v).code

theorem Core.AtWork.storeF32 {s c : Core} {d f : Nat} {m : Mem} (h : s.AtWork d m f c) (src : Nat) (nfp : Bool)
    (vs : List Num) :
    (c.storeF32 d src nfp vs).1 = storedF32 nfp vs ∧ s.AtWork d m f (c.storeF32 d src nfp vs).2 :=
  ⟨List.flatMap_map .., (h.countConv _).countSeen src _⟩

theorem toLE_length (n v : Nat) : (toLE n v).length = n := by
  induction n generalizing v with
  | zero => rfl
  | succ n ih => rw [toLE, List.length_cons, ih]

theorem transpose_length (n : Nat) (rows : List (List Num)) : (transpose n rows).length = n := by simp [transpose]

section
variable {s : State} {d : Nat} {x : Desc}

/-- Type 0x58 with FP32 products and no bias: each element of the row is the dot product with its column. -/
theorem puProduct_runs (h : s.PuReady d 0x58 x) (hchk : firstBad (s.core.puChecks x [40, 41, 42]) = none)
    (hfl : x.f 43 1 = 0x40) (hex : x.f 112 8 = 0) (haux : x.f 120 8 = 0)
    (ha : s.core.served (x.f 64 8) (4 * x.f 52 4))
    (hb : s.core.served (x.f 80 8) (4 * x.f 52 4 * x.f 56 4)) (ho : s.core.served (x.f 96 8) (4 * x.f 56 4)) :
    ∃ c : Core, exec (.puProduct d) s = .next (s.withCore c) ∧ c.isDone d ∧
      c.mem.mem = Mem.write s.core.mem.mem (x.f 96 8) (fp32Bytes x.nfp
        ((transpose (x.f 56 4) (((List.range (x.f 52 4)).map (s.core.fp32Row (x.f 80 8) (x.f 56 4))).map
          (heldIn fmtFP32))).map fun col => dotRow (heldIn fmtFP32 (s.core.fp32Row (x.f 64 8) (x.f 52 4) 0)) col)) := by
  have htrans : bitAt (x.f 43 1) 3 = false := by rw [hfl]; rfl
  have hfmt : puFmt (bitAt (x.f 43 1) 6) = fmtFP32 := by rw [hfl]; rfl
  refine h.runs (fmts := fun _ => [40, 41, 42]) hchk fun c src hc => ?_
  simp only [h.fmtA, h.fmtB, h.oneRow, htrans, hfmt, Desc.puAddrs_a, Desc.puAddrs_b, Desc.puAddrs_expansion,
    Desc.puAddrs_aux, hex, haux, if_true, Bool.false_eq_true, if_false]
  refine hc.fetched (by simp) fun c hc => ?_
  rw [Core.headersOk_fp32 _ _ _ _ _ _ _ (by simp)]
  refine hc.readAll rfl rfl rfl ?_ fun c hc => ?_
  · rw [Nat.one_mul]; exact ha.all
  refine hc.readAll rfl rfl rfl ?_ fun c hc => ?_
  · rw [← Nat.mul_assoc]; exact hb.all
  simp only [Core.readAll, List.reverse_cons, List.reverse_nil, List.nil_append, List.cons_append, List.getD_cons_zero,
    List.getD_cons_succ, List.range_one, List.map_cons, List.map_nil, map_zipIdx_left]
  have hc := ((hc.countConv (heldTally fmtFP32 [s.core.fp32Row (x.f 64 8) (x.f 52 4) 0])).countConv
    (heldTally fmtFP32 ((List.range (x.f 52 4)).map (s.core.fp32Row (x.f 80 8) (x.f 56 4))))).countSeen src
    { nonfin := (([] : List Num).filter Num.nonFinite).length }
  rw [if_neg (by rw [hc.live]; decide)]
  refine (hc.result src _ h.fmtOut (by rw [hfl]; rfl) (by rw [hfl]; rfl) h.outPlain ?_).puBusy.workDone
  rw [List.length_map, transpose_length]
  exact ho.all

/-- Statistics of one row that are not applied go to the auxiliary address. -/
theorem Core.AtWork.statsOut {s c : Core} {f : Nat} {m : Mem} (h : s.AtWork d m f c) (src : Nat)
    (r gamma beta : List Num) (hctl : bitAt (x.f 44 1) 1 = false) (ha : x.f 120 8 < palBit)
    (hb : s.lbad (x.f 120 8) 8 = none) :
    let st := rowStats (puFmt (bitAt (x.f 43 1) 6)) (!bitAt (x.f 44 1) 0) (f32 (x.f 48 4)) (heldIn fmtFP32 r)
    s.Finished d (Mem.write m (x.f 120 8) (storedF32 x.nfp [st.1, st.2]))
      (c.statsOut d src x x.puAddrs [r] gamma beta) := by
  intro st
  have h1 := h.countConv (heldTally fmtFP32 [r])
  obtain ⟨hbytes, h2⟩ := h1.storeF32 src x.nfp [st.1, st.2]
  have h3 := h2.lput ha (storedF32 x.nfp [st.1, st.2])
  unfold Core.statsOut
  simp only [Desc.puAddrs_aux, List.map_cons, List.map_nil, List.flatMap_cons, List.flatMap_nil, List.append_nil,
    List.length_singleton, Nat.mul_one, h1.map.lbad, hb, hctl, Bool.false_eq_true, if_false]
  rw [hbytes, if_pos h2.live, if_neg (by rw [h3.live]; decide)]
  exact h3.puBusy.workDone

/-- Type 0x59 without normalisation. -/
theorem rowStatistics_runs (h : s.PuReady d 0x59 x) (hchk : firstBad (s.core.puChecks x [40]) = none)
    (hctl : x.f 44 1 < 2) (ha : s.core.served (x.f 64 8) (4 * x.f 52 4)) (haux : s.core.served (x.f 120 8) 8) :
    ∃ c : Core, exec (.rowStatistics d) s = .next (s.withCore c) ∧ c.isDone d ∧
      let st := rowStats (puFmt (bitAt (x.f 43 1) 6)) (!bitAt (x.f 44 1) 0) (f32 (x.f 48 4))
        (heldIn fmtFP32 (s.core.fp32Row (x.f 64 8) (x.f 52 4) 0))
      c.mem.mem = Mem.write s.core.mem.mem (x.f 120 8) (storedF32 x.nfp [st.1, st.2]) := by
  have happly : bitAt (x.f 44 1) 1 = false := Nat.testBit_lt_two_pow hctl
  refine h.runs (fmts := fun x => [40] ++
    (if bitAt (x.f 44 1) 1 && (x.f 80 8 != 0 || x.f 112 8 != 0) then [41] else []) ++
    (if bitAt (x.f 44 1) 1 then [42] else [])) (by simpa [happly] using hchk) fun c src hc => ?_
  simp only [h.fmtA, h.oneRow, happly, Desc.puAddrs_a, Bool.false_and, Bool.false_eq_true, if_false, List.append_nil]
  refine hc.fetched (by simp) fun c hc => ?_
  rw [Core.headersOk_fp32 _ _ _ _ _ _ _ (by simp)]
  refine hc.readAll rfl rfl rfl ?_ fun c hc => ?_
  · rw [Nat.one_mul]; exact ha.all
  have hc := hc.countSeen src { nonfin := ((List.replicate (x.f 52 4) (Num.zero false)).filter Num.nonFinite).length }
  simp only [Core.readAll, List.reverse_cons, List.reverse_nil, List.nil_append, List.getD_cons_zero, List.range_one,
    List.map_cons, List.map_nil]
  rw [if_pos hc.live]
  exact hc.statsOut src _ _ _ happly h.auxPlain haux.all

/-- Type 0x5A of one row with BF16 products, whose index names a row of the table. -/
theorem gather_runs (h : s.PuReady d 0x5A x) (hchk : firstBad (s.core.puChecks x [41, 42]) = none)
    (hfl : x.f 43 1 = 0) (hex : x.f 112 8 = 0) (haux : s.core.served (x.f 120 8) 4)
    (hb : s.core.served (x.f 80 8) (4 * x.f 52 4 * x.f 56 4))
    (ho : s.core.served (x.f 96 8) (4 * x.f 56 4)) (hi : s.core.lnum (x.f 120 8) 4 < x.f 52 4) :
    ∃ c : Core, exec (.gather d) s = .next (s.withCore c) ∧ c.isDone d ∧
      c.mem.mem = Mem.write s.core.mem.mem (x.f 96 8) (fp32Bytes x.nfp
        ((heldIn fmtBF16 (s.core.fp32Row (x.f 80 8) (x.f 56 4) (s.core.lnum (x.f 120 8) 4))).map
          (fmul (toBf16 (f32 (x.f 48 4)))))) := by
  have hfmt : puFmt (bitAt (x.f 43 1) 6) = fmtBF16 := by rw [hfl]; rfl
  refine h.runs (fmts := fun _ => [41, 42]) hchk fun c src hc => ?_
  simp only [h.fmtB, h.oneRow, hfmt, Desc.puAddrs_b, Desc.puAddrs_expansion, Desc.puAddrs_aux, hex, if_true]
  refine hc.fetched (by simpa using haux.all) fun c hc => ?_
  rw [Core.headersOk_fp32 _ _ _ _ _ _ _ (by simp)]
  have hbits : fmtBits 0x0A = 32 := rfl
  have hrow : ceilDiv (x.f 56 4 * 32) 8 = 4 * x.f 56 4 := by unfold ceilDiv; omega
  simp only [List.range_one, List.map_cons, List.map_nil, Nat.mul_zero, Nat.add_zero, hc.lnum rfl, List.filter_cons, hi,
    decide_true, if_true, List.filter_nil, List.flatMap_cons, List.flatMap_nil, Opnd.isBlk_fp32, hbits, hrow,
    Bool.false_eq_true, if_false, List.append_nil]
  refine hc.fetched ?_ fun c hc => ?_
  · have hle := Nat.mul_le_mul_right (x.f 56 4) (Nat.succ_le_of_lt hi)
    rw [Nat.succ_mul] at hle
    rw [List.forall_mem_singleton]
    dsimp only
    exact .inr (hb _ _ (Nat.le_add_right _ _) (by rw [Nat.mul_assoc 4]; omega))
  simp only [Core.readRow_fp32, hc.fp32Row rfl, List.foldl_cons, List.foldl_nil, Seen.add_nonfin, List.zip_cons_cons,
    List.zip_nil_right, List.filterMap_cons, List.filterMap_nil, hi, if_true, List.map_cons, List.map_nil,
    List.length_singleton, Nat.sub_self, Core.bump_zero]
  have hc := hc.countSeen src
    { nonfin := ((s.core.fp32Row (x.f 80 8) (x.f 56 4) (s.core.lnum (x.f 120 8) 4)).filter Num.nonFinite).length }
  rw [if_neg (by rw [hc.live]; decide)]
  have hc := hc.countConv (heldTally fmtBF16 [s.core.fp32Row (x.f 80 8) (x.f 56 4) (s.core.lnum (x.f 120 8) 4)])
  refine (hc.result src _ h.fmtOut (by rw [hfl]; rfl) (by rw [hfl]; rfl) h.outPlain ?_).puBusy.workDone
  rw [List.length_map, heldIn, List.length_map, Core.fp32Row_length]
  exact ho.all

/-! ### Sorting -/

/-- A row's order rests on nothing of the state but the next free value, which places a NaN. -/
theorem Core.sortRow_congr {c c' : Core} (desc : Bool) (vs : List Num) (h : c.free = c'.free) :
    (c.sortRow desc vs).1 = (c'.sortRow desc vs).1 := by
  unfold Core.sortRow
  refine (List.foldl_rel (r := fun a b : List SortEnt × Core => a.1 = b.1 ∧ a.2.free = b.2.free)
    (a := ([], c)) (b := ([], c')) ⟨rfl, h⟩ ?_).1
  rintro ⟨v, i⟩ - a b ⟨hl, hf⟩
  cases v with
  | nan => exact ⟨by simp only [Core.draw, hl, hf], congrArg (· + 1) hf⟩
  | _ => exact ⟨by simp only [hl], hf⟩

theorem Core.AtWork.sortRow {s c : Core} {d f : Nat} {m : Mem} (h : s.AtWork d m f c) (desc : Bool) (vs : List Num) :
    ∃ f', s.AtWork d m f' (c.sortRow desc vs).2 := by
  unfold Core.sortRow
  refine List.foldlRecOn (motive := fun a : List SortEnt × Core => ∃ f', s.AtWork d m f' a.2) _ _ ⟨f, h⟩ ?_
  rintro a ⟨g, hg⟩ ⟨v, i⟩ -
  cases v with
  | nan => exact ⟨g + 1, hg.draw 0x7F800000⟩
  | _ => exact ⟨g, hg⟩

/-- Type 0x5B, the p largest of one row. -/
theorem select_runs (h : s.PuReady d 0x5B x) (hchk : firstBad (s.core.puChecks x [40, 42]) = none)
    (hfl : x.f 43 1 = 0) (hop : x.f 44 1 = 0) (ha : s.core.served (x.f 64 8) (4 * x.f 56 4))
    (haux : s.core.served (x.f 120 8) (4 * x.f 48 4)) (ho : s.core.served (x.f 96 8) (4 * x.f 48 4)) :
    ∃ c : Core, exec (.select d) s = .next (s.withCore c) ∧ c.isDone d ∧
      let l := ((s.core.sortRow true (s.core.fp32Row (x.f 64 8) (x.f 56 4) 0)).1).take (x.f 48 4)
      c.mem.mem = Mem.write (Mem.write s.core.mem.mem (x.f 120 8) (l.flatMap fun q => toLE 4 q.i)) (x.f 96 8)
        (fp32Bytes x.nfp (l.map SortEnt.v)) := by
  refine h.runs (fmts := fun _ => [40, 42]) hchk fun c src hc => ?_
  simp only [h.fmtA, h.oneRow, hop, Desc.puAddrs_a, Desc.puAddrs_aux, Nat.zero_mod, if_true]
  rw [Core.headersOk_fp32 _ _ _ _ _ _ _ (by simp)]
  refine hc.readAll rfl rfl rfl ?_ fun c hc => ?_
  · rw [Nat.one_mul]; exact ha.all
  simp only [Core.readAll, List.reverse_cons, List.reverse_nil, List.nil_append, List.getD_cons_zero, List.range_one,
    List.map_cons, List.map_nil, List.foldl_cons, List.foldl_nil]
  have hdesc : ((0 : Nat) != 1) = true := rfl
  rw [hdesc, Core.sortRow_congr (c' := s.core) true _ hc.free]
  have hlen := List.length_take_le (x.f 48 4) (s.core.sortRow true (s.core.fp32Row (x.f 64 8) (x.f 56 4) 0)).1
  generalize ((s.core.sortRow true (s.core.fp32Row (x.f 64 8) (x.f 56 4) 0)).1).take (x.f 48 4) = l at hlen ⊢
  obtain ⟨f, hc⟩ := hc.sortRow true (s.core.fp32Row (x.f 64 8) (x.f 56 4) 0)
  have hix : (l.flatMap fun q => toLE 4 q.i).length = 4 * l.length := by
    simp [List.length_flatMap, toLE_length, Nat.mul_comm]
  rw [List.flatMap_singleton, hc.map.lbad, haux _ _ le_rfl (by omega)]
  have hc := (hc.lput h.auxPlain (l.flatMap fun q => toLE 4 q.i)).bump (i := 0x5880) (u := 2)
    (1 * (ceilDiv (x.f 56 4) 64 + x.f 48 4)) (by decide)
  refine (hc.result src _ h.fmtOut (by rw [hfl]; rfl) (by rw [hfl]; rfl) h.outPlain ?_).workDone
  rw [List.length_map]
  exact ho _ _ le_rfl (by omega)

end

/-- Settles O27: the units read their FP32 rows as memory holds them (`Core.AtWork.readAll`), and each type's row of
results goes to its address and nowhere else (`puProduct_runs`, `rowStatistics_runs`, `gather_runs`, `select_runs`). -/
theorem precisionUnitsCompute : Obligations.PrecisionUnitsCompute := by
  unfold Obligations.PrecisionUnitsCompute
  intro s d ty x e hs ha hc hp hi hfree hrc haddr he hfa hfb hfo hm n k p out aux rows row codes
  obtain rfl : Elem.flt fmtFP32 = e := Option.some.inj he
  have hrows (a r w : Nat) : rows a r w = (List.range r).map (s.core.fp32Row a w) :=
    (s.core.readRows_fp32 _ _ _ rfl rfl).1
  have hrow (a w : Nat) : row a w = s.core.fp32Row a w 0 := by
    change (rows a 1 w).getD 0 [] = _
    rw [hrows]
    rfl
  have ready {t : Nat} (ht : ty = t) : s.PuReady d t x :=
    ⟨hs, ha, hc, hp, ht ▸ hi, hfree, hrc, haddr, hfa, hfb, hfo, hm⟩
  refine ⟨fun ht hchk hfl hex haux hA hB hO => ?_, fun ht hchk hctl hA hX => ?_,
    fun ht hchk hfl hex hX hB hO hlt => ?_, fun ht hchk hfl hop hA hX hO => ?_⟩
  · rw [hrows, hrow]
    exact puProduct_runs (ready ht) hchk hfl hex haux hA hB hO
  · have hrms : (x.f 44 1 == 0) = !bitAt (x.f 44 1) 0 := by
      generalize x.f 44 1 = v at hctl
      interval_cases v <;> rfl
    rw [hrow, hrms]
    exact rowStatistics_runs (ready ht) hchk hctl hA hX
  · have hget : (rows (x.f 80 8) k n).getD (s.core.lnum aux 4) [] =
        s.core.fp32Row (x.f 80 8) n (s.core.lnum aux 4) := by
      rw [hrows]
      simp [List.getD, hlt]
    rw [hget]
    exact gather_runs (ready ht) hchk hfl hex hX hB hO hlt
  · rw [hrow]
    exact select_runs (ready ht) hchk hfl hop hA hX hO

end Sys2Proof.Machine
end

section
/-! SUPPORT. Writes to HBM leave traces: an entry of the write-combining buffer, or a write that waits for one in the
name of no descriptor (R311, R316). What the memory system's operations leave of them. -/

namespace Sys2Proof.Machine

/-! ### Traces -/

/-- Nothing shows of a write to HBM: no free value was drawn, no entry of the buffer is in use or being written back,
and every write that waits for an entry waits for a descriptor or a peer. -/
structure Core.Traceless (c : Core) : Prop where
  free : c.free = 0
  wcb : c.mem.wcb = []
  wbs : c.mem.wbs = []
  owed : ∀ w ∈ c.mem.entryWaits, w.who ≠ .unit

/-- What leads from c to c' keeps the traces there are, and leaves one where it changes a byte of HBM. -/
def Core.Tracks (c c' : Core) : Prop :=
  c'.Traceless → c.Traceless ∧ ∀ a < tsBase, Mem.get c'.mem.mem a = Mem.get c.mem.mem a

theorem Core.Tracks.refl (c : Core) : c.Tracks c := fun h => ⟨h, fun _ _ => rfl⟩

theorem Core.Tracks.trans {a b c : Core} (h : a.Tracks b) (k : b.Tracks c) : a.Tracks c := by
  intro hc
  obtain ⟨hb, ebc⟩ := k hc
  obtain ⟨ha, eab⟩ := h hb
  exact ⟨ha, fun x hx => (ebc x hx).trans (eab x hx)⟩

/-- `trans`, the last operation first. -/
theorem Core.Tracks.after {a b c : Core} (k : b.Tracks c) (h : a.Tracks b) : a.Tracks c := h.trans k

/-- What stands behind a trace tracks from anywhere. -/
theorem Core.Tracks.of_trace {a b c : Core} (hb : ¬ b.Traceless) (k : b.Tracks c) : a.Tracks c :=
  fun hc => absurd (k hc).1 hb

/-- A change of other parts of the state. -/
theorem Core.Tracks.of_mem {c c' : Core} (hf : c'.free = c.free) (hm : c'.mem = c.mem) : c.Tracks c' := by
  rintro ⟨f, w, b, o⟩
  rw [hf] at f
  rw [hm] at w b o ⊢
  exact ⟨⟨f, w, b, o⟩, fun _ _ => rfl⟩

/-- A change of other parts of the memory system. -/
theorem Core.Tracks.of_parts {c c' : Core} (hf : c'.free = c.free) (hm : c'.mem.mem = c.mem.mem)
    (hw : c'.mem.wcb = c.mem.wcb) (hb : c'.mem.wbs = c.mem.wbs) (he : c'.mem.entryWaits = c.mem.entryWaits) :
    c.Tracks c' := by
  rintro ⟨f, w, b, o⟩
  exact ⟨⟨hf ▸ f, hw ▸ w, hb ▸ b, he ▸ o⟩, fun _ _ => by rw [hm]⟩

theorem Core.Tracks.of_snd {α : Type} {c c' : Core} {x : α} {p : α × Core} (h : c.Tracks p.2) (e : p = (x, c')) :
    c.Tracks c' := by
  rw [e] at h
  exact h

theorem Core.Tracks.ite {c a b : Core} {p : Prop} [Decidable p] (ha : c.Tracks a) (hb : c.Tracks b) :
    c.Tracks (if p then a else b) := by
  split
  · exact ha
  · exact hb

theorem Core.tracks_foldl {α : Type} (f : Core → α → Core) (h : ∀ (c : Core) (x : α), c.Tracks (f c x)) (l : List α)
    (c : Core) : c.Tracks (l.foldl f c) := by
  induction l generalizing c with
  | nil => exact .refl c
  | cons x l ih => exact .trans (h c x) (ih _)

/-- Operations that each leave a trace leave one where there is any. -/
theorem Core.trace_foldl {α : Type} (f : Core → α → Core) (h : ∀ (c : Core) (x : α), ¬ (f c x).Traceless)
    (l : List α) (hl : l ≠ []) (c : Core) : ¬ (l.foldl f c).Traceless := by
  induction l generalizing c with
  | nil => exact absurd rfl hl
  | cons x l ih =>
    cases l with
    | nil => exact h c x
    | cons y l => exact ih (List.cons_ne_nil y l) _

/-! ### Counting, logging, free values -/

theorem Core.tracks_bump (c : Core) (i u n : Nat) : c.Tracks (c.bump i u n) := .of_mem rfl rfl

theorem Core.tracks_note (c : Core) (v : Ev) : c.Tracks (c.note v) := .of_mem (c.note_free v) (c.note_mem v)

/-- An event that belongs to no descriptor. -/
theorem Core.tracks_raise (c : Core) (v : Ev) (h : v.d = none) : c.Tracks (c.raise v) := by
  rw [Core.raise_free c v h]
  exact c.tracks_note v

theorem Core.tracks_raiseOnceStep (c : Core) (v : Ev) (key : Nat) (h : v.d = none) :
    c.Tracks (c.raiseOnceStep v key) := by
  unfold Core.raiseOnceStep
  dsimp only
  exact .ite (.refl c) (.after (Core.tracks_raise _ v h) (.of_mem rfl rfl))

theorem Core.trace_of_free {c : Core} (h : c.free ≠ 0) : ¬ c.Traceless := fun t => h t.free

theorem Core.trace_draw (c : Core) (n : Nat) : ¬ (c.draw n).2.Traceless := Core.trace_of_free (Nat.succ_ne_zero _)

theorem Core.tracks_draw (c : Core) (n : Nat) : c.Tracks (c.draw n).2 := .of_trace (c.trace_draw n) (.refl _)

theorem Core.trace_drawBytes (c : Core) {n : Nat} (h : n ≠ 0) : ¬ (c.drawBytes n).2.Traceless :=
  Core.trace_of_free (show c.free + n ≠ 0 by omega)

theorem Core.trace_smear (c : Core) (a : Nat) {n : Nat} (h : n ≠ 0) : ¬ (c.smear a n).Traceless :=
  Core.trace_of_free (show c.free + n ≠ 0 by omega)

theorem Core.tracks_smear (c : Core) (a : Nat) {n : Nat} (h : n ≠ 0) : c.Tracks (c.smear a n) :=
  .of_trace (c.trace_smear a h) (.refl _)

/-! ### Injection -/

theorem Core.tracks_inject (c : Core) (det inst addr : Nat) : c.Tracks (c.inject det inst addr).2 :=
  .of_mem (by rw [Core.alike_inject c]) (by rw [Core.alike_inject c])

theorem Core.tracks_injectEach (c : Core) (det : Nat) (us : List Nat) (inst : Nat → Nat)
    (hit : Core → Nat → Nat → Core) (h : ∀ (c : Core) (u p : Nat), c.Tracks (hit c u p)) :
    c.Tracks (c.injectEach det us inst hit) := by
  unfold Core.injectEach
  refine .ite (Core.tracks_foldl _ (fun c u => ?_) _ _) (.refl c)
  split
  · next heq => exact .trans ((c.tracks_inject det (inst u) u).of_snd heq) (h _ _ _)
  · next heq => exact (c.tracks_inject det (inst u) u).of_snd heq

theorem Core.tracks_transferFails (c : Core) (u p : Nat) : c.Tracks (c.transferFails u p) := by
  unfold Core.transferFails
  dsimp only
  refine .ite (c.tracks_bump _ _ _) (.after (Core.tracks_raise _ _ rfl) ?_)
  exact .trans (c.tracks_bump 0x9880 5 (p % 32)) (.of_mem rfl rfl)

theorem Core.tracks_transfers (c : Core) (a n : Nat) : c.Tracks (c.transfers a n) := by
  unfold Core.transfers
  exact .ite (c.tracks_injectEach _ _ _ _ Core.tracks_transferFails) (.refl c)

theorem Core.tracks_bufferFlips (c : Core) (u p : Nat) : c.Tracks (c.bufferFlips u p) := by
  unfold Core.bufferFlips
  exact .ite (c.tracks_bump _ _ _) (.trans (c.tracks_smear u (by decide)) (Core.tracks_raise _ _ rfl))

theorem Core.tracks_injectStore (c : Core) (a n : Nat) : c.Tracks (c.injectStore a n) := by
  unfold Core.injectStore
  dsimp only
  refine .ite (.after (Core.tracks_transfers _ a n) (.after (Core.tracks_injectEach _ _ _ _ _ ?_) ?_)) ?_
  · exact Core.tracks_bufferFlips
  · exact c.tracks_injectEach _ _ _ _ fun c u p => .of_parts rfl rfl rfl rfl rfl
  · exact c.tracks_injectEach _ _ _ _ fun c u p => .of_parts rfl rfl rfl rfl rfl

/-! ### The write-combining buffer -/

theorem Core.trace_of_wcb {c : Core} {e : WcbEntry} (h : e ∈ c.mem.wcb) : ¬ c.Traceless := fun t => by
  rw [t.wcb] at h
  cases h

theorem Core.trace_of_wbs {c : Core} {e : WcbEntry} (h : e ∈ c.mem.wbs) : ¬ c.Traceless := fun t => by
  rw [t.wbs] at h
  cases h

/-- A write that enters the buffer leaves a trace: its entry, or where its partition has no quota a wait. -/
theorem Core.trace_enterGranule (c : Core) (sums : Bool) (g lo hi : Nat) :
    ¬ (c.enterGranule sums g lo hi).Traceless := by
  have put (p : Prop) [Decidable p] (c : Core) (e : WcbEntry) (r : List WcbEntry) :
      ¬ (if p then c.writeBack e else { c with mem := { c.mem with wcb := r ++ [e] } } : Core).Traceless := by
    split
    · exact Core.trace_of_wbs (List.mem_append_right _ (List.mem_singleton_self _))
    · exact Core.trace_of_wcb (List.mem_append_right _ (List.mem_singleton_self _))
  unfold Core.enterGranule
  dsimp only
  split
  · exact put _ _ _ _
  · split
    · next hq =>
      unfold Core.makeRoom at hq ⊢
      dsimp only at hq ⊢
      split
      · exact fun t => t.owed _ (List.mem_append_right _ (List.mem_singleton_self _)) rfl
      · next hle =>
        rw [if_neg hle] at hq
        omega
    · exact put _ _ _ _

theorem Core.trace_enterRange (c : Core) (sums : Bool) {a n : Nat} (hn : n ≠ 0) (ha : a < tsBase) :
    ¬ (c.enterRange sums a n).Traceless := by
  unfold Core.enterRange
  rw [if_neg (by omega)]
  refine Core.trace_foldl _ (fun c i => Core.trace_enterGranule c _ _ _ _) _ ?_ c
  rw [Ne, List.range_eq_nil]
  have : a / 256 ≤ (a + n - 1) / 256 := Nat.div_le_div_right (by omega)
  omega

theorem Core.tracks_enterRange (c : Core) (sums : Bool) (a n : Nat) : c.Tracks (c.enterRange sums a n) := by
  by_cases h : n = 0 ∨ tsBase ≤ a
  · unfold Core.enterRange
    rw [if_pos h]
    exact .refl c
  · exact .of_trace (c.trace_enterRange sums (by omega) (by omega)) (.refl _)

theorem Core.tracks_breakPools (c : Core) (a n : Nat) : c.Tracks (c.breakPools a n) := by
  unfold Core.breakPools
  exact .ite (.of_mem rfl rfl) (.refl c)

theorem Core.tracks_clearPoison (c : Core) (a n : Nat) : c.Tracks (c.clearPoison a n) := .of_parts rfl rfl rfl rfl rfl

theorem Core.tracks_store (c : Core) (a : Nat) (bs : List Byte) : c.Tracks (c.store a bs) := by
  by_cases h : bs.length = 0 ∨ tsBase ≤ a
  · refine .trans (b := { c with mem := { c.mem with mem := Mem.write c.mem.mem a bs } }) ?_ ?_
    · rintro ⟨f, w, b, o⟩
      refine ⟨⟨f, w, b, o⟩, fun x hx => ?_⟩
      rw [Mem.get_write, if_neg (by omega)]
    · unfold Core.store
      dsimp only
      refine .after (Core.tracks_enterRange _ _ _ _) (.after (Core.tracks_clearPoison _ _ _) ?_)
      exact .after (Core.tracks_breakPools _ _ _) (.of_parts rfl rfl rfl rfl rfl)
  · exact .of_trace (Core.trace_enterRange _ false (by omega) (by omega)) (.refl (c.store a bs))

theorem Core.tracks_put (c : Core) (a : Nat) (bs : List Byte) : c.Tracks (c.put a bs) :=
  .trans (c.tracks_store a bs) (Core.tracks_injectStore _ _ _)

/-! ### Reads -/

theorem Core.tracks_rowCorrected (c : Core) (a : Nat) : c.Tracks (c.rowCorrected a) := by
  unfold Core.rowCorrected
  dsimp only
  refine .ite (.after (Core.tracks_raise _ _ rfl) ?_) ?_
  all_goals exact .of_parts rfl rfl rfl rfl rfl

theorem Core.tracks_sectorCorrected (c : Core) (u : Nat) : c.Tracks (c.sectorCorrected u) :=
  .after (Core.tracks_rowCorrected _ u) (.after (Core.tracks_bump _ _ _ _) (c.tracks_enterRange _ _ _))

theorem Core.tracks_sectorLost (c : Core) (u syms : Nat) (inj : Bool) : c.Tracks (c.sectorLost u syms inj) := by
  unfold Core.sectorLost
  refine .after (Core.tracks_raise _ _ rfl) (.after (Core.tracks_bump _ _ _ _) ?_)
  exact .after (Core.tracks_enterRange _ _ _ _) (.of_parts rfl rfl rfl rfl rfl)

/-- A sector that is miscorrected takes free bytes. -/
theorem Core.tracks_readSymbols (c : Core) (u syms : Nat) (inj : Bool) : c.Tracks (c.readSymbols u syms inj) := by
  unfold Core.readSymbols
  refine .ite (c.tracks_sectorCorrected u) (.ite (c.tracks_sectorLost u syms inj) ?_)
  generalize hb : c.draw 3 = p
  obtain ⟨o, b⟩ := p
  have drawn : b.free ≠ 0 := by
    have h : c.free + 1 = b.free := congrArg (fun p : Nat × Core => p.2.free) hb
    omega
  dsimp only
  refine .of_trace (Core.trace_of_free drawn) (.ite (b.tracks_sectorLost u syms inj) ?_)
  have written : (b.drawBytes 64).2.free ≠ 0 := by
    change b.free + 64 ≠ 0
    omega
  generalize b.drawBytes 64 = q at written ⊢
  have taken (m : MemSys) : ¬ ({ q.2 with mem := m } : Core).Traceless := Core.trace_of_free written
  exact .ite (.of_trace (taken _) (Core.tracks_sectorCorrected _ u)) (.of_trace (taken _) (.refl _))

theorem Core.tracks_readSector (c : Core) (u syms : Nat) : c.Tracks (c.readSector u syms) := by
  unfold Core.readSector
  exact .after (Core.tracks_readSymbols _ _ _ _) (.of_parts rfl rfl rfl rfl rfl)

theorem Core.tracks_wordCorrected (c : Core) (u : Nat) : c.Tracks (c.wordCorrected u) := by
  unfold Core.wordCorrected
  dsimp only
  exact .trans (c.tracks_bump 0x9880 6 1) (.ite (Core.tracks_bump _ _ _ _) (.ite (Core.tracks_bump _ _ _ _) (.refl _)))

theorem Core.tracks_readWord (c : Core) (u flips : Nat) : c.Tracks (c.readWord u flips) := by
  unfold Core.readWord Core.readFlips
  refine .ite (.after (Core.tracks_wordCorrected _ u) (.of_parts rfl rfl rfl rfl rfl)) ?_
  refine .after (Core.tracks_raise _ _ rfl) (.after (Core.tracks_bump _ _ _ _) ?_)
  exact .of_parts rfl rfl rfl rfl rfl

theorem Core.tracks_touch (c : Core) (a n : Nat) : c.Tracks (c.touch a n) := by
  unfold Core.touch
  dsimp only
  refine .after (Core.tracks_foldl _ (fun c (p : Nat × Nat) => c.tracks_readWord p.1 p.2) _ _) ?_
  refine .after (Core.tracks_foldl _ (fun c (p : Nat × Nat) => c.tracks_readSector p.1 p.2) _ _) ?_
  refine .trans (.trans (c.tracks_transfers a n) (Core.tracks_bump _ 0x9880 8 (c.merges a n))) ?_
  exact .of_parts rfl rfl rfl rfl rfl

/-! ### The near-memory adders -/

theorem Core.trace_addGranule (c : Core) (g lo hi : Nat) : ¬ (c.addGranule g lo hi).Traceless :=
  Core.trace_enterGranule _ _ _ _ _

theorem Core.tracks_addPiece (c : Core) (a : Nat) (vs : List Num) : c.Tracks (c.addPiece a vs) := by
  unfold Core.addPiece
  dsimp only
  split
  · exact .refl c
  · next hn =>
    generalize hb : (List.range ((a + 4 * vs.length - 1) / 256 + 1 - a / 256)).foldl _ c = b
    have taken : ¬ b.Traceless := by
      rw [← hb]
      refine Core.trace_foldl _ (fun c i => c.trace_addGranule _ _ _) _ ?_ c
      have : a / 256 ≤ (a + 4 * vs.length - 1) / 256 := Nat.div_le_div_right (by omega)
      rw [Ne, List.range_eq_nil]
      omega
    refine .after (Core.tracks_injectStore _ _ _) (.after (Core.tracks_bump _ _ _ _) ?_)
    refine .after (Core.tracks_breakPools _ _ _) (.of_trace (fun t => taken ?_) (.refl _))
    exact ⟨t.free, t.wcb, t.wbs, t.owed⟩

end Sys2Proof.Machine
end

section
/-! SUPPORT. What handing over what waits in the send buffers leaves of HBM (R278 to R286, R302): every byte of it that
the exchange changes leaves a trace. -/

namespace Sys2Proof.Machine

theorem Core.tracks_foldl_snd {α β : Type} (f : β × Core → α → β × Core)
    (h : ∀ (y : β) (c : Core) (x : α), c.Tracks (f (y, c) x).2) (l : List α) (y : β) (c : Core) :
    c.Tracks (l.foldl f (y, c)).2 := by
  induction l generalizing y c with
  | nil => exact .refl c
  | cons x l ih => exact .trans (h y c x) (ih _ _)

theorem Core.Tracks.xch {c c' : Core} {x : Xch} (h : c.Tracks c') : c.Tracks { c' with xch := x } :=
  h.trans (.of_mem rfl rfl)

/-! ### Reads, the send buffers, messages of class 0 -/

theorem Core.tracks_xRead (c : Core) (a n : Nat) : c.Tracks (c.xRead a n).2 := by
  unfold Core.xRead
  dsimp only
  split
  · exact .refl c
  · split
    · dsimp only
      exact .trans (c.tracks_touch a n) (Core.tracks_raise _ _ rfl)
    · exact c.tracks_touch a n

theorem Core.tracks_readHod (c : Core) (h : Nat) : c.Tracks (c.readHod h).2 := c.tracks_xRead _ _

theorem Core.tracks_countConv (c : Core) (t : Tally5) : c.Tracks (c.countConv t) :=
  .of_mem (by rw [(c.counted_countConv t).same]) (c.counted_countConv t).mem

theorem Core.tracks_queueOut (c : Core) (die tgt : Nat) (m : XMsg) (d : Option Nat) :
    c.Tracks (c.queueOut die tgt m d) := by
  unfold Core.queueOut
  dsimp only
  refine .ite (.after (Core.tracks_bump _ _ _ _) (.after (Core.tracks_draw _ _) ?_)) ?_
  all_goals exact .of_mem rfl rfl

theorem Core.tracks_queueImage (c : Core) (tgt h step : Nat) (img : List Byte) :
    c.Tracks (c.queueImage tgt h step img) :=
  Core.tracks_foldl _ (fun c _ => c.tracks_queueOut _ _ _ _) _ _

theorem Core.tracks_send {c c' : Core} {x : Flit} (h : c.send x = some c') : c.Tracks c' := by
  unfold Core.send at h
  split at h
  · cases h
    unfold Core.handPort
    exact .ite (.of_mem rfl rfl) (.of_mem rfl rfl)
  · cases h

theorem Core.tracks_handCmd (c : Core) (tgt : Nat) (m : XCmd) : c.Tracks (c.handCmd tgt m) := by
  unfold Core.handCmd
  split
  · exact .of_mem rfl rfl
  · have drawn := c.trace_drawBytes (n := 240) (by decide)
    generalize c.drawBytes 240 = q at drawn ⊢
    refine .of_trace drawn ?_
    dsimp only
    split
    · next heq => exact .trans (.after (Core.tracks_send heq) (.of_mem rfl rfl)) (.of_mem rfl rfl)
    · exact .of_mem rfl rfl

theorem Core.tracks_sendCmd (c : Core) (tgt : Nat) (m : XCmd) : c.Tracks (c.sendCmd tgt m) := by
  unfold Core.sendCmd
  exact .ite (.refl c) (c.tracks_handCmd tgt m)

theorem Core.tracks_sendCmds (c : Core) (tos : List Nat) (m : XCmd) : c.Tracks (c.sendCmds tos m) :=
  Core.tracks_foldl _ (fun c _ => c.tracks_sendCmd _ m) _ _

/-! ### Commit and abort (R240, R291, R292) -/

theorem Core.tracks_requestBank (c : Core) : c.Tracks c.requestBank := by
  unfold Core.requestBank Core.startHold
  dsimp only
  refine .ite (.of_mem rfl rfl) (.ite ?_ (.of_mem rfl rfl))
  unfold Core.forceFollow
  exact .after (Core.tracks_raise _ _ rfl) (.of_mem rfl rfl)

theorem Core.tracks_readImages (c : Core) (step : Nat) : c.Tracks (c.readImages step).2 := by
  unfold Core.readImages
  generalize List.range c.hodCount = hods
  refine Core.tracks_foldl_snd _ (fun ok c h => ?_) hods true c
  dsimp only
  split
  · dsimp only
    exact c.tracks_xRead (c.imgAddr h) 128
  · exact .refl c

/-- What a COMMIT does once it has read the images. -/
theorem Core.tracks_committed {c c' : Core} (p : Prop) [Decidable p] (hf : c'.free = c.free) (hm : c'.mem = c.mem) :
    c.Tracks (if p then c'.raise { code := 0x7011, source := stepSrc } else c').requestBank := by
  refine .trans (.of_mem hf hm) (.after (Core.tracks_requestBank _) (.ite ?_ (.refl c')))
  exact c'.tracks_raise _ rfl

theorem Core.tracks_commitStep (c : Core) (cset : List Nat) : c.Tracks (c.commitStep cset) := by
  unfold Core.commitStep
  split
  · exact .refl c
  · next s hs =>
    have read := (c.addTally s.tally 1).tracks_readImages s.step
    refine .trans (b := c.addTally s.tally 1) (.of_mem rfl rfl) (.trans read ?_)
    dsimp only
    generalize ((c.addTally s.tally 1).readImages s.step).1 = whole
    generalize ((c.addTally s.tally 1).readImages s.step).2 = b
    have drawn : b.Tracks (if whole = true then (0, b) else b.draw (2 ^ 64)).2 := by
      split
      · exact .refl b
      · exact b.tracks_draw _
    exact .trans drawn (Core.tracks_committed _ rfl rfl)

theorem Core.tracks_applyHeld (c : Core) : c.Tracks c.applyHeld := by
  unfold Core.applyHeld
  split
  · exact .ite (.after (Core.tracks_commitStep _ _) (.of_mem rfl rfl)) (.refl c)
  · exact .refl c

theorem Core.tracks_takeCommit (c : Core) (k : Commit) (own : Bool) : c.Tracks (c.takeCommit k own) := by
  unfold Core.takeCommit
  dsimp only
  refine .ite (.refl c) (.ite (.after (Core.tracks_applyHeld _) (.of_mem rfl rfl)) ?_)
  refine .ite ?_ (.ite (.refl c) (.ite ?_ ?_))
  · exact .after (Core.tracks_raise _ _ rfl) (.of_mem rfl rfl)
  · exact .after (Core.tracks_raise _ _ rfl) (.of_mem rfl rfl)
  · refine .after (Core.tracks_applyHeld _) (.trans (.ite (.refl c) (c.tracks_sendCmds _ _)) (.of_mem rfl rfl))

theorem Core.tracks_takeAbandon (c : Core) (step : Nat) (silent : List Nat) (timeout : Bool) :
    c.Tracks (c.takeAbandon step silent timeout) := by
  have head : c.Tracks (c.abandonHead step timeout) := by
    unfold Core.abandonHead
    split
    · exact .refl c
    · refine .ite (.ite (.after (Core.tracks_raise _ _ rfl) ?_) ?_) (.refl c)
      all_goals exact .after (Core.tracks_raise _ _ rfl) (.of_mem rfl rfl)
  unfold Core.takeAbandon Core.takeSilent
  refine .trans head ?_
  generalize c.abandonHead step timeout = b
  dsimp only
  have named : b.Tracks (if silent.isEmpty then b else
      { b with xch := { b.xch with silent := (step, silent) :: b.xch.silent } }) := .ite (.refl b) (.of_mem rfl rfl)
  split
  · exact named
  · exact .ite (.trans named (.of_mem rfl rfl)) named

/-! ### Votes (R289, R290) -/

theorem Core.tracks_leadCommit (c : Core) (cset : List Nat) : c.Tracks (c.leadCommit cset) :=
  .after (Core.tracks_takeCommit _ _ _) (.after (Core.tracks_sendCmds _ _ _) (.of_mem rfl rfl))

theorem Core.tracks_leadDecide (c : Core) : c.Tracks c.leadDecide := by
  unfold Core.leadDecide
  dsimp only
  refine .ite (.ite (.of_mem rfl rfl) (.after (Core.tracks_leadCommit _ _) (c.tracks_bump _ _ _))) ?_
  exact .after (Core.tracks_takeAbandon _ _ _ _) (.after (Core.tracks_sendCmds _ _ _) (.of_mem rfl rfl))

theorem Core.tracks_leadVote (c : Core) (step member : Nat) (novote : Bool) (hodCrc memberCrc : Nat) :
    c.Tracks (c.leadVote step member novote hodCrc memberCrc) := by
  unfold Core.leadVote
  dsimp only
  refine .ite (.refl c) (.ite (.after (Core.tracks_leadDecide _) ?_) ?_)
  all_goals exact .trans (.ite (c.tracks_raise _ rfl) (.refl c)) (.of_mem rfl rfl)

theorem Core.tracks_castVote (c : Core) (yes : Bool) : c.Tracks (c.castVote yes) := by
  unfold Core.castVote
  split
  · exact .refl c
  · split
    · exact .refl c
    · refine .ite (.refl c) (.ite ?_ ?_)
      · exact .after (Core.tracks_leadVote _ _ _ _ _ _) (.of_mem rfl rfl)
      · exact .after (Core.tracks_sendCmd _ _ _) (.of_mem rfl rfl)

theorem Core.tracks_checkVote (c : Core) : c.Tracks c.checkVote := by
  unfold Core.checkVote
  split
  · exact .refl c
  · split
    · next heq => exact (c.tracks_xRead _ _).of_snd heq
    · next heq =>
      have read := (c.tracks_xRead _ _).of_snd heq
      exact .ite (.trans read (Core.tracks_castVote _ true)) read

/-! ### Images (R283) -/

theorem Core.tracks_imageHeld (c : Core) (h step : Nat) (b : List Byte) : c.Tracks (c.imageHeld h step b) := by
  unfold Core.imageHeld
  dsimp only
  refine .ite (.after (Core.tracks_checkVote _) ?_) ?_
  all_goals
    have held : c.Tracks ((c.setJ h step 1).bump 0x8880 0xD 1) := .trans (c.tracks_put _ _) (Core.tracks_bump _ _ _ _)
    exact .trans (.ite (.trans held (Core.tracks_put _ _ _)) held) (.of_mem rfl rfl)

theorem Core.tracks_imageWhole (c : Core) (h step sender : Nat) : c.Tracks (c.imageWhole h step sender) := by
  unfold Core.imageWhole
  dsimp only
  have read := c.tracks_xRead (c.imgAddr h) (c.hod h).imgBytes
  generalize c.xRead (c.imgAddr h) (c.hod h).imgBytes = p at read ⊢
  obtain ⟨ok, b⟩ := p
  refine .trans read ?_
  dsimp only
  refine .ite (b.tracks_imageHeld _ _ _) ?_
  generalize hf : Core.sendCmd _ sender _ = f
  have failed : b.Tracks f := by
    rw [← hf]
    exact .after (Core.tracks_sendCmd _ _ _) (.of_mem rfl rfl)
  have logged := failed.trans (f.tracks_raise (xEv 0x8025 0 h sender 5) rfl)
  exact .ite (.ite (.trans logged (Core.tracks_castVote _ _)) logged) failed

theorem Core.tracks_imageIn (c : Core) (m : XMsg) : c.Tracks (c.imageIn m).2 := by
  unfold Core.imageIn
  dsimp only
  have read := c.tracks_xRead (c.jAddr m.hod) 16
  generalize c.xRead (c.jAddr m.hod) 16 = p at read ⊢
  obtain ⟨ok, b⟩ := p
  refine .trans read ?_
  dsimp only
  split
  · exact .refl b
  split
  · exact b.tracks_bump _ _ _
  split
  · exact .refl b
  refine .ite (.after (Core.tracks_imageWhole _ _ _ _) ?_) ?_
  all_goals
    have begun : b.Tracks (b.setJ m.hod m.step 0) := b.tracks_put _ _
    exact .xch (.ite (.ite begun.xch (.refl b)) (.after (Core.tracks_put _ _ _) (.ite begun.xch (.refl b))))

end Sys2Proof.Machine
end

section
/-! SUPPORT. What handing over what waits leaves of HBM, part 2: slots, hods and arrivals (R279 to R286), and the
hand-over itself (R278, R302). -/

namespace Sys2Proof.Machine

/-! ### Slots and closing (R279 to R281) -/

theorem Core.tracks_openSlot (c : Core) (h : Nat) : c.Tracks (c.openSlot h) := by
  unfold Core.openSlot
  exact .xch (.after (Core.tracks_smear _ _ (by decide)) (c.tracks_put _ _))

theorem Core.tracks_setCnt (c : Core) (base : Nat) (x : HodRow) (i n : Nat) : c.Tracks (c.setCnt base x i n) :=
  c.tracks_put _ _

theorem Core.tracks_setSlot (c : Core) (a : HodAcc) : c.Tracks (c.setSlot a) := .of_mem rfl rfl

theorem Core.tracks_addBlk (c : Core) (base : Nat) (x : HodRow) (i : Nat) (vs : List Num) :
    c.Tracks (c.addBlk base x i vs) := by
  unfold Core.addBlk
  refine .ite (.refl c) (.ite (c.tracks_raise _ rfl) ?_)
  split
  · next heq => exact (c.tracks_xRead _ _).of_snd heq
  · next b heq =>
    refine .trans ((c.tracks_xRead _ _).of_snd heq) (.after (Core.tracks_setCnt _ _ _ _ _) ?_)
    exact .ite (b.tracks_put _ _) (b.tracks_addPiece _ _)

theorem Core.tracks_addBlks (c : Core) (base : Nat) (x : HodRow) (first : Nat) (bs : List (List Num)) :
    c.Tracks (c.addBlks base x first bs) :=
  Core.tracks_foldl _ (fun c (p : List Num × Nat) => c.tracks_addBlk base x (first + p.2) p.1) _ _

theorem Core.tracks_closeReads (c : Core) (h : Nat) : c.Tracks (c.closeReads h).2 := by
  unfold Core.closeReads
  split
  · next heq => exact (c.tracks_readHod h).of_snd heq
  · next b heq =>
    refine .trans ((c.tracks_readHod h).of_snd heq) ?_
    have slot : b.Tracks (match b.slot? h with
        | some a => b.xRead (b.slotBase a) (b.hod h).stateOff
        | none => (true, b)).2 := by
      split
      · exact b.tracks_xRead _ _
      · exact .refl b
    dsimp only
    split
    · next heq => exact slot.of_snd heq
    · next b' heq =>
      refine .trans (slot.of_snd heq) ?_
      split
      · exact b'.tracks_xRead _ _
      · exact .refl b'

theorem Core.tracks_closeHod (c : Core) (h : Nat) (deadline : Bool) : c.Tracks (c.closeHod h deadline) := by
  unfold Core.closeHod
  split
  · exact .refl c
  · next heq => exact (c.tracks_closeReads h).of_snd heq
  · next s b hs heq =>
    refine .trans ((c.tracks_closeReads h).of_snd heq) ?_
    dsimp only
    refine .after (Core.tracks_foldl _ (fun c t => c.tracks_queueImage t _ _ _) _ _) ?_
    refine .after (Core.tracks_setSlot _ _) (.xch ?_)
    generalize hd : Core.bump _ 0x8880 4 _ = d
    have counted : b.Tracks d := by
      rw [← hd]
      refine .after (Core.tracks_bump _ _ _ _) (.after (Core.tracks_bump _ _ _ _) ?_)
      exact .after (Core.tracks_bump _ _ _ _) (.after (Core.tracks_bump _ _ _ _) (b.tracks_countConv _))
    exact .ite (.trans counted (Core.tracks_raiseOnceStep _ _ _ rfl)) counted

theorem Core.tracks_testHod (c : Core) (h : Nat) : c.Tracks (c.testHod h) := by
  unfold Core.testHod
  split
  · refine .ite (.refl c) ?_
    split
    · next heq => exact (c.tracks_xRead _ _).of_snd heq
    · next b heq => exact .trans ((c.tracks_xRead _ _).of_snd heq) (.ite (b.tracks_closeHod h false) (.refl b))
  · exact .refl c

/-! ### Arrivals (R279, R280) -/

theorem Core.tracks_lateX (c : Core) (m : XMsg) (sub : Nat) : c.Tracks (c.lateX m sub).2 :=
  .trans (c.tracks_bump 0x8880 sub 1) (Core.tracks_raiseOnceStep _ _ _ rfl)

theorem Core.tracks_gateX (c : Core) (m : XMsg) : c.Tracks (c.gateX m).2 := by
  unfold Core.gateX
  dsimp only
  split
  · exact .refl c
  split
  · exact .refl c
  split
  · exact c.tracks_lateX m 5
  split
  · exact .refl c
  split
  · exact c.tracks_lateX m 6
  split
  · exact .refl c
  split
  · exact c.tracks_bump _ _ _
  · exact c.tracks_openSlot _

theorem Core.tracks_countBlks (c : Core) (bs : List (Nat × Bool × List Num)) : c.Tracks (c.countBlks bs) :=
  .after (Core.tracks_bump _ _ _ _) (.after (Core.tracks_bump _ _ _ _) (c.tracks_bump _ _ _))

theorem Core.tracks_addDeposit (c : Core) (m : XMsg) (a : HodAcc) : c.Tracks (c.addDeposit m a) := by
  unfold Core.addDeposit
  dsimp only
  split
  · next heq => exact (c.tracks_xRead _ _).of_snd heq
  · next b heq =>
    refine .trans ((c.tracks_xRead _ _).of_snd heq) ?_
    generalize hf : Core.bump _ 0x8880 2 _ = f
    have added : b.Tracks f := by
      rw [← hf]
      refine .after (Core.tracks_bump _ _ _ _) (.after (Core.tracks_countBlks _ _) ?_)
      exact .after (Core.tracks_setSlot _ _) (.after (Core.tracks_put _ _ _) (b.tracks_addBlks _ _ _ _))
    have excess := added.trans (f.tracks_bump 0x8880 0x13 1)
    exact .ite (.ite excess (.trans excess (Core.tracks_raise _ _ rfl))) added

/-! ### Ring hops (R284 to R286) -/

theorem Core.tracks_ringForward (c : Core) (s : StepSlot) (a : HodAcc) (i contribs : Nat) (inn : Option RingIn)
    (vs : List Num) : c.Tracks (c.ringForward s a i contribs inn vs) := by
  unfold Core.ringForward
  dsimp only
  generalize hf : Core.queueOut _ _ _ _ = f
  have sent : c.Tracks f := by
    rw [← hf]
    refine .after (Core.tracks_queueOut _ _ _ _ _) (.after (Core.tracks_setSlot _ _) ?_)
    exact .after (Core.tracks_bump _ _ _ _) (c.tracks_countConv _)
  exact .ite (.trans sent (Core.tracks_raise _ _ rfl)) sent

theorem Core.tracks_hopReads (c : Core) (a : HodAcc) (i : Nat) (first : Bool) : c.Tracks (c.hopReads a i first).2 := by
  unfold Core.hopReads
  dsimp only
  split
  · next heq => exact (c.tracks_xRead _ _).of_snd heq
  · next b heq =>
    refine .trans ((c.tracks_xRead _ _).of_snd heq) ?_
    split
    · next heq => exact (b.tracks_xRead _ _).of_snd heq
    · next b' heq =>
      refine .trans ((b.tracks_xRead _ _).of_snd heq) ?_
      split
      · exact b'.tracks_xRead _ _
      · exact .refl b'

theorem Core.tracks_ringAdvance (c : Core) (s : StepSlot) (h i : Nat) : c.Tracks (c.ringAdvance s h i) := by
  unfold Core.ringAdvance
  split
  · exact .refl c
  · next a _ =>
    dsimp only
    refine .ite (.refl c) ?_
    split
    · next heq => exact (c.tracks_hopReads _ _ _).of_snd heq
    · next b heq =>
      refine .trans ((c.tracks_hopReads _ _ _).of_snd heq) ?_
      generalize (if nextOf s.members (ownerIn s.members (c.hod h).owner) == some c.me then none
        else KMap.get? a.ring i) = inn
      have added (t : Nat) : b.Tracks (match inn with
          | some r => b.addPiece t r.vals
          | none => b) := by
        split
        · exact b.tracks_addPiece _ _
        · exact .refl b
      refine .ite (.after (Core.tracks_bump _ _ _ _) (.after (Core.tracks_bump _ _ _ _) ?_)) ?_
      · exact .after (Core.tracks_setSlot _ _) (.after (Core.tracks_setCnt _ _ _ _ _) (added _))
      · exact .after (Core.tracks_ringForward _ _ _ _ _ _ _) (.after (Core.tracks_setCnt _ _ _ _ _) (added _))

theorem Core.tracks_ringFinish (c : Core) (s : StepSlot) (h : Nat) : c.Tracks (c.ringFinish s h) := by
  unfold Core.ringFinish
  split
  · exact .refl c
  · refine .ite (.refl c) (.ite (c.tracks_closeHod h false) ?_)
    exact .after (Core.tracks_queueOut _ _ _ _ _) (.of_mem rfl rfl)

theorem Core.tracks_ringTake (c : Core) (h : Nat) (is : List Nat) (f : HodAcc → HodAcc) :
    c.Tracks (c.ringTake h is f) := by
  unfold Core.ringTake
  split
  · next s a _ _ =>
    refine .after (Core.tracks_ringFinish _ _ _) (.after (Core.tracks_foldl _ (fun c i => ?_) _ _) (c.tracks_setSlot _))
    exact c.tracks_ringAdvance s h i
  · exact .refl c

theorem Core.tracks_ringDeposit (c : Core) (m : XMsg) (a : HodAcc) : c.Tracks (c.ringDeposit m a) :=
  .after (Core.tracks_ringTake _ _ _ _) (.after (Core.tracks_countBlks _ _) (c.tracks_addBlks _ _ _ _))

/-! ### Messages of class 1 -/

theorem Core.tracks_ringIn (c : Core) (m : XMsg) : c.Tracks (c.ringIn m).2 := by
  unfold Core.ringIn
  split
  · next heq => exact (c.tracks_gateX m).of_snd heq
  · next b heq =>
    refine .trans ((c.tracks_gateX m).of_snd heq) ?_
    split
    · exact .refl b
    · exact .after (Core.tracks_ringTake _ _ _ _) (b.tracks_countBlks _)

theorem Core.tracks_ringEndIn (c : Core) (m : XMsg) : c.Tracks (c.ringEndIn m).2 := by
  unfold Core.ringEndIn
  split
  · next heq => exact (c.tracks_gateX m).of_snd heq
  · next b heq =>
    refine .trans ((c.tracks_gateX m).of_snd heq) ?_
    split
    · exact .refl b
    · exact b.tracks_ringTake _ _ _

theorem Core.tracks_depositIn (c : Core) (m : XMsg) : c.Tracks (c.depositIn m).2 := by
  unfold Core.depositIn
  split
  · exact .refl c
  split
  · next heq => exact (c.tracks_gateX m).of_snd heq
  · next b heq =>
    refine .trans ((c.tracks_gateX m).of_snd heq) ?_
    split
    · exact .refl b
    split
    · exact b.tracks_ringDeposit _ _
    · exact .trans (b.tracks_addDeposit _ _) (Core.tracks_testHod _ _)

theorem Core.tracks_endIn (c : Core) (m : XMsg) : c.Tracks (c.endIn m).2 := by
  unfold Core.endIn
  split
  · exact .refl c
  split
  · next heq => exact (c.tracks_gateX m).of_snd heq
  · next b heq =>
    refine .trans ((c.tracks_gateX m).of_snd heq) ?_
    split
    · exact .refl b
    · exact .trans (b.tracks_setSlot _) (Core.tracks_testHod _ _)

theorem Core.tracks_takeX (c : Core) (m : XMsg) : c.Tracks (c.takeX m).2 := by
  unfold Core.takeX
  split
  · exact .refl c
  split
  · next heq => exact (c.tracks_readHod _).of_snd heq
  · next b heq =>
    refine .trans ((c.tracks_readHod _).of_snd heq) ?_
    split
    · exact b.tracks_depositIn m
    · exact b.tracks_endIn m
    · exact b.tracks_ringIn m
    · exact b.tracks_ringEndIn m
    · exact b.tracks_imageIn m
    · exact .refl b

/-! ### The send buffers (R278, R302) -/

theorem Core.tracks_setOut (c : Core) (os : List OutMsg) : c.Tracks (c.setOut os) := .of_mem rfl rfl

theorem Core.tracks_readOut (c : Core) (i : Nat) (o : OutMsg) : c.Tracks (c.readOut i o).2 := by
  unfold Core.readOut
  split
  · next heq => exact (c.tracks_inject _ _ _).of_snd heq
  · next p b heq =>
    refine .trans ((c.tracks_inject _ _ _).of_snd heq) ?_
    split
    · exact b.tracks_bump _ _ _
    · dsimp only
      exact .after (Core.tracks_raise _ _ rfl) (.of_mem rfl rfl)

theorem Core.tracks_handOwn (c : Core) (i : Nat) (o : OutMsg) (t : Nat) : c.Tracks (c.handOwn i o t) := by
  unfold Core.handOwn
  split
  · next heq => exact (c.tracks_readOut i o).of_snd heq
  · next b heq =>
    refine .trans ((c.tracks_readOut i o).of_snd heq) ?_
    dsimp only
    generalize hf : b.setOut _ = f
    have tagged : b.Tracks f := by
      rw [← hf]
      exact b.tracks_setOut _
    have taken := tagged.trans (f.tracks_takeX o.msg)
    generalize f.takeX o.msg = q at taken ⊢
    obtain ⟨a, e⟩ := q
    exact .ite taken (.trans taken (Core.tracks_setOut _ _))

theorem Core.tracks_handPeer (c : Core) (i : Nat) (o : OutMsg) (t : Nat) : c.Tracks (c.handPeer i o t) := by
  unfold Core.handPeer
  split
  · next heq => exact (c.tracks_readOut i o).of_snd heq
  · next b heq =>
    refine .trans ((c.tracks_readOut i o).of_snd heq) ?_
    split
    · next heq => exact .trans (Core.tracks_send heq) (.of_mem rfl rfl)
    · exact b.tracks_setOut _

theorem Core.tracks_handMany (c : Core) (local_ : Bool) (n : Nat) : c.Tracks (c.handMany local_ n) := by
  induction n generalizing c with
  | zero => exact .refl c
  | succ n ih =>
    unfold Core.handMany
    split
    · next b heq =>
      refine .trans ?_ (ih b)
      unfold Core.handOne at heq
      split at heq
      · split at heq
        · cases heq
          exact .ite (c.tracks_handOwn _ _ _) (c.tracks_handPeer _ _ _)
        · cases heq
      · cases heq
    · exact .refl c

theorem Core.tracks_clockTags (c : Core) : c.Tracks c.clockTags := by
  unfold Core.clockTags
  dsimp only
  split
  · exact .ite (.of_mem rfl rfl) (.refl c)
  · exact .ite (.refl c) (.of_mem rfl rfl)

/-- Handing over what waits leaves a trace of every byte of HBM it changes. -/
theorem Core.tracks_settle (c : Core) : c.Tracks c.settle := by
  unfold Core.settle
  dsimp only
  have cmds := Core.tracks_foldl _ fun c (w : Nat × XCmd) => c.tracks_handCmd w.1 w.2
  refine .after (Core.tracks_clockTags _) (.after (cmds _ _) ?_)
  refine .xch (.after (Core.tracks_handMany _ _ _) (.after (Core.tracks_handMany _ _ _) ?_))
  exact .of_mem (c.sysRead_free _) (c.sysRead_mem _)

end Sys2Proof.Machine
end

section
/-! SUPPORT. The state that refutes O29: a deposit whose message reaches this member's own slot, in a partition whose
quota is 0 (R279, R280, R316). -/

namespace Sys2Proof.Machine

/-! ### A deposit that reaches its slot at once -/

/-- A range of the tile store's user region is served. -/
theorem Core.served_user (c : Core) {a n : Nat} (h1 : tsUser ≤ a) (h2 : a + n ≤ tsPallet) : c.served a n := by
  intro b m hb hm
  have at_ (x : Nat) (hx : tsUser ≤ x) (hx' : x < tsPallet) : c.plainAt x = (0, tsPallet) := by
    unfold Core.plainAt
    rw [if_neg (by unfold tsUser at hx; omega), if_pos ⟨hx, hx'⟩]
  have good : c.plainBad b m = none := by
    unfold Core.plainBad Core.plainWalk
    split
    · rfl
    · rw [at_ b (by omega) (by omega)]
      unfold Core.plainWalk
      exact if_pos (by omega)
  have below : b < 2 ^ 63 := by
    have : tsPallet < 2 ^ 63 := by decide
    omega
  unfold Core.lbad
  rw [if_pos (show b < palBit by unfold palBit; omega), if_neg (by omega), good]

/-- A deposit of one BF16 gradient into hod 0, FIRST without FINAL; its list lies where the tile store's user region
begins. -/
def depositDesc : Desc where
  queue := 0
  head := 0
  bytes := List.replicate 15 0 ++ [0x56] ++ toLE 8 tsUser ++ List.replicate 4 0 ++ [0x08, 0, 2, 0x80] ++ toLE 4 1 ++
    toLE 4 1 ++ toLE 4 1 ++ List.replicate 84 0

/-- Where P7 begins, and with it the table of hods; the slots lie 4,096 bytes on. -/
def depositTable : Nat := 2 ^ 32

/-- Step 0 is open with this member alone in it. Hod 0 is one row of 64 elements, and has slot 0. P7's quota of
write-combining entries is 0, which R322 allows. The gradient is 1.0. -/
def depositState : State where
  dev := .run
  pending := []
  core :=
    { step := 0
      dict := { objs := [(okey 0x8010 1, depositTable), (okey 0x8010 2, 1), (okey 0x8011 1, depositTable + 4096),
        (okey 0x9107 1, depositTable), (okey 0x9107 2, 2 ^ 21), (okey 0x9107 7, 0)] }
      pins := { modRstN := true }
      mem := { mem := Mem.write (Mem.write (Mem.write [] depositTable (toLE 4 1 ++ toLE 4 64)) tsUser
        (toLE 8 (tsUser + 256) ++ toLE 8 (8 * 2 ^ 56))) (tsUser + 256) (toLE 2 0x3F80) }
      links := { descs := [(0, depositDesc)] }
      stp := { isOpen := true, everOpened := true, head := some { step := 0, n := 1, members := [0] } }
      xch := { next := [0], slots := [{ hod := 0 }] } }

/-- No escalation entry is set. -/
theorem depositState_plain : depositState.core.plainEvents := by
  intro code
  have unset : depositState.core.dict.objs.find? (fun p =>
      0xB20001 ≤ p.1 && p.1 ≤ 0xB23F01 && p.1 % 256 == 1 && p.2 == code) = none := by
    simp [depositState, okey]
  unfold Core.escClass
  rw [unset]

theorem depositState_issues : depositState.issues 0 depositDesc 0x56 := by decide +kernel

theorem depositState_ready : depositState.core.bwdReady depositDesc := by
  have opnds : depositDesc.bOpnds (depositState.core.bwdList depositDesc) = [(0, 1, 1)] := by decide +kernel
  have checks : firstBad (depositState.core.bwdChecks depositDesc (depositState.core.bwdList depositDesc)) = none := by
    decide +kernel
  have ents : ∀ e ∈ depositState.core.bwdList depositDesc, e.addr < 2 ^ 63 ∧ e.isElem = true := by decide +kernel
  refine ⟨by decide +kernel, by decide +kernel, by decide +kernel, by decide +kernel, by decide +kernel,
    by decide +kernel, Core.served_user _ (by decide +kernel) (by decide +kernel), checks, by decide +kernel, ents,
    by decide +kernel, fun o ho => ?_⟩
  rw [opnds, List.mem_singleton] at ho
  subst ho
  exact Core.served_user _ (by decide +kernel) (by decide +kernel)

/-- The state its deposit leaves. -/
def depositEnd : State := match exec (.gradientDeposit 0) depositState with
  | .next t => t
  | _ => depositState

theorem depositEnd_dev : depositEnd.dev = .run := by decide +kernel

/-- The first sum of the slot holds the gradient: byte 2 of 1.0 in FP32. -/
theorem depositEnd_sum : Mem.get depositEnd.core.mem.mem (depositTable + 4096 + 2) = 0x80 := by decide +kernel

theorem depositState_sum : Mem.get depositState.core.mem.mem (depositTable + 4096 + 2) = 0 := by decide +kernel

/-- Every write to the slot waits for an entry, and waits in the descriptor's name (R361). -/
theorem depositEnd_traceless : depositEnd.core.Traceless where
  free := by decide +kernel
  wcb := by decide +kernel
  wbs := by decide +kernel
  owed := by decide +kernel

/-- A command that leaves the device state raised no fault: it ends with the core it formed. -/
theorem finish_core (dev : Dev) (c : Core) (q : List Instr) (h : (finish dev c q).dev = dev) (hd : dev = .run) :
    (finish dev c q).core = c := by
  unfold finish at h ⊢
  split
  · rfl
  · next heq =>
    rw [heq, hd] at h
    simp at h

/-- Refutes O29: its clause for a deposit asks for a core that handing over what waits (`Core.settle`) takes to the end,
and that holds the memory from before. The model hands over within the descriptor's work, so a write of this member's
adders that waits for an entry waits in the descriptor's name (R361). Handing over never leaves such a wait: what it
writes itself waits in no descriptor's name (`Core.tracks_settle`). So where the quota is 0 no core settles to the
deposit's end. -/
theorem not_backwardComputes : ¬ Obligations.BackwardComputes := by
  unfold Obligations.BackwardComputes
  intro h
  obtain ⟨deposit, -⟩ := h depositState 0 0x56 depositDesc (by decide +kernel) (by decide +kernel)
    (by decide +kernel) depositState_plain depositState_issues depositState_ready rfl rfl
  obtain ⟨c, hexec, -, -, hmem⟩ := deposit rfl
  have ends : depositEnd = finish .run c.settle [] := by
    unfold depositEnd
    rw [hexec]
    rfl
  have core : depositEnd.core = c.settle := by
    rw [ends]
    exact finish_core _ _ _ (ends ▸ depositEnd_dev) rfl
  obtain ⟨-, same⟩ := c.tracks_settle (core ▸ depositEnd_traceless)
  have sum := same (depositTable + 4096 + 2) (by decide)
  rw [hmem, depositState_sum, ← core, depositEnd_sum] at sum
  exact absurd sum (by decide)

end Sys2Proof.Machine
end

section
/-! SUPPORT. A conversion (type 0x30) hands its blocks to the converters as spans (R148, R167). -/

namespace Sys2Proof.Machine

/-! ### Spans that take buffers (R148, R473) -/

/-- A span but for the converter that holds it. -/
def Span.loose (s : Span) : Span := { s with conv := none }

/-- Spans of c took buffers, and nothing else of it changed. -/
structure Core.Assigned (c c' : Core) : Prop where
  same : c' = { c with fwd := { c.fwd with spans := c'.fwd.spans } }
  spans : c'.fwd.spans.map Span.loose = c.fwd.spans.map Span.loose

theorem Core.Assigned.refl (c : Core) : c.Assigned c := ⟨rfl, rfl⟩

theorem Core.Assigned.trans {a b c : Core} (h : a.Assigned b) (k : b.Assigned c) : a.Assigned c where
  same := by rw [k.same, h.same]
  spans := k.spans.trans h.spans

theorem Core.assigned_setSpan (c : Core) {i : Nat} {s : Span} (h : c.fwd.spans[i]? = some s) (v : Option Nat) :
    c.Assigned (c.setSpan i { s with conv := v }) where
  same := rfl
  spans := by
    obtain ⟨hi, e⟩ := List.getElem?_eq_some_iff.mp h
    refine (List.map_set ..).trans ?_
    have hs : Span.loose { s with conv := v } = (c.fwd.spans.map Span.loose)[i]'(by simpa using hi) := by
      rw [List.getElem_map, e]
      rfl
    rw [hs, List.set_getElem_self]

theorem Core.assigned_assignSpans (c : Core) : c.Assigned c.assignSpans := by
  unfold Core.assignSpans
  generalize List.range c.fwd.spans.length = l
  induction l generalizing c with
  | nil => exact .refl c
  | cons i l ih =>
    refine Core.Assigned.trans ?_ (ih _)
    dsimp only
    split
    · exact .refl c
    · next s hs =>
      split
      · exact .refl c
      · split
        · exact c.assigned_setSpan hs _
        · exact .refl c

/-- New spans join those that wait, behind them; memory, links and events stay as they are. -/
theorem Core.addSpans_spec (c : Core) (ss : List Span) :
    (c.addSpans ss).mem = c.mem ∧ (c.addSpans ss).links = c.links ∧ (c.addSpans ss).faultReq = c.faultReq ∧
      (c.addSpans ss).fwd.spans.map Span.loose = (c.fwd.spans ++ ss).map Span.loose := by
  have h := Core.assigned_assignSpans { c with fwd := { c.fwd with spans := c.fwd.spans ++ ss } }
  unfold Core.addSpans
  dsimp only
  split
  · exact ⟨by rw [h.same], by rw [h.same], by rw [h.same], h.spans⟩
  · simp only [Core.bump_mem, Core.bump_links, Core.bump_faultReq, Core.bump_fwd, Core.draw_mem, Core.draw_links,
      Core.draw_faultReq, Core.draw_fwd]
    exact ⟨by rw [h.same], by rw [h.same], by rw [h.same], h.spans⟩

/-! ### The spans of a tensor (Table 5.1) -/

/-- m tiles of width w cover n as far as they reach. -/
theorem sum_tiles (n w m : Nat) : ((List.range m).map fun g => min n (w * g + w) - w * g).sum = min n (w * m) := by
  induction m with
  | zero => simp
  | succ m ih =>
    rw [List.range_succ, List.map_append, List.sum_append, ih, Nat.mul_succ]
    simp only [List.map_cons, List.map_nil, List.sum_singleton]
    omega

theorem spanBlks_length (addr fmt cols r0 r1 k0 k1 : Nat) :
    (spanBlks addr fmt cols r0 r1 k0 k1).length = (r1 - r0) * ceilDiv (k1 - k0) 32 := by
  simp [spanBlks, List.length_flatMap]

/-- The j-th block of a span's i-th row, of a tensor that goes to an element format. -/
theorem exists_spanBlks_blk (addr cols : Nat) {fmt r0 r1 k0 k1 i j : Nat} (hf : blkOfCode fmt = none) (hi : i < r1 - r0)
    (hj : j < ceilDiv (k1 - k0) 32) : ∃ b ∈ spanBlks addr fmt cols r0 r1 k0 k1,
      b.blk = (r0 + i) * ceilDiv cols 32 + k0 / 32 + j ∧ b.elem = (r0 + i) * cols + k0 + 32 * j ∧
        b.data = addr + b.elem * fmtBits fmt / 8 := by
  refine ⟨_, List.mem_flatMap.mpr ⟨i, List.mem_range.mpr hi, List.mem_map.mpr ⟨j, List.mem_range.mpr hj, rfl⟩⟩,
    rfl, rfl, ?_⟩
  dsimp only
  rw [hf]

/-- A span 4,096 elements wide is 128 blocks wide. -/
theorem ceilDiv_tile (cols k : Nat) : ceilDiv (min cols (4096 * k + 4096) - 4096 * k) 32 =
    min (ceilDiv cols 32) (128 * k + 128) - 128 * k := by
  unfold ceilDiv
  omega

section
variable (d die : Nat) (lat : Latch) (tgt : Target) (act : Bool) (src : Opnd × List Byte) (addr : Nat)

/-- The spans of a tensor hold as many blocks as it has. -/
theorem rowSpans_blks_length : ((rowSpans d die lat tgt act src addr).flatMap (·.blks)).length =
    src.1.rows * ceilDiv src.1.cols 32 := by
  have hrows := sum_tiles src.1.rows 8 (ceilDiv src.1.rows 8)
  have hcols := sum_tiles (ceilDiv src.1.cols 32) 128 (ceilDiv src.1.cols 4096)
  rw [Nat.min_eq_left (by unfold ceilDiv; omega)] at hrows hcols
  simp only [rowSpans, List.flatMap_assoc, List.flatMap_map, List.length_flatMap, spanBlks_length, ceilDiv_tile,
    List.sum_map_mul_left, List.sum_map_mul_right, hcols, hrows]

/-- Every span of a tensor reads it, and goes where it goes. -/
theorem rowSpans_all : ∀ sp ∈ rowSpans d die lat tgt act src addr, sp.d = d ∧ sp.tgt = tgt ∧ sp.src = some src := by
  intro sp hsp
  simp only [rowSpans, List.mem_flatMap, List.mem_map] at hsp
  obtain ⟨g, -, k, -, rfl⟩ := hsp
  exact ⟨rfl, rfl, rfl⟩

/-- Block k of row i of a tensor that goes to an element format is in a span, with its place. -/
theorem exists_rowSpans_blk {i k : Nat} (hi : i < src.1.rows) (hk : k < ceilDiv src.1.cols 32)
    (hf : blkOfCode tgt.fmt = none) : ∃ sp ∈ rowSpans d die lat tgt act src addr, ∃ b ∈ sp.blks,
      b.blk = i * ceilDiv src.1.cols 32 + k ∧ b.elem = i * src.1.cols + 32 * k ∧
        b.data = addr + b.elem * fmtBits tgt.fmt / 8 := by
  have hk' : k < (src.1.cols + 32 - 1) / 32 := hk
  have hrow : 8 * (i / 8) + i % 8 = i := by omega
  have hr : i % 8 < min src.1.rows (8 * (i / 8) + 8) - 8 * (i / 8) := by omega
  have hc : k % 128 < ceilDiv (min src.1.cols (4096 * (k / 128) + 4096) - 4096 * (k / 128)) 32 := by
    rw [ceilDiv_tile]
    unfold ceilDiv
    omega
  obtain ⟨b, hb, hblk, helem, hdata⟩ := exists_spanBlks_blk addr src.1.cols hf hr hc
  refine ⟨_, List.mem_flatMap.mpr ⟨i / 8, List.mem_range.mpr (by unfold ceilDiv; omega),
    List.mem_map.mpr ⟨k / 128, List.mem_range.mpr (by unfold ceilDiv; omega), rfl⟩⟩, b, hb, ?_, ?_, hdata⟩
  · rw [hblk, hrow]
    omega
  · rw [helem, hrow]
    omega

end

end Sys2Proof.Machine
end

section
/-! SUPPORT. A conversion from its issue to its spans (R148, R167). -/

namespace Sys2Proof.Machine

/-- Without the pallet every address stays as it is (R243). -/
theorem Core.resolveAll_local (c : Core) (fs : List (Nat × Nat)) : c.resolveAll false fs = .ok (fs.map Prod.snd) := by
  induction fs with
  | nil => rfl
  | cons p fs ih =>
    rw [Core.resolveAll, ih]
    rfl

/-- So do addresses without bit 63 where it may be meant. -/
theorem Core.resolved_low (c : Core) (d src : Nat) (pallet : Bool) (fs : List (Nat × Nat)) (k : List Nat → Core → Core)
    (h : ∀ p ∈ fs, p.2 < 2 ^ 63) : c.resolved d src pallet fs k = k (fs.map Prod.snd) c := by
  cases pallet with
  | true => exact c.resolved_plain d src fs k h
  | false =>
    unfold Core.resolved
    rw [c.resolveAll_local]

/-- An operand in an element format has no header to check. -/
theorem Core.headersOk_elem (c : Core) (d src off : Nat) (conv : Option Nat) (o : Opnd) (stash : Bool)
    (extra : List Byte → Option Nat) (k : List (List Byte) → Core → Core) (h : (blkOfCode o.fmt).isSome = false) :
    c.headersOk d src conv [(off, o, stash, extra)] [] k = k [[]] c := by
  rw [Core.headersOk, Opnd.isBlk, h]
  rfl

/-- A conversion between element formats that may begin, and whose checks pass (R167). -/
structure State.ConvertReady (s : State) (d : Nat) (x : Desc) : Prop where
  settled : s.settled
  awake : s.awake
  issues : s.issues d x 0x30
  rc : x.rc = false
  src : x.f 16 8 < 2 ^ 63
  dst : x.f 32 8 < 2 ^ 63
  noSrcScale : x.f 24 8 = 0
  noDstScale : x.f 40 8 = 0
  srcElem : (blkOfCode (x.f 58 1)).isSome = false
  dstElem : (blkOfCode (x.f 59 1)).isSome = false
  srcKnown : knownFormat (x.f 58 1) = true
  dstKnown : knownFormat (x.f 59 1) = true
  rows : 1 ≤ x.f 48 4 ∧ x.f 48 4 ≤ 2 ^ 20
  cols : 1 ≤ x.f 52 4 ∧ x.f 52 4 ≤ 2 ^ 20
  role : 1 ≤ x.f 60 1 / 16 ∧ x.f 60 1 / 16 ≤ 5
  kind : fld (x.f 60 1) 3 2 = 1 ∨ fld (x.f 60 1) 3 2 = 2
  rmode : x.f 60 1 % 4 ≠ 3
  jit : x.f 61 1 < 2
  rsvd : x.f 62 2 = 0

/-- The source of a conversion between element formats. -/
def Desc.convOpnd (x : Desc) : Opnd :=
  { addr := x.f 16 8, scale := 0, fmt := x.f 58 1, rows := x.f 48 4, cols := x.f 52 4 }

/-- The core of a conversion that is issued, to the converters of both dies. -/
def Core.convIssued (c : Core) (d : Nat) (x : Desc) : Core :=
  (c.setDesc d { x with issued := true }).noteIssue [4, 5]

theorem Core.convIssued_desc? (c : Core) (d : Nat) (x : Desc) :
    (c.convIssued d x).desc? d = some { x with issued := true } := Core.setDesc_desc?_self _ _ _

/-- Where its converted elements go. -/
def Core.convTarget (c : Core) (x : Desc) : Target :=
  { fmt := x.f 59 1, rmode := x.f 60 1 % 4, nfp := x.nfp, scale := x.f 40 8, key := c.convKey x.tag (x.f 56 2)
    role := x.f 60 1 / 16, tag := 7, blocks := 0 }

/-- Its spans: an element format latches no tensor (R138). -/
def Core.convSpans (c : Core) (d : Nat) (x : Desc) : List Span :=
  rowSpans d 2 (c.noLatch (x.f 56 2) (fld (x.f 60 1) 3 2) (x.f 60 1 / 16) 0) (c.convTarget x) false (x.convOpnd, [])
    (x.f 32 8)

/-- Its stage adds its spans, and its own work is done. -/
theorem execConvert_eq {s : State} {d : Nat} {x : Desc} (h : s.ConvertReady d x)
    (hq : (((s.core.convIssued d x).addSpans (s.core.convSpans d x)).workDone d).faultReq = none) :
    exec (.convert d) s = .next (s.withCore ((((s.core.convIssued d x).addSpans (s.core.convSpans d x)).workDone d).owe
      (s.core.convIssued d x) (.desc d))) := by
  obtain ⟨hx, hi, hh⟩ := h.issues
  have hlive : (s.core.convIssued d x).live d = true := by
    unfold Core.live
    rw [Core.convIssued_desc?]
    rfl
  have hj : x.f 61 1 / 2 = 0 := Nat.div_eq_of_lt h.jit
  refine lift_quiet (f := fun dev c => Core.issue c dev d [0x30] _ _) h.awake ?_ ((Core.owe_faultReq _ _ _).trans hq)
  rw [Core.issue_ok s.core s.dev d _ _ _ x hx hi hh]
  dsimp only
  rw [Core.checked_ok, Core.rcGate_off _ _ _ _ _ _ h.rc, Core.resolved_low,
    Core.headersOk_elem _ _ _ _ _ _ _ _ _ h.srcElem]
  · simp only [h.dstElem, h.noSrcScale, Bool.false_eq_true, if_false]
    exact congrArg (fun c => Core.owe c _ _) (if_pos hlive)
  · simp [h.src, h.dst, h.noSrcScale, h.noDstScale, -Nat.reducePow]
  · simp [fmtChecks, rndChecks, firstBad, h.srcKnown, h.dstKnown, h.rows, h.cols, h.role, h.kind, h.rmode, h.rsvd,
      h.srcElem, h.dstElem, h.noSrcScale, h.noDstScale, hj, -Nat.reducePow]

/-- R148, R167: the spans of a conversion hold every block of its source once, at its place, and nothing else of memory
or of the tallies changes. -/
theorem convert_spans {s : State} {d : Nat} {x : Desc} (h : s.ConvertReady d x) :
    ∃ t, exec (.convert d) s = .next t ∧ t.dev = s.dev ∧ t.pending = s.pending ∧ t.core.isDone d ∧
      t.core.mem = s.core.mem ∧ t.core.links.tallies = s.core.links.tallies ∧
      let new := t.core.fwd.spans.drop s.core.fwd.spans.length
      (∀ sp ∈ new, sp.d = d ∧ sp.tgt.fmt = x.f 59 1 ∧ sp.tgt.rmode = x.f 60 1 % 4 ∧
        sp.src = some (x.convOpnd, [])) ∧
      (new.flatMap (·.blks)).length = x.f 48 4 * ceilDiv (x.f 52 4) 32 ∧
      ∀ i k, i < x.f 48 4 → k < ceilDiv (x.f 52 4) 32 → ∃ sp ∈ new, ∃ b ∈ sp.blks,
        b.blk = i * ceilDiv (x.f 52 4) 32 + k ∧ b.elem = i * x.f 52 4 + 32 * k ∧
        b.data = x.f 32 8 + b.elem * fmtBits (x.f 59 1) / 8 := by
  have hexec := execConvert_eq h
  obtain ⟨hmem, hlinks, hfault, hspans⟩ := (s.core.convIssued d x).addSpans_spec (s.core.convSpans d x)
  generalize (s.core.convIssued d x).addSpans _ = c at hexec hmem hlinks hfault hspans
  have hx : c.desc? d = some { x with issued := true } := by
    unfold Core.desc?
    rw [hlinks]
    exact Core.convIssued_desc? _ _ _
  rw [c.workDone_eq d _ hx, Core.owe_same _ _ _ (by rw [Core.setDesc_mem, hmem])] at hexec
  have hnew : (c.fwd.spans.drop s.core.fwd.spans.length).map Span.loose = (s.core.convSpans d x).map Span.loose := by
    rw [List.map_drop, hspans, ← List.map_drop]
    exact congrArg _ List.drop_left
  refine ⟨_, hexec (hfault.trans h.settled), rfl, rfl, ⟨_, Core.setDesc_desc?_self _ _ _, rfl, rfl⟩,
    hmem, ?_, ?_, ?_, ?_⟩
  · exact (congrArg Links.tallies hlinks : c.links.tallies = _)
  · intro sp hsp
    obtain ⟨r, hr, e⟩ := List.mem_map.mp (hnew ▸ List.mem_map_of_mem hsp)
    obtain ⟨hd, ht, hsrc⟩ := rowSpans_all _ _ _ _ _ _ _ r hr
    obtain ⟨ed, -, -, et, -, -, es, -⟩ := Span.mk.inj e
    rw [← ed, ← et, ← es, ht]
    exact ⟨hd, rfl, rfl, hsrc⟩
  · have e := congrArg (List.flatMap Span.blks) hnew
    simp only [List.flatMap_map, Span.loose] at e
    exact (congrArg List.length e).trans (rowSpans_blks_length ..)
  · intro i k hi hk
    have hf : blkOfCode (x.f 59 1) = none := Option.isNone_iff_eq_none.mp (by simpa using h.dstElem)
    obtain ⟨r, hr, b, hb, hplace⟩ := exists_rowSpans_blk d 2 _ (s.core.convTarget x) false (x.convOpnd, []) (x.f 32 8)
      hi hk hf
    obtain ⟨sp, hsp, e⟩ := List.mem_map.mp (hnew ▸ List.mem_map_of_mem hr)
    obtain ⟨-, -, -, -, eb, -⟩ := Span.mk.inj e
    exact ⟨sp, hsp, b, eb ▸ hb, hplace⟩

end Sys2Proof.Machine
end

section
/-! SUPPORT. The bytes of one block and of its line of scale words (R16, R24, R25, R162). -/

namespace Sys2Proof.Machine

/-! ### Reading back what was written -/

theorem Mem.read_eq_map_get (m : Mem) (a n : Nat) : Mem.read m a n = (List.range n).map fun i => Mem.get m (a + i) := by
  refine List.map_congr_left fun i hi => ?_
  have hi := List.mem_range.mp hi
  exact Mem.get_filter m (fun k => decide (a ≤ k) && decide (k < a + n)) (a + i) (by simp; omega)

/-- Where memory holds the bytes of a list one by one, a read gives the list. -/
theorem Mem.read_of_get {m : Mem} {a : Nat} {bs : List Byte}
    (h : ∀ i, i < bs.length → Mem.get m (a + i) = bs.getD i 0) :
    Mem.read m a bs.length = bs := by
  rw [Mem.read_eq_map_get]
  refine List.ext_getElem (by simp) fun i h1 h2 => ?_
  rw [List.getElem_map, List.getElem_range, h i h2, List.getD_eq_getElem _ _ h2]

/-- A byte outside what is written keeps its value. -/
theorem Mem.get_write_ne (m : Mem) {a y : Nat} {bs : List Byte} (h : y < a ∨ a + bs.length ≤ y) :
    Mem.get (Mem.write m a bs) y = Mem.get m y := by
  rw [Mem.get_write, if_neg (by omega)]

theorem Mem.get_write_at (m : Mem) (a : Nat) {i : Nat} {bs : List Byte} (h : i < bs.length) :
    Mem.get (Mem.write m a bs) (a + i) = bs.getD i 0 := by
  rw [Mem.get_write, if_pos (by omega), Nat.add_sub_cancel_left]

/-! ### A block of a scale tensor -/

/-- The line that holds a block's scale word. -/
def SpanBlk.line (b : SpanBlk) (t : Target) : Nat := t.scale + 64 + 64 * (b.blk / 30)

/-- A block's scale word in its line. -/
def SpanBlk.word (b : SpanBlk) (t : Target) : Nat := b.line t + 4 + 2 * (b.blk % 30)

/-- The scale words of a tensor's last line. -/
def Target.used (t : Target) : Nat := (t.blocks - 1) % 30 + 1

/-- Is a block's line stamped with it: is it the line's first, or of a page (R184)? -/
abbrev SpanBlk.stamps (b : SpanBlk) (t : Target) : Prop := b.blk % 30 = 0 ∨ (t.tag == 5) = true

/-- Are the unused words of a block's line cleared with it: is it the tensor's last, or of a page's last line? -/
abbrev SpanBlk.clears (b : SpanBlk) (t : Target) : Prop :=
  b.blk + 1 = t.blocks ∨ ((t.tag == 5) = true ∧ b.blk / 30 = (t.blocks - 1) / 30)

/-- The stamp of a block's line. -/
def SpanBlk.stamp (b : SpanBlk) (t : Target) : List Byte :=
  toLE 4 ((t.seq + 30 * (b.blk / 30)) % 2 ^ 24 + t.tag * 2 ^ 24)

/-- Memory after a block is written. -/
def Mem.putBlk (m : Mem) (t : Target) (b : SpanBlk) (o : BlkOut) : Mem :=
  let m := Mem.write m b.data o.data
  let m := if b.stamps t then Mem.write m (b.line t) (b.stamp t) else m
  let m := Mem.write m (b.word t) (toLE 2 o.word)
  if b.clears t then Mem.write m (b.line t + 4 + 2 * t.used) (List.replicate (2 * (30 - t.used)) 0) else m

/-- A write may be made or not: a byte outside it keeps its value. -/
theorem Mem.get_ite_write_ne (m : Mem) (p : Prop) [Decidable p] {a y : Nat} {bs : List Byte}
    (h : p → y < a ∨ a + bs.length ≤ y) : Mem.get (if p then Mem.write m a bs else m) y = Mem.get m y := by
  split
  · next hp => exact Mem.get_write_ne m (h hp)
  · rfl

section
variable (m : Mem) (t : Target) (b : SpanBlk) (o : BlkOut)

/-- The words that are cleared lie behind the block's own. -/
theorem SpanBlk.word_before (hb : b.blk < t.blocks) (hc : b.clears t) : b.word t + 2 ≤ b.line t + 4 + 2 * t.used := by
  unfold SpanBlk.word Target.used
  rcases hc with hc | ⟨-, hc⟩ <;> omega

/-- Outside its data and its line a block leaves memory as it is. -/
theorem Mem.putBlk_outside {y : Nat} (hd : y < b.data ∨ b.data + o.data.length ≤ y)
    (hl : y < b.line t ∨ b.line t + 64 ≤ y) : Mem.get (Mem.putBlk m t b o) y = Mem.get m y := by
  have hu : 1 ≤ t.used ∧ t.used ≤ 30 := by unfold Target.used; omega
  unfold Mem.putBlk
  rw [Mem.get_ite_write_ne _ _ fun _ => by rw [List.length_replicate]; omega,
    Mem.get_write_ne _ (by rw [toLE_length]; unfold SpanBlk.word; omega),
    Mem.get_ite_write_ne _ _ fun _ => by rw [SpanBlk.stamp, toLE_length]; omega, Mem.get_write_ne _ hd]

/-- A block's data is read back, where its line lies elsewhere. -/
theorem Mem.read_putBlk_data (h : b.data + o.data.length ≤ b.line t ∨ b.line t + 64 ≤ b.data) :
    Mem.read (Mem.putBlk m t b o) b.data o.data.length = o.data := by
  have hu : 1 ≤ t.used ∧ t.used ≤ 30 := by unfold Target.used; omega
  refine Mem.read_of_get fun i hi => ?_
  unfold Mem.putBlk
  rw [Mem.get_ite_write_ne _ _ fun _ => by rw [List.length_replicate]; omega,
    Mem.get_write_ne _ (by rw [toLE_length]; unfold SpanBlk.word; omega),
    Mem.get_ite_write_ne _ _ fun _ => by rw [SpanBlk.stamp, toLE_length]; omega, Mem.get_write_at _ _ hi]

/-- A block's scale word is read back. -/
theorem Mem.read_putBlk_word (hb : b.blk < t.blocks) :
    Mem.read (Mem.putBlk m t b o) (b.word t) 2 = toLE 2 o.word := by
  have key := Mem.read_of_get (m := Mem.putBlk m t b o) (a := b.word t) (bs := toLE 2 o.word) fun i hi => by
    rw [toLE_length] at hi
    unfold Mem.putBlk
    rw [Mem.get_ite_write_ne _ _ fun hc => .inl (by have := b.word_before t hb hc; omega),
      Mem.get_write_at _ _ (by rwa [toLE_length])]
  rwa [toLE_length] at key

end

end Sys2Proof.Machine
end

section
/-! SUPPORT. A converter's untracked span of one block, from its buffer to memory (R148, R162). -/

namespace Sys2Proof.Machine

/-! ### What a converter does before it writes -/

/-- Counters count, events are logged and descriptor d is marked: the other objects, time, module, memory and armed
slots stay, no FAULT_STOP is asked for, and d is not rejected. -/
structure Core.Prepares (d : Nat) (c c' : Core) : Prop where
  objs : c.KeepsObjs c'
  now : c'.now = c.now
  module_ : c'.module_ = c.module_
  mem : c'.mem = c.mem
  inj : c'.inj = c.inj
  quiet : c.faultReq = none → c'.faultReq = none
  live : c.live d = true → c'.live d = true

section
variable {a b c : Core} {d : Nat}

theorem Core.Prepares.refl (d : Nat) (c : Core) : Core.Prepares d c c := ⟨.refl c, rfl, rfl, rfl, rfl, id, id⟩

theorem Core.Prepares.trans (h : Core.Prepares d a b) (k : Core.Prepares d b c) : Core.Prepares d a c where
  objs := h.objs.trans k.objs
  now := k.now.trans h.now
  module_ := k.module_.trans h.module_
  mem := k.mem.trans h.mem
  inj := k.inj.trans h.inj
  quiet := k.quiet ∘ h.quiet
  live := k.live ∘ h.live

/-- The same accesses are served. -/
theorem Core.Prepares.lbad (h : Core.Prepares d a b) (n k : Nat) : b.lbad n k = a.lbad n k :=
  Core.SameMap.lbad ⟨h.now, h.module_, h.objs.obj⟩ n k

theorem Core.Prepares.plain (h : Core.Prepares d a b) (hp : a.plainEvents) : b.plainEvents :=
  fun code => (h.objs.esc code).trans (hp code)

/-- A core that differs in nothing of these. -/
theorem Core.prepares_of_eq (hd : b.dict = a.dict) (hn : b.now = a.now) (hm : b.module_ = a.module_)
    (hmem : b.mem = a.mem) (hi : b.inj = a.inj) (hq : b.faultReq = a.faultReq)
    (hl : a.live d = true → b.live d = true) : Core.Prepares d a b :=
  ⟨Core.keepsObjs_of_dict hd, hn, hm, hmem, hi, fun h => hq.trans h, hl⟩

end

theorem Core.prepares_bump (d : Nat) (c : Core) {i u : Nat} (n : Nat) (hi : okey i u / 256 ∈ unitCounters) :
    Core.Prepares d c (c.bump i u n) :=
  ⟨c.keepsObjs_bump n hi, rfl, rfl, rfl, rfl, id, id⟩

/-- The counter of the converters' corrected bits is set. -/
theorem Core.prepares_setObj (d : Nat) (c : Core) (v : Nat) : Core.Prepares d c (c.setObj 0x3880 0x14 v) where
  objs :=
    { obj := fun ho => Core.obj_setObj_ne c v fun e => ho (by rw [e]; decide)
      esc := c.escClass_setObj (.inl (by decide)) v }
  now := rfl
  module_ := rfl
  mem := rfl
  inj := rfl
  quiet := id
  live := id

theorem Core.prepares_draw (d : Nat) (c : Core) (n : Nat) : Core.Prepares d c (c.draw n).2 :=
  Core.prepares_of_eq rfl rfl rfl rfl rfl rfl id

theorem Core.Assigned.prepares {c c' : Core} (h : c.Assigned c') (d : Nat) : Core.Prepares d c c' := by
  rw [h.same]
  exact Core.prepares_of_eq rfl rfl rfl rfl rfl rfl id

/-- A descriptor that is there is replaced. -/
theorem Core.prepares_setDesc (d : Nat) (c : Core) (x : Desc) : Core.Prepares d c (c.setDesc d x) :=
  Core.prepares_of_eq rfl rfl rfl rfl rfl rfl fun _ => by
    unfold Core.live
    rw [Core.setDesc_desc?_self]
    rfl

/-- Where no event is escalated, one whose own class is COUNT is only logged (R451). -/
theorem Core.raise_count {c : Core} (hp : c.plainEvents) {v : Ev} (hv : v.own = 0) :
    c.evClass v = 0 ∧ c.raise v = c.note v := by
  have hcls : c.evClass v = 0 := by
    unfold Core.evClass
    rw [hp v.code, hv]
    rfl
  refine ⟨hcls, ?_⟩
  unfold Core.raise
  split
  · rfl
  · simp [hcls, hv]

theorem Core.prepares_raise {d : Nat} {c : Core} (hp : c.plainEvents) {v : Ev} (hv : v.own = 0)
    (hk : v.code < 65536) : Core.Prepares d c (c.raise v) := by
  obtain ⟨hcls, e⟩ := Core.raise_count hp hv
  rw [e]
  exact {
    objs := c.keepsObjs_note v (by rw [hcls]; decide) hk
    now := c.note_now v
    module_ := c.note_module_ v
    mem := c.note_mem v
    inj := c.note_inj v
    quiet := fun hq => c.note_quiet v hq (by rw [hcls]; decide)
    live := by unfold Core.live Core.desc?; rw [c.note_links]; exact id }

/-- Its descriptor remembers it, and goes on. -/
theorem Core.prepares_raiseOnce {d : Nat} {c : Core} (hp : c.plainEvents) {v : Ev} (hv : v.own = 0)
    (hk : v.code < 65536) : Core.Prepares d c (c.raiseOnce d v) := by
  unfold Core.raiseOnce
  split
  · exact .refl d c
  · next x hx =>
    split
    · exact .refl d c
    · have h := Core.prepares_setDesc d c { x with marks := v.code :: x.marks }
      exact h.trans (Core.prepares_raise (h.plain hp) hv hk)

/-- Counting what a converter read, non-finite elements among it, rejects nothing (R33). -/
theorem Core.prepares_countSeen {d : Nat} {c : Core} (hp : c.plainEvents) (src : Nat) (r : Seen) :
    Core.Prepares d c (c.countSeen d src r) := by
  have h : Core.Prepares d c (((c.bump 0x3008 1 r.nonfin).bump 0x3008 4 r.nfZero).bump 0x3008 5 r.rsvd) :=
    ((c.prepares_bump d _ (by decide)).trans (Core.prepares_bump d _ _ (by decide))).trans
      (Core.prepares_bump d _ _ (by decide))
  unfold Core.countSeen
  dsimp only
  split
  · exact h
  · exact h.trans (Core.prepares_raiseOnce (h.plain hp) rfl (by norm_num))

/-! ### What it writes -/

/-- Memory holds m, no slot is armed, and no FAULT_STOP is asked for. -/
structure Core.Holds (m : Mem) (c : Core) : Prop where
  mem : c.mem.mem = m
  inj : c.inj = []
  quiet : c.faultReq = none

section
variable {m : Mem} {c c' : Core}

theorem Core.Holds.keep (h : c.Holds m) (hm : c'.mem.mem = c.mem.mem) (hi : c'.inj = c.inj)
    (hq : c'.faultReq = c.faultReq) : c'.Holds m := ⟨hm.trans h.mem, hi.trans h.inj, hq.trans h.quiet⟩

theorem Core.Holds.bump (h : c.Holds m) (i u n : Nat) : (c.bump i u n).Holds m := h.keep rfl rfl rfl

theorem Core.Holds.counted (h : c.Holds m) (k : c.Counted c') : c'.Holds m :=
  h.keep (congrArg MemSys.mem k.mem) k.inj k.faultReq

theorem Core.Holds.modDesc (h : c.Holds m) (d : Nat) (f : Desc → Desc) : (c.modDesc d f).Holds m :=
  h.keep (congrArg MemSys.mem (c.modDesc_mem d f)) (by unfold Core.modDesc; split <;> rfl) (c.modDesc_faultReq d f)

theorem Core.Holds.lput (h : c.Holds m) {a : Nat} (ha : a < palBit) (bs : List Byte) :
    (c.lput a bs).Holds (Mem.write m a bs) := by
  rw [Core.lput_plain c a bs h.inj ha]
  exact ⟨by rw [Core.store_mem, h.mem], (c.store_inj a bs).trans h.inj, (c.store_faultReq a bs).trans h.quiet⟩

/-- A write that may be made or not. -/
theorem Core.Holds.ite (p : Prop) [Decidable p] {m' : Mem} (h' : c'.Holds m') (h : c.Holds m) :
    (if p then c' else c).Holds (if p then m' else m) := by
  split
  · exact h'
  · exact h

/-- A block goes to memory: its data, its word, and what its line is due. -/
theorem Core.Holds.putBlk (h : c.Holds m) {t : Target} {b : SpanBlk} (o : BlkOut) (hd : b.data < palBit)
    (hl : b.line t + 64 < palBit) : (c.putBlk t b o).Holds (Mem.putBlk m t b o) := by
  have hu : 1 ≤ t.used ∧ t.used ≤ 30 := by unfold Target.used; omega
  have hw : b.word t < palBit := by unfold SpanBlk.word; omega
  have h1 := h.lput hd o.data
  have h2 := Core.Holds.ite (b.stamps t) (h1.lput (by omega : b.line t < palBit) (b.stamp t)) h1
  have h3 := h2.lput hw (toLE 2 o.word)
  exact Core.Holds.ite (b.clears t) (h3.lput (by omega : b.line t + 4 + 2 * t.used < palBit) _) h3

/-- That a descriptor notes a block as its output changes no byte. -/
theorem Core.Holds.noteBlk (h : c.Holds m) (d : Nat) (t : Target) (b : SpanBlk) (o : BlkOut) :
    (c.noteBlk d t b o).Holds m := by
  unfold Core.noteBlk Core.noteOut
  dsimp only
  split
  · exact h
  · exact (h.modDesc _ _).modDesc _ _

/-- A span that leaves its buffer to those that wait changes no byte. -/
theorem Core.Holds.spanLeaves (h : c.Holds m) (sp : Span) : (c.spanLeaves sp).Holds m := by
  unfold Core.spanLeaves
  rw [(Core.assigned_assignSpans _).same]
  exact h.keep rfl rfl rfl

end

/-- A converter at work takes its oldest span, and owes what it writes to the span's descriptor. -/
theorem execSpanConvert_eq {s : State} {v : Nat} {sp : Span} (ha : s.awake) (hw : runsWork s.dev = true)
    (hfind : s.core.assignSpans.fwd.spans.find? (fun q => q.conv == some v) = some sp)
    (hq : ((s.core.assignSpans.convertSpan sp v).spanLeaves sp).faultReq = none) :
    exec (.spanConvert v) s = .next (s.withCore
      (((s.core.assignSpans.convertSpan sp v).spanLeaves sp).owe s.core.assignSpans (.desc sp.d))) := by
  refine (?_ : execSpanConvert v s = _)
  unfold execSpanConvert
  refine lift_quiet ha ?_ ((Core.owe_faultReq _ _ _).trans hq)
  rw [hw]
  dsimp only
  rw [if_neg (by decide), hfind]

/-! ### A span of one block -/

/-- A converter's span of one block of values, of no tracked tensor, for a block format f (R138, R148). -/
structure Span.Lone (sp : Span) (b : SpanBlk) (f : BlkFmt) : Prop where
  blks : sp.blks = [b]
  src : sp.src = none
  item : sp.item = none
  act : sp.act = false
  layer : sp.lat.layer = 4096
  tracked : sp.lat.tracked = false
  fmt : blkOfCode sp.tgt.fmt = some f

/-- The block as its converter writes it: at its own exponent (R143). -/
def Span.loneOut (sp : Span) (b : SpanBlk) (f : BlkFmt) : BlkOut :=
  convBlk f sp.lat true sp.tgt.nfp sp.tgt.rmode sp.tgt.key (sp.tgt.role * 2 ^ 60 + b.elem) b.vals

/-- What a converter reads of a block whose values it holds. -/
def SpanBlk.held (b : SpanBlk) : SpanRead :=
  { vals := [(false, b.vals)], seen := { nonfin := (b.vals.filter Num.nonFinite).length }, nfInj := false
    skewInj := false }

section
variable {sp : Span} {b : SpanBlk} {f : BlkFmt} (h : sp.Lone b f)
include h

theorem Span.Lone.ranges : sp.ranges = [] := by
  unfold Span.ranges
  rw [h.src, h.item]
  rfl

/-- With no slot armed its values are read as the span holds them. -/
theorem Span.Lone.spanVals {c : Core} (hi : c.inj = []) (conv : Nat) (nfp : Bool) :
    c.spanVals conv sp nfp = (b.held, c) := by
  have ha : c.armed 0x11 = false := by simp [Core.armed, hi]
  unfold Core.spanVals Core.injectElems
  rw [h.blks, h.src]
  simp [ha, Seen.add_nonfin, SpanBlk.held]

theorem Span.Lone.convSpan : convSpan f sp true b.held.vals = [sp.loneOut b f] := by
  unfold Machine.convSpan
  rw [h.blks]
  rfl

/-- The span's conversion counts, and its block goes to memory. -/
theorem Span.Lone.releaseBlks {c : Core} {m : Mem} (hc : c.Holds m) (x : Desc) (bs : List (Bool × List Num))
    (hd : b.data < palBit) (hl : b.line sp.tgt + 64 < palBit) :
    (c.releaseBlks sp x bs [sp.loneOut b f]).Holds (Mem.putBlk m sp.tgt b (sp.loneOut b f)) := by
  have hobs (c : Core) (g : Obs → Obs) : c.observe sp.lat g = c := by
    unfold Core.observe
    rw [if_neg (by simp [h.tracked])]
  have hlayer : ¬sp.lat.layer < 4096 := by rw [h.layer]; exact Nat.lt_irrefl _
  have hcount := (hc.counted (c.counted_countConv (sumTally [(sp.loneOut b f).cnt]))).bump 0x3880 0x13 1
  unfold Core.releaseBlks
  simp only [hobs, hlayer, h.blks, if_false, List.map_cons, List.map_nil, List.length_singleton, List.zip_cons_cons,
    List.zip_nil_right, List.foldl_cons, List.foldl_nil]
  refine Core.Holds.noteBlk (Core.Holds.putBlk ?_ _ hd hl) _ _ _ _
  split
  · exact hcount.bump _ _ _
  · exact hcount

/-- An untracked block takes its own exponent, and no policy converts it again (R138, R149). -/
theorem Span.Lone.convertBlks {c : Core} (hlive : c.live sp.d = true) (conv : Nat) (x : Desc) :
    c.convertBlks sp conv f x b.held.vals = c.releaseBlks sp x b.held.vals [sp.loneOut b f] := by
  have hfit : c.spanFits sp.d sp.lat = true := by simp [Core.spanFits, h.tracked]
  unfold Core.convertBlks
  simp [hfit, hlive, h.convSpan]

/-- What is read of the span passes on to its block, where memory serves the block and its line. -/
theorem Span.Lone.convertRead {c : Core} {m : Mem} (hc : c.Holds m) (hlive : c.live sp.d = true) (hp : c.plainEvents)
    (conv : Nat) (x : Desc) (hd : b.data < palBit) (hl : b.line sp.tgt + 64 < palBit)
    (hdata : c.lbad b.data f.bytes = none) (hline : c.lbad (b.line sp.tgt) 64 = none) :
    (c.convertRead sp conv x b.held).Holds (Mem.putBlk m sp.tgt b (sp.loneOut b f)) := by
  have hprep : Core.Prepares sp.d c (if sp.lat.role = 2 ∧ x.ty ≠ 0x30 then c
      else c.countSeen sp.d (convSrc conv) b.held.seen b.held.nfInj) := by
    split
    · exact .refl _ c
    · exact Core.prepares_countSeen hp _ _
  have hskew : b.held.seen.skew = none := rfl
  unfold Core.convertRead
  rw [hskew]
  dsimp only
  generalize (if sp.lat.role = 2 ∧ x.ty ≠ 0x30 then c
      else c.countSeen sp.d (convSrc conv) b.held.seen b.held.nfInj) = c1 at hprep
  have hbad : c1.blksBad sp.tgt f.bytes sp.blks = none := by
    have hline' : c1.lbad (sp.tgt.scale + 64 + 64 * (b.blk / 30)) 64 = none := (hprep.lbad _ _).trans hline
    unfold Core.blksBad
    rw [h.blks]
    simp [hline', hprep.lbad b.data, hdata]
  simp only [hprep.live hlive, h.act, h.fmt, hbad, Bool.not_true, Bool.false_eq_true, if_false]
  rw [h.convertBlks (hprep.live hlive)]
  exact h.releaseBlks ⟨by rw [hprep.mem, hc.mem], hprep.inj.trans hc.inj, hprep.quiet hc.quiet⟩ x _ hd hl

/-- A converter takes the span: it draws how many bits of its buffer were corrected, and reads what it holds. -/
theorem Span.Lone.convertSpan {c : Core} (hi : c.inj = []) {x : Desc} (hx : c.desc? sp.d = some x) (conv : Nat) :
    ∃ c', Core.Prepares sp.d c c' ∧ c.convertSpan sp conv = c'.convertRead sp conv x b.held := by
  have hprep := (c.prepares_draw sp.d (2 ^ 32)).trans (Core.prepares_setObj sp.d _ (min
    ((c.draw (2 ^ 32)).2.obj 0x3880 0x14 + (c.draw (2 ^ 32)).1) (objMax 0x3880 0x14)))
  refine ⟨_, hprep, ?_⟩
  have hinj := hprep.inj.trans hi
  unfold Core.convertSpan
  rw [hx]
  dsimp only
  unfold Core.spanErrors
  rw [Core.inject_none _ hinj]
  dsimp only
  rw [h.ranges, Core.fetchAll]
  dsimp only
  rw [h.spanVals hinj]

/-- A converter that holds such a span, and whose memory serves it, writes its block and nothing else. -/
theorem Span.Lone.runs {s : State} (hs : s.settled) (ha : s.awake) (hi : s.core.inj = []) (hp : s.core.plainEvents)
    (hw : runsWork s.dev = true) {v : Nat} {x : Desc}
    (hfind : s.core.assignSpans.fwd.spans.find? (fun q => q.conv == some v) = some sp)
    (hx : s.core.desc? sp.d = some x) (hd : b.data < palBit) (hl : b.line sp.tgt + 64 < palBit)
    (hdata : s.core.lbad b.data f.bytes = none) (hline : s.core.lbad (b.line sp.tgt) 64 = none) :
    ∃ c : Core, exec (.spanConvert v) s = .next (s.withCore c) ∧
      c.mem.mem = Mem.putBlk s.core.mem.mem sp.tgt b (sp.loneOut b f) := by
  have hassign := s.core.assigned_assignSpans
  have hlive : s.core.live sp.d = true := by unfold Core.live; rw [hx]; rfl
  obtain ⟨c, htake, hconv⟩ := h.convertSpan ((hassign.prepares sp.d).inj.trans hi)
    (by rw [hassign.same]; exact hx : s.core.assignSpans.desc? sp.d = some x) v
  have hprep := (hassign.prepares sp.d).trans htake
  have hout := h.convertRead ⟨congrArg _ hprep.mem, hprep.inj.trans hi, hprep.quiet hs⟩ (hprep.live hlive)
    (hprep.plain hp) v x hd hl ((hprep.lbad _ _).trans hdata) ((hprep.lbad _ _).trans hline)
  rw [← hconv] at hout
  have hleave := hout.spanLeaves sp
  exact ⟨_, execSpanConvert_eq ha hw hfind hleave.quiet, (Core.owe_mem_mem _ _ _).trans hleave.mem⟩

end

end Sys2Proof.Machine
end

section
/-! SUPPORT. Watch records as they go to memory (R155), and O28. -/

namespace Sys2Proof.Machine

/-- With no slot armed puts are stores, one after another. -/
theorem foldl_put_none {α : Type} (addr : α → Nat) (bytes : α → List Byte) (l : List α) {c : Core} (h : c.inj = []) :
    l.foldl (fun c r => c.put (addr r) (bytes r)) c = l.foldl (fun c r => c.store (addr r) (bytes r)) c := by
  induction l generalizing c with
  | nil => rfl
  | cons r l ih =>
    rw [List.foldl_cons, List.foldl_cons, Core.put_none c h]
    exact ih ((Core.store_inj c _ _).trans h)

theorem foldl_store_faultReq {α : Type} (addr : α → Nat) (bytes : α → List Byte) (l : List α) (c : Core) :
    (l.foldl (fun c r => c.store (addr r) (bytes r)) c).faultReq = c.faultReq := by
  induction l generalizing c with
  | nil => rfl
  | cons r l ih => exact (ih _).trans (Core.store_faultReq c _ _)

/-- R155: with a watch area, the oldest step's records go to its slot, and the step is told at 0x3710:03. -/
theorem watchRecordsWrite_runs {s : State} {w : WatchSet} {rest : List WatchSet} (hs : s.settled) (ha : s.awake)
    (hi : s.core.inj = []) (hd : s.dev ≠ .faultStop) (hw : s.core.fwd.watch = w :: rest)
    (hb : s.core.obj 0x3710 1 ≠ 0) :
    let c := (s.core.watchRecs w).foldl (fun (c : Core) (r : Nat × List Byte) =>
      c.store (s.core.obj 0x3710 1 + ((w.step % s.core.obj 0x3710 2) * 49152 + r.1) * 64) r.2) s.core
    exec .watchRecordsWrite s = .next (s.withCore
      (({ c with fwd := { c.fwd with watch := rest } }).setObj 0x3710 3 w.step)) := by
  have hon : ¬(s.dev = .faultStop ∨ s.dev = .off) := by
    rintro (e | e)
    · exact hd e
    · have : s.held = true := by unfold State.held; rw [e]; rfl
      rw [ha] at this
      cases this
  intro c
  refine (?_ : execWatchRecordsWrite s = _)
  unfold execWatchRecordsWrite
  refine lift_quiet ha ?_ ((foldl_store_faultReq _ _ _ _).trans hs)
  rw [hw]
  dsimp only
  rw [if_neg hon, if_neg hb, foldl_put_none _ _ _ hi]

/-- Settles O28: a conversion's spans are the tiles of its tensor (`rowSpans_blks_length`, `exists_rowSpans_blk`), a
converter's block goes to memory as `Mem.putBlk` says (`Span.Lone.runs`), and watch records are stores. -/
theorem convertersWrite : Obligations.ConvertersWrite := by
  unfold Obligations.ConvertersWrite
  refine ⟨?_, ?_, ?_⟩
  · intro s d x hs ha hi hrc hsrc hdst hss hds _ _ hsb hdb hsk hdk hr1 hr2 hc1 hc2 hro1 hro2 hkind hmode hjit hrsvd
    exact convert_spans ⟨hs, ha, hi, hrc, hsrc, hdst, hss, hds, hsb, hdb, hsk, hdk, ⟨hr1, hr2⟩, ⟨hc1, hc2⟩,
      ⟨hro1, hro2⟩, hkind, hmode, hjit, hrsvd⟩
  · intro s v d sp b f x hs ha hc hp hw hfind hd hx hblks hsrc hitem hact hlayer htracked hfmt line word o hdata hline
      hd63 hl63 hblk hdisj
    subst hd
    have h : sp.Lone b f := ⟨hblks, hsrc, hitem, hact, hlayer, htracked, hfmt⟩
    obtain ⟨c, hexec, hmem⟩ := h.runs hs ha hc.1 hp hw hfind hx (hd63.trans (by decide))
      ((Nat.add_lt_add_right hl63 64).trans (by decide)) hdata.all hline.all
    refine ⟨c, hexec, ?_, ?_, fun y hy hy' => ?_⟩
    · rw [hmem]
      exact Mem.read_putBlk_data _ _ _ _ hdisj
    · rw [hmem]
      exact Mem.read_putBlk_word _ _ _ _ hblk
    · rw [hmem]
      exact Mem.putBlk_outside _ _ _ _ hy hy'
  · intro s w rest hs ha hi hd hw hb
    exact watchRecordsWrite_runs hs ha hi hd hw hb

end Sys2Proof.Machine
end

section
/-! SUPPORT. Pages in quarantine (R188, R189): a freed page enters it, and without live walks it empties into the free
rings. -/

namespace Sys2Proof.Machine

/-! ### A page is freed (R189) -/

/-- A page of a pool goes from the allocated ones into quarantine. -/
def Core.quarantinePage (c : Core) (n page : Nat) : Core :=
  { c with attn := { c.attn with
      pools := KMap.set c.attn.pools n { c.pool n with alloc := (c.pool n).alloc.filter (· != page) }
      quarantine := c.attn.quarantine ++ [{ pool := n, page := page, at_ := c.now }] } }

theorem Core.quarantinePage_pool (c : Core) (n page : Nat) :
    (c.quarantinePage n page).pool n = { c.pool n with alloc := (c.pool n).alloc.filter (· != page) } :=
  KMap.getD_set_self _ _ _ _

/-- Freeing an allocated page puts it in quarantine and counts it. -/
theorem Core.freePage_allocated {c : Core} {n page : Nat} (hp : c.sysPoison sysAllocator = none)
    (hon : c.poolOn n = true) (hpage : page ∈ (c.pool n).alloc) :
    c.freePage n page = (c.quarantinePage n page).bump 0x6880 0xA 1 := by
  unfold Core.freePage
  rw [c.sysRead_clean _ hp]
  dsimp only
  rw [if_pos (by rw [hon, Bool.true_and, List.contains_iff_mem]; exact hpage)]
  rfl

/-- An answer notes its status. -/
theorem Core.answer_lastStatus (c : Core) (src : Src) (index sub status : Nat) (data : List Byte) :
    (c.answer src index sub status data).dict.lastStatus = status := by
  unfold Core.answer Core.noteAnswer
  dsimp only
  split <;> rfl

/-- The write to 0x6100+n:0B of a source that reaches it, with room in quarantine, frees the page. -/
theorem poolFreePage_granted {c : Core} {src : Src} {n page : Nat} {dev : Dev} (hn : n < 4)
    (hr : c.reach dev src (0x6100 + n) 0xB true = true) (hroom : c.attn.quarantine.length < 65536) :
    poolFreePage src n page dev c = (c.freePage n page).answer src (0x6100 + n) 0xB stOk := by
  unfold poolFreePage
  dsimp only
  rw [if_neg (Nat.not_le.mpr hn), hr, if_neg (by decide), if_neg (Nat.not_le.mpr hroom)]

/-! ### Quarantine ends (R189) -/

theorem Core.oldestWalk_idle {c : Core} (h : c.attn.items = []) : c.oldestWalk = none := by
  unfold Core.oldestWalk
  rw [h]
  rfl

/-- Without live walks every page in quarantine returns to its ring, oldest first. -/
theorem Core.releasePages_idle {c : Core} (h : c.attn.items = []) :
    c.releasePages = c.attn.quarantine.foldl Core.returnPage { c with attn := { c.attn with quarantine := [] } } := by
  unfold Core.releasePages
  rw [Core.oldestWalk_idle h]
  simp

theorem Core.returnPage_pool (c : Core) (q : QPage) (n : Nat) :
    (c.returnPage q).pool n =
      { c.pool n with back := (c.pool n).back ++ if q.pool = n then [q.page] else [] } := by
  by_cases h : q.pool = n
  · subst h
    rw [if_pos rfl]
    exact KMap.getD_set_self _ _ _ _
  · rw [if_neg h, List.append_nil]
    exact KMap.getD_set_ne _ _ _ (Ne.symm h)

/-- Returned one after another, the pages of a pool stand at its ring's tail in that order. -/
theorem foldl_returnPage_pool (qs : List QPage) (c : Core) (n : Nat) :
    (qs.foldl Core.returnPage c).pool n =
      { c.pool n with back := (c.pool n).back ++ (qs.filter fun q => q.pool == n).map QPage.page } := by
  induction qs generalizing c with
  | nil => simp
  | cons q qs ih =>
    rw [List.foldl_cons, ih, Core.returnPage_pool]
    by_cases h : q.pool = n <;> simp [h]

/-- Returning pages changes the pools and nothing else. -/
theorem foldl_returnPage_rest (qs : List QPage) (c : Core) :
    qs.foldl Core.returnPage c =
      { c with attn := { c.attn with pools := (qs.foldl Core.returnPage c).attn.pools } } := by
  induction qs generalizing c with
  | nil => rfl
  | cons q qs ih =>
    rw [List.foldl_cons, ih]
    rfl

/-! ### The two commands -/

/-- The freed page is in quarantine, and the write is answered OK. -/
theorem poolFreePage_runs {s : State} {src : Src} {n page : Nat} (hs : s.settled) (ha : s.awake)
    (hu : s.core.unpoisoned) (hn : n < 4) (hr : s.core.reach s.dev src (0x6100 + n) 0xB true = true)
    (hroom : s.core.attn.quarantine.length < 65536) (hon : s.core.poolOn n = true)
    (hpage : page ∈ (s.core.pool n).alloc) :
    exec (.poolFreePage src n page) s = .next (s.withCore
      (((s.core.quarantinePage n page).bump 0x6880 0xA 1).answer src (0x6100 + n) 0xB stOk)) := by
  have ring : ((s.core.quarantinePage n page).bump 0x6880 0xA 1).sysPoison sysRingmaster = none := hu _ (by simp)
  refine lift_quiet (f := poolFreePage src n page) ha ?_ ((Core.answer_faultReq _ _ _ _ _ _ ring).trans hs)
  rw [poolFreePage_granted hn hr hroom, Core.freePage_allocated (hu _ (by simp)) hon hpage]

/-- Without live walks the whole quarantine goes back. -/
theorem quarantineRelease_runs {s : State} (hs : s.settled) (ha : s.awake) (hi : s.core.attn.items = []) :
    exec .quarantineRelease s = .next (s.withCore (s.core.attn.quarantine.foldl Core.returnPage
      { s.core with attn := { s.core.attn with quarantine := [] } })) := by
  refine lift_quiet (f := fun _ c => c.releasePages) ha (Core.releasePages_idle hi) ?_
  rw [foldl_returnPage_rest]
  exact hs

/-- Settles O31: a freed page is filtered out of the allocated ones and put last in quarantine
(`Core.freePage_allocated`), and released pages go behind those of their ring (`foldl_returnPage_pool`). That they go to
the tail is log 7's reading of R189. -/
theorem pagesAreFreed : Obligations.PagesAreFreed := by
  unfold Obligations.PagesAreFreed
  intro s src n page hs ha hu
  refine ⟨fun hn hr hroom hon hpage => ?_, fun hi => ?_⟩
  · have pool : ∀ c : Core, c.attn = (s.core.quarantinePage n page).attn →
        c.pool n = { s.core.pool n with alloc := (s.core.pool n).alloc.filter (· != page) } := by
      intro c h
      rw [← Core.quarantinePage_pool]
      unfold Core.pool
      rw [h]
    refine ⟨_, poolFreePage_runs hs ha hu hn hr hroom hon hpage, rfl, rfl, ?_, fun p hp => ?_, ?_, ?_, ?_, ?_⟩
    all_goals dsimp only [State.withCore]
    · rw [pool _ (by simp)]
      simp
    · rw [pool _ (by simp)]
      simp [hp]
    · rw [pool _ (by simp)]
    · rw [Core.answer_attn, Core.bump_attn]
      rfl
    · exact Core.answer_lastStatus ..
    · rw [Core.answer_mem, Core.bump_mem]
      rfl
  · refine ⟨_, quarantineRelease_runs hs ha hi, rfl, ?_, ?_, ?_, ?_⟩
    all_goals dsimp only [State.withCore]
    · rw [foldl_returnPage_rest]
    · rw [foldl_returnPage_pool]
      rfl
    · rw [foldl_returnPage_pool]
      rfl
    · rw [foldl_returnPage_rest]

end Sys2Proof.Machine
end

section
/-! SUPPORT. The state that refutes O30: an item whose number puts its status byte past every device address (R243). -/

namespace Sys2Proof.Machine

/-! ### An item numbered past its list (R202, R203) -/

/-- The item's number: its 64 bytes lie 2^64 past its list. -/
def pastItem : AItem where
  idx := 2 ^ 58
  bytes := []
  addrs := []

/-- An attention descriptor of one item (type 0x40), issued. -/
def pastDesc : Desc where
  queue := 0
  head := 0
  issued := true
  bytes := List.replicate 15 0 ++ [0x40] ++ toLE 8 tsUser ++ List.replicate 12 0 ++ toLE 4 1 ++ List.replicate 88 0

/-- Its run, on a list where the tile store's user region begins: no item waits, one has no status yet. -/
def pastRun : AttnRun where
  d := 0
  base := tsUser
  waiting := []
  left := 1
  lat := Core.noLatch {} 0 1 5 0
  k := { addr := 0, scale := 0, fmt := 0, rows := 0, cols := 0 }
  v := { addr := 0, scale := 0, fmt := 0, rows := 0, cols := 0 }
  kHdr := []
  vHdr := []

/-- The item waits on engine 0 for a free page. -/
def pastWait : ItemRun where
  d := 0
  engine := 0
  walker := 0
  item := pastItem
  gen := 0
  pageWait := some 0

/-- The device runs it. -/
def pastState : State where
  dev := .run
  pending := []
  core :=
    { pins := { modRstN := true }
      links := { descs := [(0, pastDesc)] }
      attn := { runs := [pastRun], items := [pastWait] } }

/-- Where the statement looks for the item's status byte. -/
def pastStatus : Nat := tsUser + 64 * 2 ^ 58 + 60

theorem pastState_plain : pastState.core.plainEvents := fun _ => rfl

/-- The state that the end of the wait leaves. -/
def pastEnd : State := match exec (.pageWaitTimeout 0) pastState with
  | .next t => t
  | _ => pastState

/-- From 2^64 on a logical address is an offset in the pallet (R241, R243): the status goes to that offset's place in
device memory, and the address the statement names reads as before. -/
theorem pastEnd_status : Mem.get pastEnd.core.mem.mem (tsUser + 60 - 0x60000000) = 2 ∧
    Mem.get pastEnd.core.mem.mem pastStatus = 0 := by decide +kernel

/-- Refutes O30: nothing in it keeps an item's number below the count of its descriptor's list, which R202 bounds by
65,536. Item 2^58 has its status byte past 2^64, where no byte of device memory lies, so its wait for a page
ends with nothing at the address that the statement names. -/
theorem not_attentionRuns : ¬ Obligations.AttentionRuns := by
  unfold Obligations.AttentionRuns
  rintro ⟨-, runs⟩
  obtain ⟨-, -, pageWait⟩ := runs pastState 0 pastRun pastDesc rfl rfl ⟨rfl, rfl, rfl, rfl⟩ pastState_plain rfl rfl
    (by decide) rfl rfl
  obtain ⟨u, hexec, -, -, hstatus, -⟩ := pageWait pastWait rfl (by simp [pastState, pastWait]) (by decide) rfl
  have ends : pastEnd = u := by
    unfold pastEnd
    rw [hexec]
  obtain ⟨-, zero⟩ := pastEnd_status
  rw [ends] at zero
  exact absurd (zero.symm.trans hstatus) (by decide)

end Sys2Proof.Machine
end

section
/-! SUPPORT. Descriptors that give their signals, and the trackers at a step advance, where nothing stored is in error
(R239, R360, R361). -/

namespace Sys2Proof.Machine

/-! ### Signals (R360, R361) -/

theorem KMap.get?_mapVal {α : Type} (g : α → α) (m : KMap α) (k : Nat) :
    KMap.get? (m.map fun p => (p.1, g p.2)) k = (KMap.get? m k).map g := by
  induction m with
  | nil => rfl
  | cons p m ih =>
    simp only [List.map_cons, KMap.get?]
    split
    · rfl
    · exact ih

/-- An issued descriptor takes no place in the order of waits. -/
theorem Links.markReady_issued {l : Links} {d : Nat} {x : Desc} (hx : KMap.get? l.descs d = some x)
    (hi : x.issued = true) : KMap.get? l.markReady.descs d = some x := by
  have hn : l.newlyReady x = false := by simp [Links.newlyReady, hi]
  unfold Links.markReady
  split
  · dsimp only
    rw [KMap.get?_mapVal fun y => if l.newlyReady y then { y with readyAt := some l.readyN } else y, hx]
    simp [hn]
  · exact hx

@[simp] theorem Links.markReady_tallies (l : Links) : l.markReady.tallies = l.tallies := by
  unfold Links.markReady
  split <;> rfl

theorem Core.addTally_issued {c : Core} {d : Nat} {x : Desc} (hx : c.desc? d = some x) (hi : x.issued = true)
    (t v : Nat) : (c.addTally t v).desc? d = some x :=
  Links.markReady_issued (l := { c.links with tallies := _ }) hx hi

theorem Core.addTally_tally (c : Core) (t v : Nat) : (c.addTally t v).tally t = (c.tally t + v) % 2 ^ 32 := by
  unfold Core.tally Core.addTally Core.setTally Core.markReady
  rw [Core.bump_links]
  dsimp only
  rw [Links.markReady_tallies]
  exact KMap.getD_set_self _ _ _ _

/-- What ends a descriptor's work or gives its signal: links and counters, and nothing else. -/
def Core.Signals (c c' : Core) : Prop :=
  c' = { c with links := c'.links, incs := c'.incs, dict := { c.dict with objs := c'.dict.objs } }

theorem Core.Signals.trans {a b c : Core} (h : a.Signals b) (k : b.Signals c) : a.Signals c := by
  unfold Core.Signals at *
  rw [k, h]

theorem Core.signals_bump (c : Core) (i u n : Nat) : c.Signals (c.bump i u n) := by
  by_cases hn : n = 0
  · rw [hn, Core.bump_zero]; rfl
  · rw [Core.bump_eq c i u n hn]; rfl

theorem Core.signals_addTally (c : Core) (t v : Nat) : c.Signals (c.addTally t v) :=
  .trans (b := c.setTally t (c.tally t + v)) rfl (Core.signals_bump _ _ _ _)

theorem Core.signals_workDone (c : Core) (d : Nat) : c.Signals (c.workDone d) := by
  unfold Core.workDone Core.modDesc
  split <;> rfl

theorem Core.signals_signalNow (c : Core) (d : Nat) : c.Signals (c.signalNow d) := by
  unfold Core.signalNow Core.signal
  split
  · next x _ =>
    split
    · rfl
    · have marked : c.Signals (c.setDesc d { x with signalled := true }) := rfl
      split
      · exact marked
      · exact marked.trans (Core.signals_addTally _ _ _)
  · rfl

section
variable {c c' : Core} (h : c.Signals c')
include h

theorem Core.Signals.step : c'.step = c.step := by rw [h]
theorem Core.Signals.mem : c'.mem = c.mem := by rw [h]
theorem Core.Signals.stp : c'.stp = c.stp := by rw [h]
theorem Core.Signals.faultReq : c'.faultReq = c.faultReq := by rw [h]

end

/-- An issued descriptor whose work ends is done. -/
theorem Core.workDone_isDone {c : Core} {d : Nat} {x : Desc} (hx : c.desc? d = some x) (hi : x.issued = true) :
    (c.workDone d).isDone d := by
  rw [c.workDone_eq d x hx]
  exact ⟨_, Core.setDesc_desc?_self _ _ _, hi, rfl⟩

/-- Its signal leaves it done. -/
theorem Core.isDone.signalNow {c : Core} {d : Nat} (h : c.isDone d) : (c.signalNow d).isDone d := by
  obtain ⟨x, hx, hi, hd⟩ := h
  unfold Core.signalNow Core.signal
  rw [hx]
  dsimp only
  have marked := c.setDesc_desc?_self d { x with signalled := true }
  split
  · exact ⟨x, hx, hi, hd⟩
  · split
    · exact ⟨_, marked, hi, hd⟩
    · exact ⟨_, Core.addTally_issued marked hi _ _, hi, hd⟩

/-- A signal not yet given adds the increment to the signal tally. -/
theorem Core.signalNow_tally {c : Core} {d : Nat} {x : Desc} (hx : c.desc? d = some x) (hs : x.signalled = false)
    (hn : x.ns = false) : (c.signalNow d).tally x.sigTally = (c.tally x.sigTally + x.inc) % 2 ^ 32 := by
  unfold Core.signalNow Core.signal
  rw [hx]
  dsimp only
  rw [if_neg (by rw [hs]; decide), if_neg (by rw [hn]; decide)]
  exact Core.addTally_tally _ _ _

/-- A descriptor that ends its work and gives its signal in the action itself. -/
theorem Core.workDone_signalNow {c : Core} {d : Nat} {x : Desc} (hx : c.desc? d = some x) :
    c.Signals ((c.workDone d).signalNow d) ∧ (x.issued = true → ((c.workDone d).signalNow d).isDone d) ∧
      (x.signalled = false → x.ns = false →
        ((c.workDone d).signalNow d).tally x.sigTally = (c.tally x.sigTally + x.inc) % 2 ^ 32) := by
  refine ⟨(c.signals_workDone d).trans (Core.signals_signalNow _ d), fun hi => (Core.workDone_isDone hx hi).signalNow,
    fun hs hn => ?_⟩
  rw [c.workDone_eq d x hx]
  exact Core.signalNow_tally (x := { x with done := true }) (Core.setDesc_desc?_self _ _ _) hs hn

/-! ### The trackers at a step advance -/

theorem Core.trackReadAll_clean (c : Core) (h : c.clean) : c.trackReadAll = c := by
  obtain ⟨-, -, hf, hp⟩ := h
  simp [Core.trackReadAll, hf, hp]

/-- Where nothing stored is in error, a step advance leaves descriptors, the training step, memory and time alone. -/
theorem Core.advanceTrackers_clean (c : Core) (h : c.clean) (step : Nat) :
    (c.advanceTrackers step).links = c.links ∧ (c.advanceTrackers step).stp = c.stp ∧
      (c.advanceTrackers step).mem = c.mem ∧ (c.advanceTrackers step).now = c.now := by
  obtain ⟨c', hc'⟩ : ∃ c', c' = c.advanceTrackers step := ⟨_, rfl⟩
  rw [← hc']
  unfold Core.advanceTrackers at hc'
  rw [c.trackReadAll_clean h] at hc'
  dsimp only at hc'
  generalize (if c.obj 0x3710 1 = 0 ∨ step = 0xFFFFFFFF then c.fwd.watch else _) = watch at hc'
  by_cases full : 3 ≤ watch.length
  · rw [if_pos full, Core.raise_free _ _ rfl] at hc'
    subst hc'
    exact ⟨Core.note_links _ _, Core.note_stp _ _, Core.note_mem _ _, Core.note_now _ _⟩
  · rw [if_neg full] at hc'
    subst hc'
    exact ⟨rfl, rfl, rfl, rfl⟩

end Sys2Proof.Machine
end

section
/-! SUPPORT. Step opens and microbatches (R239, R242, R245), and O35. -/

namespace Sys2Proof.Machine

/-! ### Step opens -/

/-- A step open that passes its checks waits. -/
theorem stepOpen_waits {s : State} {d : Nat} {x : Desc} (hs : s.settled) (ha : s.awake) (h : s.issues d x 0x70)
    (hchk : firstBad (s.core.openChecks x) = none) :
    let c1 := (s.core.setDesc d { x with issued := true }).noteIssue []
    exec (.stepOpen d) s = .next (s.withCore { c1 with stp := { c1.stp with opens := c1.stp.opens ++ [d] } }) := by
  obtain ⟨hx, hi, hh⟩ := h
  intro c1
  refine (?_ : execStepOpen d s = _)
  unfold execStepOpen
  refine lift_quiet ha ?_ hs
  rw [Core.issue_ok _ _ _ _ _ _ x hx hi hh]
  dsimp only
  rw [Core.checked_ok]
  · exact Core.owe_same _ _ _ rfl
  · exact hchk

/-- An open that may take effect does so, and what waited for it follows (R274, R240). -/
theorem stepOpenEffect_runs {s : State} {d : Nat} {x : Desc} {rest : List Nat} (ha : s.awake)
    (hx : s.core.desc? d = some x) (ho : s.core.stp.opens = d :: rest) (hw : runsWork s.dev = true)
    (hh : s.core.stp.head = none) (hn : s.core.stp.everOpened = false ∨ x.f 16 4 = (s.core.step + 1) % 2 ^ 32)
    (hr : s.core.openReady (x.f 16 4) = true) :
    exec .stepOpenEffect s = .next (finish s.dev (s.core.openStep d x).applyHeld.checkVote.settle s.pending) := by
  have follows : ¬(s.core.stp.everOpened = true ∧ x.f 16 4 ≠ (s.core.step + 1) % 2 ^ 32) := by
    rintro ⟨he, hne⟩
    rcases hn with h | h
    · rw [h] at he; cases he
    · exact hne h
  refine (?_ : execStepOpenEffect s = _)
  unfold execStepOpenEffect
  rw [lift_awake _ _ ha, ho]
  dsimp only
  rw [hx]
  dsimp only
  rw [if_neg (by simp [hw, hh]), if_neg follows, if_pos hr]

/-- The end of an open counts it, ends the descriptor's work and gives its signal. -/
theorem Core.openEnds {c e : Core} {d : Nat} {x : Desc} (hx : c.desc? d = some x) (he : e.links = c.links) :
    let c' := ((e.bump 0x7880 1 1).workDone d).signalNow d
    (x.issued = true → c'.isDone d) ∧
      (x.signalled = false → x.ns = false → c'.tally x.sigTally = (c.tally x.sigTally + x.inc) % 2 ^ 32) ∧
      c'.step = e.step ∧ c'.stp = e.stp ∧ c'.mem = e.mem := by
  have hx' : e.desc? d = some x := by rw [Core.desc?, he]; exact hx
  have tallies (t : Nat) : e.tally t = c.tally t := by rw [Core.tally, he]; rfl
  obtain ⟨same, done, tally⟩ := Core.workDone_signalNow (c := e.bump 0x7880 1 1) (x := x) (d := d) hx'
  rw [← tallies]
  exact ⟨done, tally, same.step, same.stp, same.mem⟩

/-- What an open gives the head step, and what it leaves alone, where nothing stored is in error. -/
theorem Core.openStep_opens {c : Core} {d : Nat} {x : Desc} (hc : c.clean) (hx : c.desc? d = some x) :
    let c' := c.openStep d x
    (x.issued = true → c'.isDone d) ∧
      (x.signalled = false → x.ns = false → c'.tally x.sigTally = (c.tally x.sigTally + x.inc) % 2 ^ 32) ∧
      ∃ h : StepSlot, c'.step = x.f 16 4 ∧ c'.stp.isOpen = true ∧ c'.stp.head = some h ∧ h.step = x.f 16 4 ∧
        h.st = 1 ∧ h.base = x.f 20 4 ∧ h.n = x.f 24 2 ∧ h.members = c.membersAt (x.f 16 4) ∧ h.tOpen = c.now ∧
        c'.stp.tail = c.stp.tail ∧ c'.mem = c.mem := by
  obtain ⟨hlinks, hstp, hmem, hnow⟩ := c.advanceTrackers_clean hc c.step
  obtain ⟨e, ends, links, opens⟩ : ∃ e : Core, c.openStep d x = ((e.bump 0x7880 1 1).workDone d).signalNow d ∧
      e.links = c.links ∧ ∃ h : StepSlot, e.step = x.f 16 4 ∧ e.stp.isOpen = true ∧ e.stp.head = some h ∧
        h.step = x.f 16 4 ∧ h.st = 1 ∧ h.base = x.f 20 4 ∧ h.n = x.f 24 2 ∧ h.members = c.membersAt (x.f 16 4) ∧
        h.tOpen = c.now ∧ e.stp.tail = c.stp.tail ∧ e.mem = c.mem := by
    unfold Core.openStep
    generalize c.advanceTrackers c.step = b at hlinks hstp hmem hnow
    have tail : b.stp.tail = c.stp.tail := by rw [hstp]
    exact ⟨_, rfl, hlinks, _, rfl, rfl, rfl, rfl, rfl, rfl, rfl, rfl, hnow, tail, hmem⟩
  obtain ⟨done, tally, step, stp, mem⟩ := Core.openEnds hx links
  rw [ends]
  dsimp only
  rw [step, stp, mem]
  exact ⟨done, tally, opens⟩

/-! ### Microbatches -/

/-- A store changes memory, the pools that it breaks, and counters. -/
theorem Core.store_same (c : Core) (a : Nat) (bs : List Byte) :
    c.store a bs = { c with
      mem := (c.store a bs).mem, attn := (c.store a bs).attn, incs := (c.store a bs).incs
      dict := { c.dict with objs := (c.store a bs).dict.objs } } := by
  unfold Core.store
  dsimp only
  rw [Core.buffered_enterRange]
  dsimp only [Core.clearPoison, Core.breakPools]
  split <;> rfl

@[simp] theorem Core.store_stp (c : Core) (a : Nat) (bs : List Byte) : (c.store a bs).stp = c.stp := by
  rw [c.store_same]

/-- A microbatch descriptor of the command's op that passes its checks. -/
theorem mbIssue_runs {s : State} {d op : Nat} {x : Desc} {body : Desc → Core → Core} (ha : s.awake)
    (h : s.issues d x 0x71) (hchk : firstBad (s.core.mbChecks x) = none) (hop : x.f 18 1 = op)
    (haux : s.core.auxBad (x.f 24 8) 8 = none) :
    let c1 := (s.core.setDesc d { x with issued := true }).noteIssue []
    (body x c1).faultReq = none →
      lift (fun dev c => c.mbIssue dev d op body) s = .next (s.withCore ((body x c1).owe c1 (.desc d))) := by
  obtain ⟨hx, hi, hh⟩ := h
  intro c1 hq
  refine lift_quiet ha ?_ (by rw [Core.owe_faultReq]; exact hq)
  unfold Core.mbIssue
  rw [hx]
  dsimp only
  rw [if_pos (.inl hop), Core.issue_ok _ _ _ _ _ _ x hx hi hh, Core.checked_ok]
  · split
    · next e he => exact absurd (he.symm.trans haux) (by simp)
    · rfl
  · exact hchk

/-- The mode is written where the descriptor names a place, and its work is done (R245). -/
def Core.modeGiven (c : Core) (d a mode : Nat) : Core :=
  (if a = 0 then c else c.put a (toLE 8 mode)).workDone d

theorem Core.modeGiven_done {c : Core} {d : Nat} {x : Desc} (hinj : c.inj = []) (hx : c.desc? d = some x)
    (hi : x.issued = true) (a mode : Nat) :
    (c.modeGiven d a mode).isDone d ∧ (c.modeGiven d a mode).stp = c.stp ∧
      (c.modeGiven d a mode).faultReq = c.faultReq ∧
      (c.modeGiven d a mode).mem.mem = if a = 0 then c.mem.mem else Mem.write c.mem.mem a (toLE 8 mode) := by
  unfold Core.modeGiven
  split
  · have same := c.signals_workDone d
    rw [same.stp, same.faultReq, same.mem]
    exact ⟨Core.workDone_isDone hx hi, rfl, rfl, rfl⟩
  · rw [Core.put_none _ hinj]
    have same := (c.store a (toLE 8 mode)).signals_workDone d
    rw [same.stp, same.faultReq, same.mem, Core.store_stp, Core.store_faultReq, Core.store_mem]
    refine ⟨Core.workDone_isDone (x := x) ?_ hi, rfl, rfl, rfl⟩
    rw [Core.desc?, Core.store_links]
    exact hx

/-- What an event of class COUNT leaves alone, where no event is escalated. -/
theorem Core.raise_plain {c c' : Core} {v : Ev} (h : c' = c.raise v) (hp : c.plainEvents) (hv : v.own = 0) :
    c'.links = c.links ∧ c'.mem = c.mem ∧ c'.inj = c.inj ∧ c'.stp = c.stp ∧
      (c.faultReq = none → c'.faultReq = none) := by
  obtain ⟨hcls, e⟩ := Core.raise_count hp hv
  rw [h, e]
  exact ⟨c.note_links v, c.note_mem v, c.note_inj v, c.note_stp v, fun hq => c.note_quiet v hq (by rw [hcls]; decide)⟩

/-- What opening BOUNDARY does, where no event is escalated: the microbatch, the latch, the head's record, and the
event of a first one (R245). -/
theorem Core.openBoundary_opens {c c' : Core} {d m : Nat} (hc' : c' = c.openBoundary d m) (hp : c.plainEvents) :
    c'.links = c.links ∧ c'.mem = c.mem ∧ c'.inj = c.inj ∧ (c.faultReq = none → c'.faultReq = none) ∧
      KMap.get? c'.stp.pal.mbs m = some { full := false, base := 0, closed := false } ∧
      c'.stp.pal.tail = c.stp.pal.tail := by
  unfold Core.openBoundary at hc'
  dsimp only at hc'
  split at hc'
  · obtain ⟨links, mem, inj, stp, quiet⟩ := Core.raise_plain hc'
      (fun code => (Core.escClass_bump _ (.inl (by decide)) _ _).trans (hp code)) rfl
    rw [links, mem, inj, stp]
    exact ⟨rfl, rfl, rfl, quiet, KMap.get?_set_self _ _ _, rfl⟩
  · subst hc'
    exact ⟨rfl, rfl, rfl, id, KMap.get?_set_self _ _ _, rfl⟩

/-- A FULL open takes the ring claim (R245). -/
theorem Core.openFull_opens (c : Core) (m b : Nat) :
    let c' := c.openFull m b
    c'.links = c.links ∧ c'.mem = c.mem ∧ c'.inj = c.inj ∧ c'.faultReq = c.faultReq ∧
      KMap.get? c'.stp.pal.mbs m = some { full := true, base := b, closed := false } ∧
      c'.stp.pal.tail = b + c.stp.pal.i :=
  ⟨rfl, rfl, rfl, rfl, KMap.get?_set_self _ _ _, rfl⟩

/-- A microbatch closes, and a FULL one gives up its claim (R245). -/
def Core.closeMb (c : Core) (m : Nat) (mb : Mb) : Core :=
  ({ c with stp := { c.stp with
      pal := { c.stp.pal with mbs := KMap.set c.stp.pal.mbs m { mb with closed := true } }
      claims := if mb.full && c.stp.pal.i != 0 then c.stp.claims ++ [(mb.base, mb.base + c.stp.pal.i)]
        else c.stp.claims } }).modHead fun (s : StepSlot) => { s with tLastClose := c.now }

/-- A microbatch opens, or closes, and its descriptor writes the mode and is done: the command that does so, from what
the step unit makes of it. -/
theorem mb_runs {s : State} {d op mode : Nat} {x : Desc} {body : Desc → Core → Core} {e : Core} {i : Instr}
    (ha : s.awake) (hinj : s.core.inj = []) (h : s.issues d x 0x71)
    (hchk : firstBad (s.core.mbChecks x) = none) (hop : x.f 18 1 = op) (haux : s.core.auxBad (x.f 24 8) 8 = none)
    (he : exec i s = lift (fun dev c => c.mbIssue dev d op body) s)
    (hbody : body x ((s.core.setDesc d { x with issued := true }).noteIssue []) = e.modeGiven d (x.f 24 8) mode)
    (links : e.links = (s.core.setDesc d { x with issued := true }).links) (mem : e.mem = s.core.mem)
    (inj : e.inj = s.core.inj) (quiet : e.faultReq = none) :
    ∃ c : Core, exec i s = .next (s.withCore c) ∧ c.isDone d ∧ c.stp = e.stp ∧
      c.mem.mem = if x.f 24 8 = 0 then s.core.mem.mem else Mem.write s.core.mem.mem (x.f 24 8) (toLE 8 mode) := by
  have desc : e.desc? d = some { x with issued := true } := by
    rw [Core.desc?, links]
    exact Core.setDesc_desc?_self _ _ _
  obtain ⟨done, stp, fault, written⟩ := Core.modeGiven_done (inj.trans hinj) desc rfl (x.f 24 8) mode
  refine ⟨_, he.trans (mbIssue_runs ha h hchk hop haux ?_), ?_, ?_, ?_⟩
  · rw [hbody, fault, quiet]
  · rw [hbody]
    unfold Core.isDone Core.desc?
    rw [Core.owe_links]
    exact done
  · rw [hbody, Core.owe_stp, stp]
  · rw [hbody, Core.owe_mem_mem, written, mem]

/-- Settles O35: an open takes effect by one change of the core that ends with its descriptor's signal
(`Core.openStep_opens`); a microbatch changes the pallet alone, and its descriptor then writes the mode (`mb_runs`). -/
theorem stepAndMicrobatchOpens : Obligations.StepAndMicrobatchOpens := by
  unfold Obligations.StepAndMicrobatchOpens
  intro s d x hs ha hc hp hx c1 m a
  obtain ⟨hinj, -, -, -⟩ := id hc
  refine ⟨stepOpen_waits hs ha, fun rest ho hw hh hn hr => ?_, fun h hchk hop haux => ⟨fun b hb => ?_, fun hb => ?_⟩,
    fun h hchk hop haux mb hmb => ?_⟩
  · exact ⟨stepOpenEffect_runs ha hx ho hw hh hn hr, Core.openStep_opens hc hx⟩
  · obtain ⟨links, mem, inj, fault, mbs, tail⟩ := c1.openFull_opens m b
    have claim : c1.ringClaim = some b := hb
    obtain ⟨c, hexec, done, stp, written⟩ := mb_runs (i := .microbatchOpen d) (mode := 1) (e := c1.openFull m b)
      ha hinj h hchk hop haux rfl (by dsimp only; rw [claim]; rfl) links mem inj (fault.trans hs)
    rw [← stp] at mbs tail
    exact ⟨c, hexec, done, mbs, tail, written⟩
  · have claim : c1.ringClaim = none := hb
    obtain ⟨links, mem, inj, quiet, mbs, tail⟩ := Core.openBoundary_opens (c := c1) (d := d) (m := m) rfl hp
    obtain ⟨c, hexec, done, stp, written⟩ := mb_runs (i := .microbatchOpen d) (mode := 2) (e := c1.openBoundary d m)
      ha hinj h hchk hop haux rfl (by dsimp only; rw [claim]; rfl) links mem inj (quiet hs)
    rw [← stp] at mbs tail
    exact ⟨c, hexec, done, mbs, tail, written⟩
  · obtain ⟨c, hexec, done, stp, written⟩ := mb_runs (i := .microbatchClose d) (mode := mb.mode) (e := c1.closeMb m mb)
      ha hinj h hchk hop haux rfl (by
        have open_ : KMap.get? c1.stp.pal.mbs (x.f 16 2) = some mb := hmb
        dsimp only; rw [open_]; rfl) rfl rfl rfl hs
    exact ⟨c, hexec, done, by rw [stp]; exact KMap.get?_set_self _ _ _, written⟩

end Sys2Proof.Machine
end

section
/-! SUPPORT. What a member's FP leads to leaves traces too (R294, R295): a close, and the record it writes (R264). -/

namespace Sys2Proof.Machine

theorem Core.tracks_putArea (c : Core) (a : Nat) (bs : List Byte) : c.Tracks (c.putArea a bs) :=
  .ite (.refl c) (c.tracks_put a bs)

theorem Core.tracks_closeStep (c : Core) : c.Tracks c.closeStep := by
  unfold Core.closeStep
  split
  · exact .refl c
  · dsimp only
    have area (b : Core) (p : Prop) [Decidable p] (a : Nat) (bs : List Byte) :
        b.Tracks (if p then b else b.putArea a bs) := .ite (.refl b) (b.tracks_putArea a bs)
    exact .after (Core.tracks_bump _ _ _ _) (.trans (.after (area _ _ _ _) (area c _ _ _)) (.of_mem rfl rfl))

theorem Core.tracks_exclude (c : Core) (ex : List Nat) : c.Tracks (c.exclude ex) := by
  unfold Core.exclude
  have tests := Core.tracks_foldl _ fun c (a : HodAcc) => c.tracks_testHod a.hod
  refine .ite (.after (Core.tracks_leadDecide _) ?_) ?_
  all_goals exact .after (tests _ _) (.of_mem rfl rfl)

theorem Core.tracks_takeClose (c : Core) (step agreed : Nat) (ex : List Nat) (split : Bool) :
    c.Tracks (c.takeClose step agreed ex split) := by
  unfold Core.takeClose
  split
  · exact .refl c
  · refine .ite (.refl c) (.ite (.after (Core.tracks_raise _ _ rfl) (.of_mem rfl rfl)) ?_)
    dsimp only
    generalize hb : Core.exclude _ ex = b
    have left : c.Tracks b := by
      rw [← hb]
      exact .after (Core.tracks_exclude _ ex) (.of_mem rfl rfl)
    refine .trans left (.ite ?_ ?_)
    · exact .after (Core.tracks_raise _ _ rfl) (Core.tracks_bump _ _ _ _)
    · exact .after (Core.tracks_applyHeld _) (.trans (Core.tracks_closeStep _) (.of_mem rfl rfl))

theorem Core.tracks_grantNext (c : Core) (step version : Nat) : c.Tracks (c.grantNext step version) := by
  unfold Core.grantNext
  split
  · exact .refl c
  · exact .ite (.refl c) (.after (Core.tracks_sendCmds _ _ _) (.of_mem rfl rfl))

theorem Core.tracks_leadClose (c : Core) (l : Closing) : c.Tracks (c.leadClose l) := by
  unfold Core.leadClose
  dsimp only
  generalize hb : Core.takeClose _ _ _ _ _ = b
  have closed : c.Tracks b := by
    rw [← hb]
    exact .after (Core.tracks_takeClose _ _ _ _ _) (.after (Core.tracks_sendCmds _ _ _) (.of_mem rfl rfl))
  exact .trans closed (.ite (.refl b) (b.tracks_grantNext _ _))

theorem Core.tracks_leadFp (c : Core) (step member summary torn : Nat) :
    c.Tracks (c.leadFp step member summary torn) := by
  unfold Core.leadFp
  split
  · exact .refl c
  · exact .ite (.refl c) (.ite (.after (Core.tracks_leadClose _ _) (.of_mem rfl rfl)) (.of_mem rfl rfl))

theorem Core.tracks_sendFp (c : Core) : c.Tracks c.sendFp := by
  unfold Core.sendFp
  split
  · exact .refl c
  refine .ite (.refl c) ?_
  have read : c.Tracks c.readJournal.2 := c.tracks_xRead _ _
  split
  · next heq => exact read.of_snd heq
  · next b heq =>
    refine .trans (read.of_snd heq) ?_
    dsimp only
    split
    · exact .of_mem rfl rfl
    · exact .ite (.after (Core.tracks_leadFp _ _ _ _ _) (.of_mem rfl rfl))
        (.after (Core.tracks_sendCmd _ _ _) (.of_mem rfl rfl))

end Sys2Proof.Machine
end

section
/-! SUPPORT. The state that refutes O37: a PUBLISH whose FP closes the step at once, with the step records in a
partition whose quota is 0 (R260, R264, R295, R316). -/

namespace Sys2Proof.Machine

/-! ### A PUBLISH that closes its step -/

/-- A PUBLISH for step 0. -/
def publishDesc : Desc where
  queue := 0
  head := 0
  bytes := List.replicate 15 0 ++ [0x73] ++ List.replicate 4 0 ++ [1] ++ List.replicate 107 0

/-- Where P7 begins, and with it the step records. -/
def recordBase : Nat := 2 ^ 32

/-- Step 0 is committed by this member alone, which leads it and awaits its close, and bank 1 is granted to it. P7's
quota of write-combining entries is 0, which R322 allows. -/
def publishState : State where
  dev := .run
  pending := []
  core :=
    { step := 0
      dict := { objs := [(okey 0x7310 1, recordBase), (okey 0x7310 2, 1),
        (okey 0x9107 1, recordBase), (okey 0x9107 2, 2 ^ 21), (okey 0x9107 7, 0)] }
      pins := { modRstN := true }
      links := { descs := [(0, publishDesc)] }
      stp := { everOpened := true, tail := some { step := 0, st := 3, n := 1, members := [0], commitSet := [0] }
               banks := [(0, { state := 1 }), (1, { state := 4, byStep := true })] }
      xch := { next := [0], lead := { closing := [{ step := 0, c := [0], listeners := [] }] } } }

theorem publishState_issues : publishState.issues 0 publishDesc 0x73 := by decide +kernel

/-- The state its PUBLISH leaves. -/
def publishEnd : State := match exec (.publish 0) publishState with
  | .next t => t
  | _ => publishState

theorem publishEnd_dev : publishEnd.dev = .run := by decide +kernel

/-- The record says that the step is closed: state 5 in its byte 12 (Table 8.6). -/
theorem publishEnd_record : Mem.get publishEnd.core.mem.mem (recordBase + 12) = 5 := by decide +kernel

/-- The record's write waits for an entry, and waits in the descriptor's name (R361). -/
theorem publishEnd_traceless : publishEnd.core.Traceless where
  free := by decide +kernel
  wcb := by decide +kernel
  wbs := by decide +kernel
  owed := by decide +kernel

/-- Refutes O37: its clause for a PUBLISH asks for a core with the memory from before, which sending FP and handing
over what waits (`Core.sendFp`, `Core.settle`) take to the end. The model does both within the descriptor's work, so
where FP closes the step, the record's write that waits for an entry waits in the descriptor's name (R361). Neither
leaves such a wait: what they write waits in no descriptor's name (`Core.tracks_sendFp`, `Core.tracks_settle`). So
where the quota is 0 no such core leads to the end of this PUBLISH. -/
theorem not_banksAndExports : ¬ Obligations.BanksAndExports := by
  unfold Obligations.BanksAndExports
  rintro ⟨banks, -⟩
  obtain ⟨-, publish, -⟩ := banks publishState 0 1 publishDesc (by decide +kernel) (by decide +kernel)
  obtain ⟨c, hexec, -, -, -, -, -, -, -, hmem⟩ := publish 0 publishState_issues (by decide +kernel) (by decide +kernel)
    (by decide +kernel) (by decide +kernel)
  have ends : publishEnd = finish .run c.sendFp.settle [] := by
    unfold publishEnd
    rw [hexec]
    rfl
  have core : publishEnd.core = c.sendFp.settle := by
    rw [ends]
    exact finish_core _ _ _ (ends ▸ publishEnd_dev) rfl
  obtain ⟨-, same⟩ := c.tracks_sendFp.trans c.sendFp.tracks_settle (core ▸ publishEnd_traceless)
  have record := same (recordBase + 12) (by decide)
  rw [hmem, ← core, publishEnd_record] at record
  exact absurd record (by decide)

end Sys2Proof.Machine
end

section
/-! SUPPORT. Accesses to memory, whatever is stored in error: what they may change beside it, and what they keep of the
exchange (R318, R324 to R327, R333, R447). -/

namespace Sys2Proof.Machine

/-! ### What accesses change -/

/-- The exchange's objects (0x8000 to 0x88FF) keep their values. -/
def Core.SameExch (c c' : Core) : Prop :=
  ∀ j u, 0x800000 ≤ okey j u → okey j u < 0x890000 → c'.obj j u = c.obj j u

theorem Core.SameExch.refl (c : Core) : c.SameExch c := fun _ _ _ _ => rfl

theorem Core.SameExch.trans {a b c : Core} (h : a.SameExch b) (k : b.SameExch c) : a.SameExch c :=
  fun j u lo hi => (k j u lo hi).trans (h j u lo hi)

theorem Core.sameExch_bump (c : Core) (i u n : Nat) (hk : okey i u < 0x800000 ∨ 0x890000 ≤ okey i u) :
    c.SameExch (c.bump i u n) :=
  fun _ _ lo hi => Core.obj_bump_ne c n (by omega)

/-- What reads, writes and sums of memory may change: memory and the pools they break, the log, a FAULT_STOP asked for,
injection slots, counters and the free values drawn. -/
structure Core.Accesses (c c' : Core) : Prop where
  same : c' = { c with
    free := c'.free, incs := c'.incs, faultReq := c'.faultReq, log := c'.log, inj := c'.inj
    dict := { c.dict with objs := c'.dict.objs }, mem := c'.mem, attn := c'.attn }
  exch : c.SameExch c'
  fault : c.faultReq.isSome → c'.faultReq.isSome

theorem Core.Accesses.refl (c : Core) : c.Accesses c := ⟨rfl, .refl c, id⟩

theorem Core.Accesses.trans {a b c : Core} (h : a.Accesses b) (k : b.Accesses c) : a.Accesses c where
  same := by rw [k.same, h.same]
  exch := h.exch.trans k.exch
  fault hf := k.fault (h.fault hf)

/-- `trans`, the last access first. -/
theorem Core.Accesses.after {a b c : Core} (k : b.Accesses c) (h : a.Accesses b) : a.Accesses c := h.trans k

theorem Core.Accesses.ite {c a b : Core} {p : Prop} [Decidable p] (ha : c.Accesses a) (hb : c.Accesses b) :
    c.Accesses (if p then a else b) := by
  split
  · exact ha
  · exact hb

theorem Core.Accesses.of_snd {α : Type} {c c' : Core} {x : α} {p : α × Core} (h : c.Accesses p.2) (e : p = (x, c')) :
    c.Accesses c' := by
  rw [e] at h
  exact h

section
variable {c c' : Core} (h : c.Accesses c')
include h

theorem Core.Accesses.now : c'.now = c.now := by rw [h.same]
theorem Core.Accesses.step : c'.step = c.step := by rw [h.same]
theorem Core.Accesses.stp : c'.stp = c.stp := by rw [h.same]
theorem Core.Accesses.xch : c'.xch = c.xch := by rw [h.same]
theorem Core.Accesses.links : c'.links = c.links := by rw [h.same]
theorem Core.Accesses.roll : c'.roll = c.roll := by rw [h.same]

end

/-- A change of memory, of the pools, of injection slots, and free values drawn. -/
theorem Core.accesses_of {c c' : Core}
    (same : c' = { c with free := c'.free, inj := c'.inj, mem := c'.mem, attn := c'.attn }) : c.Accesses c' where
  same := by rw [same]
  exch _ _ _ _ := by rw [same]; rfl
  fault hf := by rw [same]; exact hf

theorem Core.accesses_foldl {α : Type} (f : Core → α → Core) (h : ∀ (c : Core) (x : α), c.Accesses (f c x)) (l : List α)
    (c : Core) : c.Accesses (l.foldl f c) := by
  induction l generalizing c with
  | nil => exact .refl c
  | cons x l ih => exact .trans (h c x) (ih _)

theorem Core.accesses_bump (c : Core) (i u n : Nat) (hk : okey i u < 0x800000 ∨ 0x890000 ≤ okey i u) :
    c.Accesses (c.bump i u n) where
  same := by
    by_cases hn : n = 0
    · rw [hn, Core.bump_zero]
    · rw [Core.bump_eq c i u n hn]; rfl
  exch := c.sameExch_bump i u n hk
  fault := id

/-! ### Logging and injection -/

theorem Core.accesses_countEvent (c : Core) (e : EventRec) : c.Accesses (c.countEvent e) := by
  unfold Core.countEvent
  refine .after (Core.accesses_bump _ _ _ _ (.inr (by unfold okey; omega))) ?_
  exact .after (Core.accesses_bump _ _ _ _ (.inr (by unfold okey; omega))) ⟨rfl, .refl _, id⟩

theorem Core.accesses_noteAt (c : Core) (die : Nat) (v : Ev) : c.Accesses (c.noteAt die v) := by
  have queued : c.Accesses (c.enqueueAt die (c.evRecord v)) := by
    unfold Core.enqueueAt
    dsimp only
    split
    · exact ⟨rfl, .refl _, id⟩
    · refine .after (Core.accesses_bump _ _ _ _ (.inr (by decide))) (.after (Core.accesses_countEvent _ _) ?_)
      exact ⟨rfl, .refl _, id⟩
  unfold Core.noteAt
  dsimp only
  split
  · exact queued.trans ⟨rfl, .refl _, fun _ => rfl⟩
  · exact queued

/-- An event that belongs to no descriptor. -/
theorem Core.accesses_raise (c : Core) (v : Ev) (h : v.d = none) : c.Accesses (c.raise v) := by
  rw [Core.raise_free c v h]
  exact c.accesses_noteAt _ v

theorem Core.accesses_inject (c : Core) (det inst addr : Nat) : c.Accesses (c.inject det inst addr).2 := by
  unfold Core.inject Core.injectIf
  dsimp only
  split
  · exact .refl c
  · exact .after (Core.accesses_bump _ _ _ _ (.inr (by decide))) (Core.accesses_of rfl)

theorem Core.accesses_injectEach (c : Core) (det : Nat) (us : List Nat) (inst : Nat → Nat)
    (hit : Core → Nat → Nat → Core) (h : ∀ (c : Core) (u p : Nat), c.Accesses (hit c u p)) :
    c.Accesses (c.injectEach det us inst hit) := by
  unfold Core.injectEach
  refine .ite (Core.accesses_foldl _ (fun c u => ?_) _ _) (.refl c)
  have asked := c.accesses_inject det (inst u) u
  split
  · next heq => exact .trans (asked.of_snd heq) (h _ _ _)
  · next heq => exact asked.of_snd heq

theorem Core.accesses_transferFails (c : Core) (u p : Nat) : c.Accesses (c.transferFails u p) := by
  have down (c : Core) (v : Nat) : c.Accesses (c.setObj 0x9002 0 v) :=
    ⟨rfl, fun j u lo hi => Core.obj_setObj_ne c v (by unfold okey at *; omega), id⟩
  have failed := c.accesses_bump 0x9880 5 (p % 32) (.inr (by decide))
  exact .ite failed (.after (Core.accesses_raise _ _ rfl) (failed.trans (down _ _)))

theorem Core.accesses_transfers (c : Core) (a n : Nat) : c.Accesses (c.transfers a n) :=
  .ite (c.accesses_injectEach _ _ _ _ Core.accesses_transferFails) (.refl c)

/-! ### Writes -/

theorem Core.accesses_bufferFlips (c : Core) (u p : Nat) : c.Accesses (c.bufferFlips u p) :=
  .ite (c.accesses_bump _ _ _ (.inr (by decide))) (.after (Core.accesses_raise _ _ rfl) (Core.accesses_of rfl))

theorem Core.accesses_injectStore (c : Core) (a n : Nat) : c.Accesses (c.injectStore a n) := by
  unfold Core.injectStore
  refine .ite (.after (Core.accesses_transfers _ a n) (.after (Core.accesses_injectEach _ _ _ _ _ ?_) ?_)) ?_
  · exact Core.accesses_bufferFlips
  · exact c.accesses_injectEach _ _ _ _ fun _ _ _ => Core.accesses_of rfl
  · exact c.accesses_injectEach _ _ _ _ fun _ _ _ => Core.accesses_of rfl

/-- A unit's counters are none of the exchange's objects. -/
theorem Core.KeepsObjs.exch {c c' : Core} (h : c.KeepsObjs c') : c.SameExch c' := by
  intro j u lo hi
  have other : ∀ k ∈ unitCounters, k < 0x8000 ∨ 0x8900 ≤ k := by decide
  exact h.obj fun hm => by have := other _ hm; omega

theorem Core.Buffered.accesses {c c' : Core} (h : c.Buffered c') (k : c.KeepsObjs c') : c.Accesses c' where
  same := by rw [h]
  exch := k.exch
  fault hf := by rw [h]; exact hf

theorem Core.accesses_enterRange (c : Core) (sums : Bool) (a n : Nat) : c.Accesses (c.enterRange sums a n) :=
  (c.buffered_enterRange sums a n).accesses (c.keepsObjs_enterRange sums a n)

theorem Core.accesses_store (c : Core) (a : Nat) (bs : List Byte) : c.Accesses (c.store a bs) where
  same := by rw [c.store_same]
  exch := (c.keepsObjs_store a bs).exch
  fault hf := by rw [c.store_faultReq]; exact hf

theorem Core.accesses_put (c : Core) (a : Nat) (bs : List Byte) : c.Accesses (c.put a bs) :=
  .trans (c.accesses_store a bs) (Core.accesses_injectStore _ _ _)

/-! ### Reads -/

theorem Core.accesses_rowCorrected (c : Core) (a : Nat) : c.Accesses (c.rowCorrected a) := by
  unfold Core.rowCorrected
  dsimp only
  exact .ite (.after (Core.accesses_raise _ _ rfl) (Core.accesses_of rfl)) (Core.accesses_of rfl)

theorem Core.accesses_sectorCorrected (c : Core) (u : Nat) : c.Accesses (c.sectorCorrected u) :=
  .after (Core.accesses_rowCorrected _ u) (.after (Core.accesses_bump _ _ _ _ (.inr (by decide)))
    (c.accesses_enterRange _ _ _))

theorem Core.accesses_sectorLost (c : Core) (u syms : Nat) (inj : Bool) : c.Accesses (c.sectorLost u syms inj) :=
  .after (Core.accesses_raise _ _ rfl) (.after (Core.accesses_bump _ _ _ _ (.inr (by decide)))
    (.after (Core.accesses_enterRange _ _ _ _) (Core.accesses_of rfl)))

theorem Core.accesses_drawBytes (c : Core) (n : Nat) : c.Accesses (c.drawBytes n).2 := Core.accesses_of rfl

theorem Core.accesses_readSymbols (c : Core) (u syms : Nat) (inj : Bool) : c.Accesses (c.readSymbols u syms inj) := by
  unfold Core.readSymbols
  refine .ite (c.accesses_sectorCorrected u) (.ite (c.accesses_sectorLost u syms inj) ?_)
  have drawn : c.Accesses (c.draw 3).2 := Core.accesses_of rfl
  generalize c.draw 3 = p at drawn ⊢
  obtain ⟨o, b⟩ := p
  refine .trans drawn (.ite (b.accesses_sectorLost u syms inj) ?_)
  have written := b.accesses_drawBytes 64
  generalize b.drawBytes 64 = q at written ⊢
  dsimp only
  have taken (m : MemSys) : q.2.Accesses { q.2 with mem := m } := Core.accesses_of rfl
  exact .trans written (.ite (.after (Core.accesses_sectorCorrected _ u) (taken _)) (taken _))

theorem Core.accesses_readSector (c : Core) (u syms : Nat) : c.Accesses (c.readSector u syms) :=
  .after (Core.accesses_readSymbols _ _ _ _) (Core.accesses_of rfl)

theorem Core.accesses_wordCorrected (c : Core) (u : Nat) : c.Accesses (c.wordCorrected u) := by
  unfold Core.wordCorrected
  dsimp only
  have counted := c.accesses_bump 0x9880 6 1 (.inr (by decide))
  refine .ite (.trans counted ?_) (.ite (.trans counted ?_) counted)
  all_goals exact Core.accesses_bump _ _ _ _ (.inl (by decide))

theorem Core.accesses_readWord (c : Core) (u flips : Nat) : c.Accesses (c.readWord u flips) :=
  .ite (.after (Core.accesses_wordCorrected _ u) (Core.accesses_of rfl))
    (.after (Core.accesses_raise _ _ rfl) (.after (Core.accesses_bump _ _ _ _ (.inr (by decide)))
      (Core.accesses_of rfl)))

theorem Core.accesses_touch (c : Core) (a n : Nat) : c.Accesses (c.touch a n) := by
  refine .after (Core.accesses_foldl _ (fun c (p : Nat × Nat) => c.accesses_readWord p.1 p.2) _ _) ?_
  refine .after (Core.accesses_foldl _ (fun c (p : Nat × Nat) => c.accesses_readSector p.1 p.2) _ _) ?_
  refine .trans (.trans (c.accesses_transfers a n) (Core.accesses_bump _ 0x9880 8 (c.merges a n) (.inr (by decide)))) ?_
  exact Core.accesses_of rfl

theorem Core.accesses_addPiece (c : Core) (a : Nat) (vs : List Num) : c.Accesses (c.addPiece a vs) := by
  have broken (c : Core) (n : Nat) : c.Accesses (c.breakPools a n) := .ite (Core.accesses_of rfl) (.refl c)
  have granule (c : Core) (g lo hi : Nat) : c.Accesses (c.addGranule g lo hi) := by
    refine .after ((Core.buffered_enterGranule _ _ _ _ _).accesses (Core.keepsObjs_enterGranule _ _ _ _ _)) ?_
    refine .ite (.refl c) ?_
    refine .after (Core.accesses_foldl _ (fun c (p : Nat × Nat) => c.accesses_readSector p.1 p.2) _ _) ?_
    exact Core.accesses_of rfl
  refine .ite (.refl c) (.after (Core.accesses_injectStore _ _ _) ?_)
  refine .after (Core.accesses_bump _ _ _ _ (.inr (by decide))) (.after (broken _ _) ?_)
  exact .trans (Core.accesses_foldl _ (fun c i => granule c _ _ _) _ c) (Core.accesses_of rfl)

theorem Core.accesses_xRead (c : Core) (a n : Nat) : c.Accesses (c.xRead a n).2 := by
  unfold Core.xRead
  dsimp only
  split
  · exact .refl c
  split
  · dsimp only
    exact .trans (c.accesses_touch a n) (Core.accesses_raise _ _ rfl)
  · exact c.accesses_touch a n

theorem Core.accesses_readImages (c : Core) (step : Nat) : c.Accesses (c.readImages step).2 := by
  have each (l : List Nat) (ok : Bool) (c : Core) : c.Accesses (l.foldl (fun (p : Bool × Core) h =>
      if p.2.heldFor h step then (p.1 && (p.2.xRead (p.2.imgAddr h) 128).1, (p.2.xRead (p.2.imgAddr h) 128).2) else p)
      (ok, c)).2 := by
    induction l generalizing ok c with
    | nil => exact .refl c
    | cons h l ih =>
      rw [List.foldl_cons]
      split
      · exact .trans (c.accesses_xRead _ _) (ih _ _)
      · exact ih ok c
  exact each _ true c

end Sys2Proof.Machine
end

section
/-! SUPPORT. Messages handed to the links, and their answers: what they keep of the step and of the exchange (R347,
R349, R364). -/

namespace Sys2Proof.Machine

/-! ### What handing over a message changes -/

/-- What answering a message and handing one over may change, with the tallies, the exchange's objects, the escalation
classes and the messages already sent kept. -/
structure Core.Posts (c c' : Core) : Prop where
  same : c' = { c with
    free := c'.free, incs := c'.incs, dict := { c.dict with objs := c'.dict.objs }, links := c'.links
    xch := { c.xch with
      answer := c'.xch.answer, answers := c'.xch.answers, sent := c'.xch.sent, waits0 := c'.xch.waits0 } }
  tallies : c'.links.tallies = c.links.tallies
  exch : c.SameExch c'
  esc (code : Nat) : c'.escClass code = c.escClass code
  sent {m : Nat} {x : XCmd} : c.sentTo m x → c'.sentTo m x

theorem Core.Posts.refl (c : Core) : c.Posts c := ⟨rfl, rfl, .refl c, fun _ => rfl, id⟩

theorem Core.Posts.trans {a b c : Core} (h : a.Posts b) (k : b.Posts c) : a.Posts c where
  same := by rw [k.same, h.same]
  tallies := k.tallies.trans h.tallies
  exch := h.exch.trans k.exch
  esc code := (k.esc code).trans (h.esc code)
  sent hs := k.sent (h.sent hs)

/-- `trans`, the last message first. -/
theorem Core.Posts.after {a b c : Core} (k : b.Posts c) (h : a.Posts b) : a.Posts c := h.trans k

section
variable {c c' : Core} (h : c.Posts c')
include h

theorem Core.Posts.mem : c'.mem = c.mem := by rw [h.same]
theorem Core.Posts.stp : c'.stp = c.stp := by rw [h.same]
theorem Core.Posts.now : c'.now = c.now := by rw [h.same]
theorem Core.Posts.step : c'.step = c.step := by rw [h.same]
theorem Core.Posts.seen : c'.xch.seen = c.xch.seen := by rw [h.same]
theorem Core.Posts.abandoned : c'.xch.abandoned = c.xch.abandoned := by rw [h.same]
theorem Core.Posts.heldCommit : c'.xch.heldCommit = c.xch.heldCommit := by rw [h.same]
theorem Core.Posts.next : c'.xch.next = c.xch.next := by rw [h.same]
theorem Core.Posts.membersAt (step : Nat) : c'.membersAt step = c.membersAt step := by rw [h.same]; rfl
theorem Core.Posts.tally (t : Nat) : c'.tally t = c.tally t := by unfold Core.tally; rw [h.tallies]
theorem Core.Posts.me : c'.me = c.me := h.exch _ _ (by decide) (by decide)

end

/-- A message's place in the links, its answer, or free values drawn. -/
theorem Core.posts_of {c c' : Core} (same : c' = { c with
      free := c'.free, links := c'.links
      xch := { c.xch with answer := c'.xch.answer, answers := c'.xch.answers } })
    (tallies : c'.links.tallies = c.links.tallies) : c.Posts c' where
  same := by rw [same]
  tallies := tallies
  exch _ _ _ _ := by rw [same]; rfl
  esc _ := by rw [same]; rfl
  sent hs := by rw [same]; exact hs

/-- What waits is kept, and what was sent. -/
theorem Core.posts_sent {c c' : Core} {s w : List (Nat × XCmd)}
    (e : c' = { c with xch := { c.xch with sent := s, waits0 := w } })
    (hs : ∀ p ∈ c.xch.sent, p ∈ s) (hw : ∀ p ∈ c.xch.waits0, p ∈ w) : c.Posts c' := by
  subst e
  refine ⟨rfl, rfl, .refl c, fun _ => rfl, ?_⟩
  rintro m x (h | h)
  · exact .inl (hs _ h)
  · exact .inr (hw _ h)

/-- A port's counter of waits lies beyond the exchange's objects. -/
theorem Core.posts_waited (c : Core) {f : Nat} (hf : f < 6) (n : Nat) : c.Posts (c.bump (0x8900 + f) 9 n) where
  same := by
    by_cases hn : n = 0
    · rw [hn, Core.bump_zero]
    · rw [Core.bump_eq c _ _ n hn]; rfl
  tallies := by rw [Core.bump_links]
  exch := c.sameExch_bump _ _ n (.inr (by unfold okey; omega))
  esc := Core.escClass_bump c (.inl (by unfold okey; omega)) n
  sent := id

theorem Core.posts_handPort (c : Core) {f : Nat} (hf : f < 6) (x : Flit) : c.Posts (c.handPort f x false) := by
  have place (c : Core) (p : Port) : c.Posts (c.setPort f p) := Core.posts_of rfl rfl
  unfold Core.handPort
  dsimp only
  split
  · exact .after (Core.posts_waited _ hf _) ((place _ _).trans (place _ _))
  · exact place _ _

theorem Core.route_via {c : Core} {m f : Nat} (h : c.route m = .via f) : f < 6 := by
  have usable {x : Nat} (h : (if x = 6 then Route.self else if x < 6 ∧ (c.port x).state = 3 then .via x else .none) =
      .via f) : f < 6 := by
    split at h
    · cases h
    · split at h
      · next hx => cases h; exact hx.1
      · cases h
  unfold Core.route at h
  dsimp only at h
  split at h
  · exact usable h
  · exact usable h

theorem Core.posts_send {c c' : Core} {x : Flit} (h : c.send x = some c') : c.Posts c' := by
  unfold Core.send at h
  split at h
  · next hr => cases h; exact c.posts_handPort (Core.route_via hr) x
  · cases h

theorem Core.posts_sendOrDrop (c : Core) (x : Flit) : c.Posts (c.sendOrDrop [x]) := by
  unfold Core.sendOrDrop Core.sendAll Core.sendAll
  cases h : c.send x with
  | none => exact .refl c
  | some c' => exact Core.posts_send h

/-! ### Answers (R347) -/

theorem Core.posts_pushAnswer (c : Core) (member cls tag code : Nat) : c.Posts (c.pushAnswer member cls tag code) := by
  unfold Core.pushAnswer
  dsimp only
  split
  · exact Core.posts_of rfl rfl
  split
  · exact Core.posts_of rfl rfl
  · exact .after (Core.posts_sendOrDrop _ _) (Core.posts_of rfl rfl)

theorem Core.posts_answerX (c : Core) (member code : Nat) (bytes : Option (List Byte)) :
    c.Posts (c.answerX member code bytes) := by
  unfold Core.answerX
  dsimp only
  split
  · exact Core.posts_of rfl rfl
  · exact .after (Core.posts_pushAnswer _ _ _ _ _) (Core.posts_of rfl rfl)

/-! ### Messages of class 0 (R349, R364) -/

theorem Core.posts_handCmd (c : Core) (tgt : Nat) (m : XCmd) : c.Posts (c.handCmd tgt m) := by
  unfold Core.handCmd
  split
  · exact Core.posts_sent rfl (fun _ h => h) (fun _ h => List.mem_append_left _ h)
  · next t _ =>
    have drawn : c.Posts (c.drawBytes 240).2 := Core.posts_of rfl rfl
    generalize c.drawBytes 240 = q at drawn ⊢
    refine .trans drawn ?_
    dsimp only
    have noted : q.2.Posts { q.2 with xch := { q.2.xch with sent := (tgt, m) :: q.2.xch.sent } } :=
      Core.posts_sent rfl (fun _ h => List.mem_cons_of_mem _ h) (fun _ h => h)
    split
    · next heq => exact .trans (noted.trans (Core.posts_send heq)) (Core.posts_of rfl rfl)
    · exact noted

/-- It is sent, or waits for a tag. -/
theorem Core.handCmd_sentTo (c : Core) (tgt : Nat) (m : XCmd) : (c.handCmd tgt m).sentTo tgt m := by
  unfold Core.handCmd
  split
  · exact .inr (List.mem_append_right _ (List.mem_singleton_self _))
  · generalize c.drawBytes 240 = q
    dsimp only
    have noted : ({ q.2 with xch := { q.2.xch with sent := (tgt, m) :: q.2.xch.sent } } : Core).sentTo tgt m :=
      .inl List.mem_cons_self
    split
    · next heq => exact (Core.posts_send heq).sent noted
    · exact noted

theorem Core.posts_sendCmd (c : Core) (tgt : Nat) (m : XCmd) : c.Posts (c.sendCmd tgt m) := by
  unfold Core.sendCmd
  split
  · exact .refl c
  · exact c.posts_handCmd tgt m

theorem Core.posts_sendCmds (c : Core) (tos : List Nat) (m : XCmd) : c.Posts (c.sendCmds tos m) := by
  unfold Core.sendCmds
  induction tos generalizing c with
  | nil => exact .refl c
  | cons t ts ih => exact (c.posts_sendCmd t m).trans (ih _)

/-- A message to several members is sent to each of them but this one. -/
theorem Core.sendCmds_sentTo (c : Core) {tos : List Nat} (x : XCmd) {m : Nat} (hm : m ∈ tos) (hne : m ≠ c.me) :
    (c.sendCmds tos x).sentTo m x := by
  induction tos generalizing c with
  | nil => cases hm
  | cons t ts ih =>
    have first := c.posts_sendCmd t x
    rcases List.mem_cons.mp hm with rfl | hm
    · refine ((c.sendCmd m x).posts_sendCmds ts x).sent ?_
      unfold Core.sendCmd
      rw [if_neg hne]
      exact c.handCmd_sentTo m x
    · exact ih (c.sendCmd t x) hm (by rw [first.me]; exact hne)

end Sys2Proof.Machine
end

section
/-! SUPPORT. A member's head step is committed or aborted (R240, R275, R291, R292), and O43. -/

namespace Sys2Proof.Machine

/-! ### The commit of the head step (R240) -/

/-- The request of a bank keeps the links, the exchange, and of the tail step all but its count of forced contexts. -/
theorem Core.requestBank_keeps (c : Core) :
    let t := c.requestBank
    t.links = c.links ∧ t.xch = c.xch ∧ c.SameExch t ∧ t.stp.head = c.stp.head ∧
      ∀ u, c.stp.tail = some u → ∃ n, t.stp.tail = some { u with forced := n } := by
  have forced (b : Core) (k : Nat) : let t := b.forceFollow k
      t.links = b.links ∧ t.xch = b.xch ∧ b.SameExch t ∧ t.stp.head = b.stp.head ∧
        ∀ u, b.stp.tail = some u → ∃ n, t.stp.tail = some { u with forced := n } := by
    obtain ⟨t, ht⟩ : ∃ t, t = b.forceFollow k := ⟨_, rfl⟩
    rw [← ht]
    unfold Core.forceFollow at ht
    dsimp only at ht
    generalize hf : Core.bump _ 0x6890 0xE _ = f at ht
    have logged : f.Accesses t := ht ▸ f.accesses_raise _ rfl
    dsimp only
    rw [logged.links, logged.xch, logged.stp]
    subst hf
    refine ⟨rfl, rfl, .trans (fun j u lo hi => ?_) logged.exch, rfl, fun u hu => ⟨_, congrArg (Option.map _) hu⟩⟩
    exact Core.sameExch_bump _ _ _ _ (.inl (by decide)) j u lo hi
  obtain ⟨t, ht⟩ : ∃ t, t = c.requestBank := ⟨_, rfl⟩
  rw [← ht]
  unfold Core.requestBank Core.startHold at ht
  dsimp only at ht
  split at ht
  · subst ht
    exact ⟨rfl, rfl, fun _ _ _ _ => rfl, rfl, fun u hu => ⟨u.forced, hu⟩⟩
  split at ht
  · subst ht
    exact forced _ _
  · subst ht
    exact ⟨rfl, rfl, fun _ _ _ _ => rfl, rfl, fun u hu => ⟨u.forced, hu⟩⟩

/-- The head step as it stands committed, with G given (the record of `Core.commitStep`). -/
def Core.committedSlot (c : Core) (s : StepSlot) (cset : List Nat) (g : Num) : StepSlot :=
  { s with
    st := 2, commitSet := cset, dropped := cset != s.members, deadlines := c.imgDeadlines s.step
    escalated := c.imgEscalated s.step, wide := c.fwd.wideStep, widened := c.layersWidened 2, gsum := f64Code g
    nonfinite := g.nonFinite, kappa := if g.nonFinite then 0 else clipFactor (f32 s.clip) g, tCommit := c.now
    saturated := c.inc 0x3008 6 }

/-- It moves to the tail. -/
def Core.committed (c : Core) (u : StepSlot) : Core :=
  { c with
    stp := { c.stp with isOpen := false, pal := {}, claims := [], head := none, tail := some u }
    xch := { c.xch with fpSent := false } }

/-- A commit gives the tally its increment, reads the images, moves the step to the tail, and requests a bank. -/
theorem Core.commitStep_eq {c : Core} {s : StepSlot} (hs : c.stp.head = some s) (cset : List Nat) :
    ∃ (b : Core) (g : Num), (c.addTally s.tally 1).Accesses b ∧ c.commitStep cset =
      (if g.nonFinite then (b.committed (b.committedSlot s cset g)).raise { code := 0x7011, source := stepSrc }
        else b.committed (b.committedSlot s cset g)).requestBank := by
  unfold Core.commitStep
  rw [hs]
  dsimp only
  have read := (c.addTally s.tally 1).accesses_readImages s.step
  generalize (c.addTally s.tally 1).readImages s.step = p at read ⊢
  obtain ⟨whole, b⟩ := p
  dsimp only at read ⊢
  have drawn : b.Accesses (if whole = true then (0, b) else b.draw (2 ^ 64)).2 := by
    split
    · exact .refl b
    · exact Core.accesses_of rfl
  generalize (if whole = true then (0, b) else b.draw (2 ^ 64)) = q at drawn ⊢
  obtain ⟨v, b'⟩ := q
  exact ⟨b', _, read.trans drawn, rfl⟩

/-- What the commit of the head step does: to the step slots, to the step's tally, and to nothing of the exchange but
that its FP is not sent. -/
theorem Core.commitStep_commits {c : Core} {s : StepSlot} (hs : c.stp.head = some s) (cset : List Nat) :
    ∃ u : StepSlot, (c.commitStep cset).stp.head = none ∧ (c.commitStep cset).stp.tail = some u ∧ u.step = s.step ∧
      u.st = 2 ∧ u.commitSet = cset ∧ (u.dropped = true ↔ cset ≠ s.members) ∧ u.tCommit = c.now ∧
      (c.commitStep cset).tally s.tally = (c.tally s.tally + 1) % 2 ^ 32 ∧
      (c.commitStep cset).xch = { c.xch with fpSent := false } ∧ c.SameExch (c.commitStep cset) := by
  obtain ⟨b, g, read, commits⟩ := Core.commitStep_eq hs cset
  generalize hu : b.committedSlot s cset g = u at commits
  have logged : (b.committed u).Accesses (if g.nonFinite then
      (b.committed u).raise { code := 0x7011, source := stepSrc } else b.committed u) :=
    .ite (Core.accesses_raise _ _ rfl) (.refl _)
  rw [commits]
  generalize (if g.nonFinite then (b.committed u).raise _ else b.committed u) = e at logged ⊢
  obtain ⟨links, xch, exch, head, tail⟩ := e.requestBank_keeps
  obtain ⟨n, tail⟩ := tail u (by rw [logged.stp]; rfl)
  have added : c.SameExch (c.addTally s.tally 1) := Core.sameExch_bump _ _ _ _ (.inr (by decide))
  refine ⟨_, head.trans (by rw [logged.stp]; rfl), tail, ?_, ?_, ?_, ?_, ?_, ?_, ?_, ?_⟩
  · rw [← hu]; rfl
  · rw [← hu]; rfl
  · rw [← hu]; rfl
  · rw [← hu]; exact bne_iff_ne
  · rw [← hu]; exact read.now
  · rw [← Core.addTally_tally]
    unfold Core.tally
    rw [links, logged.links, ← read.links]
    rfl
  · rw [xch, logged.xch]
    unfold Core.committed
    rw [read.xch]
    rfl
  · exact ((added.trans read.exch).trans (fun _ _ _ _ => rfl)).trans (logged.exch.trans exch)

/-! ### COMMIT at a member (R291) -/

theorem older_self (a : Nat) : older a a = false := by
  unfold older
  rw [Nat.add_sub_cancel_left]
  rfl

/-- A COMMIT that names no listener and admits nobody. -/
def plainCommit (step : Nat) (cset : List Nat) (as_ : Nat) : Commit :=
  { step := step, c := cset, listeners := [], admitted := [], admitStep := as_ }

theorem Core.membersFor_head {c : Core} {s : StepSlot} {step : Nat} (hs : c.stp.head = some s) (hstep : s.step = step) :
    c.membersFor step = s.members := by
  unfold Core.membersFor
  rw [hs]
  exact if_pos hstep

section
variable {c : Core} {s : StepSlot} {step as_ : Nat} {cset : List Nat} (hs : c.stp.head = some s)
  (hstep : s.step = step) (hseen : step ∉ c.xch.seen) (habandoned : step ∉ c.xch.abandoned) (hme : c.me ∈ s.members)
  (hcur : c.step = step)
include hs hstep hseen habandoned hme hcur

/-- A COMMIT of the head step that leaves this member out asks for FAULT_STOP. -/
theorem Core.takeCommit_outside (hout : c.me ∉ cset) :
    c.takeCommit (plainCommit step cset as_) false =
      ({ c with xch := { c.xch with seen := step :: c.xch.seen } } : Core).raise (xEv 0x8031 3 0 c.me 0) := by
  unfold Core.takeCommit plainCommit
  dsimp only
  rw [Core.membersFor_head hs hstep, hcur, older_self]
  simp [hseen, habandoned, hme, hout]

/-- One that names it is forwarded, noted, and applied where the tail is free. -/
theorem Core.takeCommit_inside (hin : c.me ∈ cset) (htail : c.stp.tail = none) :
    let k := plainCommit step cset as_
    let b := c.sendCmds s.members (.commit step cset [] [] as_)
    let n := (b.noteCommit k (minus b.xch.next (minus s.members cset))).bump 0x8880 0xF 1
    c.takeCommit k false = ({ n with xch := { n.xch with heldCommit := none } } : Core).commitStep cset := by
  intro k b n
  have sent : c.Posts b := c.posts_sendCmds _ _
  have applies : ({ n with xch := { n.xch with heldCommit := some k } } : Core).applyHeld =
      ({ n with xch := { n.xch with heldCommit := none } } : Core).commitStep cset := by
    unfold Core.applyHeld
    have head : n.stp.head = some s := (congrArg StepU.head sent.stp).trans hs
    have tail : n.stp.tail = none := (congrArg StepU.tail sent.stp).trans htail
    dsimp only
    rw [head]
    dsimp only
    rw [if_pos ⟨hstep, by rw [tail]; rfl⟩]
    rfl
  rw [← applies]
  unfold Core.takeCommit
  dsimp only
  rw [show k.step = step from rfl, Core.membersFor_head hs hstep, hcur, older_self,
    if_neg (by simpa using hseen), if_neg (by simp [k, plainCommit]), if_neg (by simpa using habandoned),
    if_neg (by simpa using hme), if_neg (by simpa [k, plainCommit] using hin)]
  rfl

/-- What a COMMIT does at a member of C. -/
theorem Core.takeCommit_commits (hin : c.me ∈ cset) (htail : c.stp.tail = none) :
    let t := c.takeCommit (plainCommit step cset as_) false
    ∃ u : StepSlot, (∀ m ∈ s.members, m ≠ c.me → t.sentTo m (.commit step cset [] [] as_)) ∧
      t.stp.head = none ∧ t.stp.tail = some u ∧ u.step = step ∧ u.st = 2 ∧ u.commitSet = cset ∧
      (u.dropped = true ↔ cset ≠ s.members) ∧ u.tCommit = c.now ∧
      t.tally s.tally = (c.tally s.tally + 1) % 2 ^ 32 ∧ t.xch.next = minus c.xch.next (minus s.members cset) ∧
      t.obj 0x8880 0xF = min (c.obj 0x8880 0xF + 1) (objMax 0x8880 0xF) := by
  have same := Core.takeCommit_inside (as_ := as_) hs hstep hseen habandoned hme hcur hin htail
  dsimp only at same ⊢
  rw [same]
  have sent := c.posts_sendCmds s.members (.commit step cset [] [] as_)
  have each := fun m => c.sendCmds_sentTo (tos := s.members) (m := m) (.commit step cset [] [] as_)
  generalize c.sendCmds s.members (.commit step cset [] [] as_) = b at sent each ⊢
  generalize hn : Core.bump _ 0x8880 0xF 1 = n
  have head : n.stp.head = some s := by rw [← hn]; exact (congrArg StepU.head sent.stp).trans hs
  obtain ⟨u, head', tail, ustep, st, set, dropped, tCommit, tally, xch, exch⟩ :=
    Core.commitStep_commits (c := { n with xch := { n.xch with heldCommit := none } }) head cset
  refine ⟨u, fun m hm hne => ?_, head', tail, ustep.trans hstep, st, set, dropped, ?_, ?_, ?_, ?_⟩
  · unfold Core.sentTo
    rw [xch, ← hn]
    exact each m hm hne
  · rw [tCommit, ← hn]; exact sent.now
  · rw [tally, ← hn, ← sent.tally]; rfl
  · rw [xch, ← hn, ← sent.next]; rfl
  · rw [exch _ _ (by decide) (by decide)]
    refine (congrArg (fun e : Core => e.obj 0x8880 0xF) hn.symm).trans ?_
    rw [Core.obj_bump_self _ _ _ _ (by decide)]
    exact congrArg (fun v => min (v + 1) (objMax 0x8880 0xF)) (sent.exch 0x8880 0xF (by decide) (by decide))

end

/-! ### ABANDON (R275, R292) -/

theorem Core.logged_raise (c : Core) (v : Ev) (h : v.d = none) : c.Logged (c.raise v) := by
  rw [Core.raise_free c v h]
  exact c.logged_note v

/-- The head step is aborted, and logged so. -/
theorem Core.abandonHead_aborts {c : Core} {s : StepSlot} {step : Nat} (hs : c.stp.head = some s)
    (hstep : s.step = step) (hheld : c.xch.heldCommit = none) (timeout : Bool) :
    let e := ({ c.abortHead with xch := { c.abortHead.xch with
      abandoned := step :: c.xch.abandoned } } : Core).bump 0x8880 0x10 1
    e.Logged (c.abandonHead step timeout) ∧ e.SameExch (c.abandonHead step timeout) := by
  intro e
  have first := e.logged_raise (xEv 0x8030 0 0 c.me 0) rfl
  have first' := (e.accesses_raise (xEv 0x8030 0 0 c.me 0) rfl).exch
  have me : e.me = c.me := Core.obj_bump_ne _ 1 (by decide)
  have aborts : c.abandonHead step timeout = if timeout then (e.raise (xEv 0x8030 0 0 c.me 0)).raise
      (xEv 0x8032 0 0 (e.raise (xEv 0x8030 0 0 c.me 0)).me 0) else e.raise (xEv 0x8030 0 0 c.me 0) := by
    unfold Core.abandonHead
    rw [hs]
    dsimp only
    rw [if_pos ⟨hstep, by rw [hheld]; rfl⟩]
    rfl
  rw [aborts]
  split
  · exact ⟨first.trans (Core.logged_raise _ _ rfl), first'.trans (Core.accesses_raise _ _ rfl).exch⟩
  · exact ⟨first, first'⟩

/-- Members that an ABANDON names silent are not in the step after. -/
theorem Core.mem_membersAt_named {c t : Core} {step : Nat} {silent : List Nat} (next : t.xch.next = c.xch.next)
    (admits : t.xch.admits = c.xch.admits)
    (named : t.xch.silent = if silent.isEmpty then c.xch.silent else (step, silent) :: c.xch.silent) (m : Nat) :
    m ∈ t.membersAt ((step + 1) % 2 ^ 32) ↔ m ∈ c.membersAt ((step + 1) % 2 ^ 32) ∧ m ∉ silent := by
  have silentAt : t.silentAt ((step + 1) % 2 ^ 32) = silent ++ c.silentAt ((step + 1) % 2 ^ 32) := by
    unfold Core.silentAt
    rw [named]
    cases silent with
    | nil => rfl
    | cons x xs => simp
  unfold Core.membersAt
  rw [silentAt, next, admits]
  simp only [minus, List.mem_filter, List.contains_eq_mem, Bool.not_eq_true', decide_eq_false_iff_not, List.mem_append]
  tauto

/-- The head step is aborted, and the members named silent are left out of the step after it. -/
theorem Core.takeAbandon_aborts {c : Core} {s : StepSlot} {step : Nat} (hs : c.stp.head = some s)
    (hstep : s.step = step) (hheld : c.xch.heldCommit = none) (silent : List Nat) (timeout : Bool) :
    let t := c.takeAbandon step silent timeout
    t.stp.head = none ∧ t.stp.isOpen = false ∧ t.stp.tail = c.stp.tail ∧ t.xch.slots = [] ∧
      step ∈ t.xch.abandoned ∧ t.mem = c.mem ∧
      (∀ m, m ∈ t.membersAt ((step + 1) % 2 ^ 32) ↔ m ∈ c.membersAt ((step + 1) % 2 ^ 32) ∧ m ∉ silent) ∧
      t.links.tallies = c.links.tallies ∧ t.obj 0x8880 0x10 = min (c.obj 0x8880 0x10 + 1) (objMax 0x8880 0x10) := by
  obtain ⟨logged, exch⟩ := Core.abandonHead_aborts hs hstep hheld timeout
  generalize he : Core.bump _ 0x8880 0x10 1 = e at logged exch
  have counted : e.obj 0x8880 0x10 = min (c.obj 0x8880 0x10 + 1) (objMax 0x8880 0x10) := by
    rw [← he]
    exact Core.obj_bump_self _ _ _ _ (by decide)
  have same : c.takeAbandon step silent timeout = { c.abandonHead step timeout with
      xch := { (c.abandonHead step timeout).xch with
        silent := if silent.isEmpty then c.xch.silent else (step, silent) :: c.xch.silent } } := by
    unfold Core.takeAbandon Core.takeSilent
    rw [logged, ← he]
    split <;> rfl
  obtain ⟨xs, hxs⟩ : ∃ xs, xs = if silent.isEmpty then c.xch.silent else (step, silent) :: c.xch.silent := ⟨_, rfl⟩
  dsimp only
  rw [← hxs] at same
  rw [same]
  have next : (c.abandonHead step timeout).xch = e.xch := by rw [logged]
  refine ⟨?_, ?_, ?_, ?_, ?_, ?_, Core.mem_membersAt_named ?_ ?_ hxs, ?_, ?_⟩
  · rw [logged, ← he]; rfl
  · rw [logged, ← he]; rfl
  · rw [logged, ← he]; rfl
  · rw [logged, ← he]; rfl
  · rw [logged, ← he]; exact List.mem_cons_self
  · rw [logged, ← he]; rfl
  · rw [logged, ← he]; rfl
  · rw [logged, ← he]; rfl
  · rw [logged, ← he]; rfl
  · exact (exch 0x8880 0x10 (by decide) (by decide)).trans counted

/-- Where it is the head step already that comes after, they leave it now. -/
theorem Core.takeAbandon_before {c : Core} {s : StepSlot} {k : Nat} (hs : c.stp.head = some s)
    (hstep : s.step = (k + 1) % 2 ^ 32) (hne : k ≠ s.step) (silent : List Nat) :
    let t := c.takeAbandon k silent false
    t.stp.head = some { s with members := minus s.members silent } ∧ t.mem = c.mem := by
  have kept : c.abandonHead k false = c := by
    unfold Core.abandonHead
    rw [hs]
    exact if_neg fun h => hne h.1.symm
  unfold Core.takeAbandon Core.takeSilent
  rw [kept]
  dsimp only
  obtain ⟨b, hb⟩ : ∃ b, b = if silent.isEmpty then c else
    { c with xch := { c.xch with silent := (k, silent) :: c.xch.silent } } := ⟨_, rfl⟩
  have named : b.stp.head = some s ∧ b.mem = c.mem := by
    rw [hb]
    split <;> exact ⟨hs, rfl⟩
  obtain ⟨head, mem⟩ := named
  rw [← hb, head]
  dsimp only
  rw [if_pos hstep]
  exact ⟨congrArg (Option.map _) head, mem⟩

/-! ### The commands -/

/-- A class-0 message is taken where the exchange works. -/
theorem Core.inCmd_serves (c : Core) {dev : Dev} (h : exServes dev = true) (from_ : Nat) (f : Core → Core) :
    c.inCmd dev from_ f = (f (c.answerX from_ 0 none)).settle := by
  unfold Core.inCmd
  rw [if_neg (by rintro (rfl | rfl) <;> exact absurd h (by decide)), if_pos h]

end Sys2Proof.Machine
end

section
/-! SUPPORT. A FAULT_STOP asked for stays asked for until the end of the command (R451): what the exchange does on the
way there keeps it. -/

namespace Sys2Proof.Machine

/-- A FAULT_STOP is asked for. -/
def Core.Faulty (c : Core) : Prop := c.faultReq.isSome = true

theorem Core.Faulty.ite {a b : Core} {p : Prop} [Decidable p] (ha : a.Faulty) (hb : b.Faulty) :
    (if p then a else b).Faulty := by
  split
  · exact ha
  · exact hb

theorem Core.Faulty.of_snd {α : Type} {c : Core} {x : α} {p : α × Core} (h : p.2.Faulty) (e : p = (x, c)) :
    c.Faulty := by
  rw [e] at h
  exact h

theorem Core.Faulty.foldl {α : Type} {f : Core → α → Core} {l : List α} {c : Core}
    (h : ∀ (c : Core) (x : α), c.Faulty → (f c x).Faulty) (hc : c.Faulty) : (l.foldl f c).Faulty := by
  induction l generalizing c with
  | nil => exact hc
  | cons x l ih => exact ih (h c x hc)

/-- One that asks for it is logged at class FAULT_STOP. -/
theorem Core.raise_faulty {c : Core} {v : Ev} (hd : v.d = none) (hv : c.evClass v = 3) : (c.raise v).Faulty := by
  rw [Core.raise_free c v hd]
  unfold Core.note Core.noteAt Core.Faulty
  dsimp only
  split
  · rfl
  · next h =>
    have asked : ¬ (c.enqueueAt (srcDie v.source) (c.evRecord v)).faultReq.isNone = true := fun hn => h ⟨hv, hn⟩
    exact Option.isSome_iff_ne_none.mpr fun e => asked (by rw [e]; rfl)

/-! ### Accesses, counters and the log -/

theorem Core.Faulty.raise {c : Core} {v : Ev} (h : c.Faulty) (hd : v.d = none) :
    (c.raise v).Faulty := (c.accesses_raise v hd).fault h

theorem Core.Faulty.raiseOnceStep {c : Core} {v : Ev} (h : c.Faulty) (hd : v.d = none) :
    (c.raiseOnceStep v).Faulty :=
  .ite h (Core.Faulty.raise h hd)

theorem Core.Faulty.put {c : Core} {a : Nat} {bs : List Byte} (h : c.Faulty) :
    (c.put a bs).Faulty := (c.accesses_put a bs).fault h

theorem Core.Faulty.addPiece {c : Core} {a : Nat} {vs : List Num} (h : c.Faulty) :
    (c.addPiece a vs).Faulty := (c.accesses_addPiece a vs).fault h

theorem Core.Faulty.xRead {c : Core} {a n : Nat} (h : c.Faulty) :
    (c.xRead a n).2.Faulty := (c.accesses_xRead a n).fault h

theorem Core.Faulty.countConv {c : Core} {t : Tally5} (h : c.Faulty) : (c.countConv t).Faulty := by
  unfold Core.Faulty
  rw [(c.counted_countConv t).same]
  exact h

theorem Core.Faulty.sysRead {c : Core} {r : Nat × Nat} (h : c.Faulty) : (c.sysRead r).Faulty := by
  unfold Core.sysRead
  split
  · exact h
  · exact h.raise rfl

theorem Core.Faulty.xch {c : Core} {x : Xch} (h : c.Faulty) : ({ c with xch := x } : Core).Faulty := h

theorem Core.Faulty.bump {c : Core} {i u n : Nat} (h : c.Faulty) : (c.bump i u n).Faulty := h

theorem Core.Faulty.setSlot {c : Core} {a : HodAcc} (h : c.Faulty) : (c.setSlot a).Faulty := h

theorem Core.Faulty.countBlks {c : Core} {bs : List (Nat × Bool × List Num)} (h : c.Faulty) :
    (c.countBlks bs).Faulty := h

theorem Core.Faulty.smear {c : Core} {a n : Nat} (h : c.Faulty) : (c.smear a n).Faulty := h

/-! ### Messages -/

theorem Core.Posts.faulty {c c' : Core} (k : c.Posts c') (h : c.Faulty) : c'.Faulty := by
  unfold Core.Faulty
  rw [k.same]
  exact h

theorem Core.Faulty.sendCmd {c : Core} {tgt : Nat} {m : XCmd} (h : c.Faulty) :
    (c.sendCmd tgt m).Faulty := (c.posts_sendCmd tgt m).faulty h

theorem Core.Faulty.sendCmds {c : Core} {tos : List Nat} {m : XCmd} (h : c.Faulty) :
    (c.sendCmds tos m).Faulty := (c.posts_sendCmds tos m).faulty h

theorem Core.Faulty.queueOut {c : Core} {die tgt : Nat} {m : XMsg} {d : Option Nat} (h : c.Faulty) :
    (c.queueOut die tgt m d).Faulty := .ite h h

theorem Core.Faulty.queueImage {c : Core} {tgt k step : Nat} {img : List Byte} (h : c.Faulty) :
    (c.queueImage tgt k step img).Faulty :=
  .foldl (fun _ _ hc => hc.queueOut) h

/-! ### Commit, abort and votes (R240, R289 to R292) -/

theorem Core.Faulty.requestBank {c : Core} (h : c.Faulty) : c.requestBank.Faulty := by
  unfold Core.requestBank Core.startHold
  exact .ite h (.ite (Core.Faulty.raise h rfl) h)

theorem Core.Faulty.commitStep {c : Core} {cset : List Nat} (h : c.Faulty) : (c.commitStep cset).Faulty := by
  cases hs : c.stp.head with
  | none =>
    unfold Core.commitStep
    rw [hs]
    exact h
  | some s =>
    obtain ⟨b, g, read, commits⟩ := Core.commitStep_eq hs cset
    have kept : b.Faulty := read.fault h
    rw [commits]
    exact Core.Faulty.requestBank (.ite (Core.Faulty.raise kept rfl) kept)

theorem Core.Faulty.applyHeld {c : Core} (h : c.Faulty) : c.applyHeld.Faulty := by
  unfold Core.applyHeld
  split
  · exact .ite (Core.Faulty.commitStep h) h
  · exact h

theorem Core.Faulty.takeCommit {c : Core} {k : Commit} {own : Bool} (h : c.Faulty) : (c.takeCommit k own).Faulty := by
  have logged (v : Ev) (hd : v.d = none) (x : Xch) : (({ c with xch := x } : Core).raise v).Faulty :=
    Core.Faulty.raise h hd
  unfold Core.takeCommit
  refine .ite h (.ite (Core.Faulty.applyHeld h) (.ite (logged _ rfl _) ?_))
  refine .ite h (.ite (logged _ rfl _) (Core.Faulty.applyHeld ?_))
  exact .xch (.bump (.xch (.ite h h.sendCmds)))

theorem Core.Faulty.takeAbandon {c : Core} {step : Nat} {silent : List Nat} {timeout : Bool} (h : c.Faulty) :
    (c.takeAbandon step silent timeout).Faulty := by
  have head : (c.abandonHead step timeout).Faulty := by
    unfold Core.abandonHead
    split
    · exact h
    · have aborted (e : Core) (he : e.Faulty) : (e.raise (xEv 0x8030 0 0 c.me 0)).Faulty := he.raise rfl
      exact .ite (.ite (Core.Faulty.raise (aborted _ h) rfl) (aborted _ h)) h
  unfold Core.takeAbandon Core.takeSilent
  have named : (if silent.isEmpty then c.abandonHead step timeout else { c.abandonHead step timeout with
      xch := { (c.abandonHead step timeout).xch with
        silent := (step, silent) :: (c.abandonHead step timeout).xch.silent } }).Faulty := .ite head head
  dsimp only
  split
  · exact named
  · exact .ite named named

theorem Core.Faulty.leadDecide {c : Core} (h : c.Faulty) : c.leadDecide.Faulty := by
  unfold Core.leadDecide
  refine .ite (.ite h ?_) ?_
  · exact Core.Faulty.takeCommit (Core.Faulty.sendCmds h)
  · exact Core.Faulty.takeAbandon (Core.Faulty.sendCmds h)

theorem Core.Faulty.leadVote {c : Core} {step member : Nat} {novote : Bool} {hodCrc memberCrc : Nat} (h : c.Faulty) :
    (c.leadVote step member novote hodCrc memberCrc).Faulty := by
  unfold Core.leadVote
  dsimp only
  refine .ite h (.ite (Core.Faulty.leadDecide ?_) ?_)
  all_goals exact Core.Faulty.ite (h.raise rfl) h

theorem Core.Faulty.castVote {c : Core} {yes : Bool} (h : c.Faulty) : (c.castVote yes).Faulty := by
  unfold Core.castVote
  split
  · exact h
  split
  · exact h
  exact .ite h (.ite (Core.Faulty.leadVote h)
    (Core.Faulty.sendCmd h))

theorem Core.Faulty.checkVote {c : Core} (h : c.Faulty) : c.checkVote.Faulty := by
  unfold Core.checkVote
  have read : c.readJournal.2.Faulty := h.xRead
  split
  · exact h
  split
  · next heq => exact read.of_snd heq
  · next heq => exact .ite (Core.Faulty.castVote (read.of_snd heq)) (read.of_snd heq)

/-! ### Images (R283) -/

theorem Core.Faulty.imageHeld {c : Core} {k step : Nat} {b : List Byte} (h : c.Faulty) :
    (c.imageHeld k step b).Faulty := by
  unfold Core.imageHeld
  dsimp only
  have held : ((c.setJ k step 1).bump 0x8880 0xD 1).Faulty := h.put
  refine .ite (Core.Faulty.checkVote ?_) ?_
  all_goals exact Core.Faulty.ite held.put held

theorem Core.Faulty.imageWhole {c : Core} {k step sender : Nat} (h : c.Faulty) :
    (c.imageWhole k step sender).Faulty := by
  unfold Core.imageWhole
  dsimp only
  have read : (c.xRead (c.imgAddr k) (c.hod k).imgBytes).2.Faulty := h.xRead
  generalize c.xRead (c.imgAddr k) (c.hod k).imgBytes = p at read ⊢
  obtain ⟨ok, b⟩ := p
  dsimp only at read ⊢
  refine .ite read.imageHeld ?_
  generalize hf : Core.sendCmd _ sender _ = f
  have failed : f.Faulty := by
    rw [← hf]
    exact Core.Faulty.sendCmd read
  exact .ite (.ite (.castVote (failed.raise rfl)) (failed.raise rfl)) failed

theorem Core.Faulty.imageIn {c : Core} {m : XMsg} (h : c.Faulty) : (c.imageIn m).2.Faulty := by
  unfold Core.imageIn
  dsimp only
  have read : (c.xRead (c.jAddr m.hod) 16).2.Faulty := h.xRead
  generalize c.xRead (c.jAddr m.hod) 16 = p at read ⊢
  obtain ⟨ok, b⟩ := p
  dsimp only at read ⊢
  split
  · exact read
  split
  · exact read
  split
  · exact read
  have begun : (b.setJ m.hod m.step 0).Faulty := read.put
  refine .ite (Core.Faulty.imageWhole ?_) ?_
  all_goals exact .xch (.ite (.ite begun.xch read) (.put (.ite begun.xch read)))

/-! ### Slots and closing (R279 to R281) -/

theorem Core.Faulty.openSlot {c : Core} {k : Nat} (h : c.Faulty) : (c.openSlot k).Faulty := by
  unfold Core.openSlot
  exact .xch (.smear h.put)

theorem Core.Faulty.addBlk {c : Core} {base : Nat} {x : HodRow} {i : Nat} {vs : List Num} (h : c.Faulty) :
    (c.addBlk base x i vs).Faulty := by
  unfold Core.addBlk
  refine .ite h (.ite (h.raise rfl) ?_)
  split
  · next heq => exact h.xRead.of_snd heq
  · next b heq =>
    have read : b.Faulty := h.xRead.of_snd heq
    exact Core.Faulty.put (.ite read.put read.addPiece)

theorem Core.Faulty.addBlks {c : Core} {base : Nat} {x : HodRow} {first : Nat} {bs : List (List Num)} (h : c.Faulty) :
    (c.addBlks base x first bs).Faulty :=
  .foldl (fun _ _ hc => hc.addBlk) h

theorem Core.Faulty.closeReads {c : Core} {k : Nat} (h : c.Faulty) : (c.closeReads k).2.Faulty := by
  unfold Core.closeReads
  have row : (c.readHod k).2.Faulty := h.xRead
  split
  · next heq => exact row.of_snd heq
  · next b heq =>
    have row : b.Faulty := row.of_snd heq
    have slot : (match b.slot? k with
        | some a => b.xRead (b.slotBase a) (b.hod k).stateOff
        | none => (true, b)).2.Faulty := by
      split
      · exact row.xRead
      · exact row
    dsimp only
    split
    · next heq => exact slot.of_snd heq
    · next heq =>
      split
      · exact Core.Faulty.xRead (slot.of_snd heq)
      · exact slot.of_snd heq

theorem Core.Faulty.closeHod {c : Core} {k : Nat} {deadline : Bool} (h : c.Faulty) :
    (c.closeHod k deadline).Faulty := by
  unfold Core.closeHod
  split
  · exact h
  · next heq => exact h.closeReads.of_snd heq
  · next s b hs heq =>
    have read : b.Faulty := h.closeReads.of_snd heq
    dsimp only
    refine .foldl (fun _ _ hc => hc.queueImage) ?_
    refine .xch (.xch (.ite (.raiseOnceStep ?_ rfl) ?_))
    all_goals exact .bump (.bump (.bump (.bump read.countConv)))

theorem Core.Faulty.testHod {c : Core} {k : Nat} (h : c.Faulty) : (c.testHod k).Faulty := by
  unfold Core.testHod
  split
  · refine .ite h ?_
    split
    · next heq => exact h.xRead.of_snd heq
    · next heq => exact .ite (Core.Faulty.closeHod (h.xRead.of_snd heq)) (h.xRead.of_snd heq)
  · exact h

/-! ### Arrivals (R279, R280) -/

theorem Core.Faulty.lateX {c : Core} {m : XMsg} {sub : Nat} (h : c.Faulty) : (c.lateX m sub).2.Faulty :=
  Core.Faulty.raiseOnceStep h.bump rfl

theorem Core.Faulty.gateX {c : Core} {m : XMsg} (h : c.Faulty) : (c.gateX m).2.Faulty := by
  unfold Core.gateX
  dsimp only
  split
  · exact h
  split
  · exact h
  split
  · exact h.lateX
  split
  · exact h
  split
  · exact h.lateX
  split
  · exact h
  split
  · exact h
  · exact h.openSlot

theorem Core.Faulty.addDeposit {c : Core} {m : XMsg} {a : HodAcc} (h : c.Faulty) : (c.addDeposit m a).Faulty := by
  unfold Core.addDeposit
  dsimp only
  split
  · next heq => exact h.xRead.of_snd heq
  · next b heq =>
    have read : b.Faulty := h.xRead.of_snd heq
    generalize hf : Core.bump _ 0x8880 2 _ = f
    have added : f.Faulty := by
      rw [← hf]
      exact .bump (.countBlks (.setSlot (.put read.addBlks)))
    exact .ite (.ite added.bump (.raise added.bump rfl)) added

/-! ### Ring hops (R284 to R286) -/

theorem Core.Faulty.ringForward {c : Core} {s : StepSlot} {a : HodAcc} {i contribs : Nat} {inn : Option RingIn}
    {vs : List Num} (h : c.Faulty) : (c.ringForward s a i contribs inn vs).Faulty := by
  unfold Core.ringForward
  dsimp only
  generalize hf : Core.queueOut _ _ _ _ = f
  have sent : f.Faulty := by
    rw [← hf]
    exact .queueOut (.setSlot (.bump h.countConv))
  exact .ite (sent.raise rfl) sent

theorem Core.Faulty.hopReads {c : Core} {a : HodAcc} {i : Nat} {first : Bool} (h : c.Faulty) :
    (c.hopReads a i first).2.Faulty := by
  unfold Core.hopReads
  dsimp only
  split
  · next heq => exact h.xRead.of_snd heq
  · next b heq =>
    have count : b.Faulty := h.xRead.of_snd heq
    split
    · next heq => exact count.xRead.of_snd heq
    · next heq =>
      have sums := count.xRead.of_snd heq
      split
      · exact sums.xRead
      · exact sums

theorem Core.Faulty.ringAdvance {c : Core} {s : StepSlot} {k i : Nat} (h : c.Faulty) :
    (c.ringAdvance s k i).Faulty := by
  unfold Core.ringAdvance
  split
  · exact h
  · next a _ =>
    dsimp only
    refine .ite h ?_
    split
    · next heq => exact h.hopReads.of_snd heq
    · next b heq =>
      have read : b.Faulty := h.hopReads.of_snd heq
      generalize (if nextOf s.members (ownerIn s.members (c.hod k).owner) == some c.me then none
        else KMap.get? a.ring i) = inn
      have added (t : Nat) : (match inn with
          | some r => b.addPiece t r.vals
          | none => b).Faulty := by
        split
        · exact read.addPiece
        · exact read
      exact .ite (.bump (.bump (.setSlot (.put (added _))))) (.ringForward (.put (added _)))

theorem Core.Faulty.ringFinish {c : Core} {s : StepSlot} {k : Nat} (h : c.Faulty) : (c.ringFinish s k).Faulty := by
  unfold Core.ringFinish
  split
  · exact h
  · exact .ite h (.ite h.closeHod (Core.Faulty.queueOut h))

theorem Core.Faulty.ringTake {c : Core} {k : Nat} {is : List Nat} {f : HodAcc → HodAcc} (h : c.Faulty) :
    (c.ringTake k is f).Faulty := by
  unfold Core.ringTake
  split
  · exact Core.Faulty.ringFinish (.foldl (fun _ _ hc => hc.ringAdvance) h)
  · exact h

/-! ### Messages of class 1 -/

theorem Core.Faulty.ringIn {c : Core} {m : XMsg} (h : c.Faulty) : (c.ringIn m).2.Faulty := by
  unfold Core.ringIn
  split
  · next heq => exact h.gateX.of_snd heq
  · next b heq =>
    have gate : b.Faulty := h.gateX.of_snd heq
    split
    · exact gate
    · exact Core.Faulty.ringTake gate

theorem Core.Faulty.ringEndIn {c : Core} {m : XMsg} (h : c.Faulty) : (c.ringEndIn m).2.Faulty := by
  unfold Core.ringEndIn
  split
  · next heq => exact h.gateX.of_snd heq
  · next b heq =>
    have gate : b.Faulty := h.gateX.of_snd heq
    split
    · exact gate
    · exact gate.ringTake

theorem Core.Faulty.depositIn {c : Core} {m : XMsg} (h : c.Faulty) : (c.depositIn m).2.Faulty := by
  unfold Core.depositIn
  split
  · exact h
  split
  · next heq => exact h.gateX.of_snd heq
  · next b heq =>
    have gate : b.Faulty := h.gateX.of_snd heq
    split
    · exact gate
    split
    · exact .ringTake (.countBlks gate.addBlks)
    · exact gate.addDeposit.testHod

theorem Core.Faulty.endIn {c : Core} {m : XMsg} (h : c.Faulty) : (c.endIn m).2.Faulty := by
  unfold Core.endIn
  split
  · exact h
  split
  · next heq => exact h.gateX.of_snd heq
  · next b heq =>
    have gate : b.Faulty := h.gateX.of_snd heq
    split
    · exact gate
    · exact Core.Faulty.testHod gate

theorem Core.Faulty.takeX {c : Core} {m : XMsg} (h : c.Faulty) : (c.takeX m).2.Faulty := by
  unfold Core.takeX
  have row : (c.readHod m.hod).2.Faulty := h.xRead
  split
  · exact h
  split
  · next heq => exact row.of_snd heq
  · next b heq =>
    have row : b.Faulty := row.of_snd heq
    split
    · exact row.depositIn
    · exact row.endIn
    · exact row.ringIn
    · exact row.ringEndIn
    · exact row.imageIn
    · exact row

/-! ### The send buffers (R278, R302) -/

theorem Core.Faulty.readOut {c : Core} {i : Nat} {o : OutMsg} (h : c.Faulty) : (c.readOut i o).2.Faulty := by
  unfold Core.readOut
  have asked : (c.inject 0x0E o.die 0).2.Faulty := (c.accesses_inject _ _ _).fault h
  split
  · next heq => exact asked.of_snd heq
  · next b heq =>
    have asked : b.Faulty := asked.of_snd heq
    split
    · exact asked
    · exact Core.Faulty.raise asked.xch rfl

theorem Core.Faulty.handOwn {c : Core} {i : Nat} {o : OutMsg} {t : Nat} (h : c.Faulty) : (c.handOwn i o t).Faulty := by
  unfold Core.handOwn
  split
  · next heq => exact h.readOut.of_snd heq
  · next b heq =>
    have read : b.Faulty := h.readOut.of_snd heq
    have taken : ((b.setOut (b.xch.out.set i { o with tag := some t, again := true })).takeX o.msg).2.Faulty :=
      Core.Faulty.takeX read.xch
    exact .ite taken taken

theorem Core.Faulty.handPeer {c : Core} {i : Nat} {o : OutMsg} {t : Nat} (h : c.Faulty) :
    (c.handPeer i o t).Faulty := by
  unfold Core.handPeer
  split
  · next heq => exact h.readOut.of_snd heq
  · next b heq =>
    have read : b.Faulty := h.readOut.of_snd heq
    split
    · next heq => exact (Core.posts_send heq).faulty read
    · exact read

theorem Core.Faulty.handMany {c : Core} {local_ : Bool} {n : Nat} (h : c.Faulty) : (c.handMany local_ n).Faulty := by
  induction n generalizing c with
  | zero => exact h
  | succ n ih =>
    unfold Core.handMany
    split
    · next b heq =>
      refine ih ?_
      unfold Core.handOne at heq
      split at heq
      · split at heq
        · cases heq
          exact .ite h.handOwn h.handPeer
        · cases heq
      · cases heq
    · exact h

theorem Core.Faulty.clockTags {c : Core} (h : c.Faulty) : c.clockTags.Faulty := by
  unfold Core.clockTags
  dsimp only
  split
  · exact .ite h h
  · exact .ite h h

/-- Handing over what waits keeps a FAULT_STOP asked for. -/
theorem Core.Faulty.settle {c : Core} (h : c.Faulty) : c.settle.Faulty := by
  unfold Core.settle
  refine Core.Faulty.clockTags (.foldl (fun c w hc => (c.posts_handCmd w.1 w.2).faulty hc) ?_)
  exact .xch (.handMany (.handMany h.sysRead))

/-- A command that ends with a FAULT_STOP asked for ends in FAULT_STOP, where the exchange works. -/
theorem finish_faulty {dev : Dev} {c : Core} (hd : exServes dev = true) (h : c.Faulty) (q : List Instr) :
    (finish dev c q).dev = .faultStop := by
  obtain ⟨r, hr⟩ := Option.isSome_iff_exists.mp h
  unfold finish
  rw [hr]
  dsimp only
  rw [if_neg]
  rintro (rfl | rfl)
  all_goals exact absurd hd (by decide)

end Sys2Proof.Machine
end

section
/-! SUPPORT. The commands that commit and abort a member's head step (R240, R275, R291, R292): O43. -/

namespace Sys2Proof.Machine

/-- A COMMIT is answered and taken, and what waits is handed over. -/
theorem commitReceived_runs {s : State} (ha : s.awake) (hd : exServes s.dev = true) (step as_ : Nat) (cset : List Nat) :
    exec (.commitReceived step cset [] [] as_) s = .next (finish s.dev
      ((s.core.answerX ((leaderOf (s.core.membersFor step)).getD s.core.me) 0 none).takeCommit
        (plainCommit step cset as_) false).settle s.pending) := by
  refine (?_ : execCommitReceived step cset [] [] as_ s = _)
  unfold execCommitReceived
  rw [lift_awake _ _ ha, Core.inCmd_serves _ hd]
  rfl

/-- So is an ABANDON. -/
theorem abandonReceived_runs {s : State} (ha : s.awake) (hd : exServes s.dev = true) (step : Nat) (silent : List Nat) :
    exec (.abandonReceived step silent) s = .next (finish s.dev
      ((s.core.answerX ((leaderOf (s.core.membersFor step)).getD s.core.me) 0 none).takeAbandon step silent
        false).settle s.pending) := by
  refine (?_ : execAbandonReceived step silent s = _)
  unfold execAbandonReceived
  rw [lift_awake _ _ ha, Core.inCmd_serves _ hd]

/-- The wait for either runs out. -/
theorem commitWaitExpiry_runs {s : State} {h : StepSlot} (ha : s.awake) (hd : exServes s.dev = true)
    (hh : s.core.stp.head = some h) (hv : s.core.xch.voted = true) :
    exec .commitWaitExpiry s = .next (finish s.dev (s.core.takeAbandon h.step [] true).settle s.pending) := by
  refine (?_ : execCommitWaitExpiry s = _)
  unfold execCommitWaitExpiry
  rw [lift_awake _ _ ha, hh]
  dsimp only
  rw [if_pos (by rw [hd, hv]; rfl)]

/-- A COMMIT that leaves this member out stops it. -/
theorem commitReceived_outside {s : State} {h : StepSlot} {step as_ : Nat} {cset : List Nat} (ha : s.awake)
    (hd : exServes s.dev = true) (hh : s.core.stp.head = some h) (hstep : h.step = step)
    (hseen : step ∉ s.core.xch.seen) (hab : step ∉ s.core.xch.abandoned) (hme : s.core.me ∈ h.members)
    (hcur : s.core.step = step) (hout : s.core.me ∉ cset) (hp : s.core.plainEvents) :
    ∃ t, exec (.commitReceived step cset [] [] as_) s = .next t ∧ t.dev = .faultStop := by
  refine ⟨_, commitReceived_runs ha hd step as_ cset, ?_⟩
  have post := s.core.posts_answerX ((leaderOf (s.core.membersFor step)).getD s.core.me) 0 none
  generalize s.core.answerX _ 0 none = a at post ⊢
  have outside := Core.takeCommit_outside (c := a) (as_ := as_) (by rw [post.stp]; exact hh) hstep
    (by rw [post.seen]; exact hseen) (by rw [post.abandoned]; exact hab) (by rw [post.me]; exact hme)
    (post.step.trans hcur) (by rw [post.me]; exact hout)
  refine finish_faulty hd (Core.Faulty.settle ?_) _
  rw [outside]
  refine Core.raise_faulty rfl ?_
  have esc : a.escClass 0x8031 = 0 := (post.esc _).trans (hp _)
  change max 3 (a.escClass 0x8031) = 3
  rw [esc]
  rfl

/-- Settles O43: a COMMIT and an ABANDON are taken as they stand once answered (`Core.Posts`), and what they do to the
step slots, the tally and the membership is said once for each (`Core.takeCommit_commits`, `Core.takeAbandon_aborts`,
`Core.takeAbandon_before`); the FAULT_STOP that a COMMIT without this member asks for outlasts the handing over of what
waits (`Core.Faulty.settle`). -/
theorem commitsAndAbandons : Obligations.CommitsAndAbandons := by
  unfold Obligations.CommitsAndAbandons
  intro s h step as_ cset silent ha hd hh hstep c aborted
  have answered (from_ : Nat) := c.posts_answerX from_ 0 none
  refine ⟨fun hseen hab hme hcur => ⟨fun hin htail => ?_, fun hout hp => ?_⟩, fun hheld => ?_, fun k hk hheld hne => ?_,
    fun hheld hvoted => ?_⟩
  · have post := answered ((leaderOf (c.membersFor step)).getD c.me)
    obtain ⟨u, sent, head, tail, ustep, st, set, dropped, tCommit, tally, next, count⟩ :=
      Core.takeCommit_commits (as_ := as_) (by rw [post.stp]; exact hh) hstep (by rw [post.seen]; exact hseen)
        (by rw [post.abandoned]; exact hab) (by rw [post.me]; exact hme) (post.step.trans hcur)
        (by rw [post.me]; exact hin) (by rw [post.stp]; exact htail)
    refine ⟨_, u, commitReceived_runs ha hd step as_ cset, ?_, head, tail, ustep, st, set, dropped,
      tCommit.trans post.now, ?_, ?_, ?_⟩
    · exact fun m hm hne => sent m hm (by rw [post.me]; exact hne)
    · rw [tally, post.tally]
    · rw [next, post.next]
    · rw [count, post.exch _ _ (by decide) (by decide)]
  · exact commitReceived_outside ha hd hh hstep hseen hab hme hcur hout hp
  · have post := answered ((leaderOf (c.membersFor step)).getD c.me)
    obtain ⟨head, isOpen, tail, slots, abandoned, mem, members, tallies, count⟩ :=
      Core.takeAbandon_aborts (by rw [post.stp]; exact hh) hstep (post.heldCommit.trans hheld) silent false
    refine ⟨_, abandonReceived_runs ha hd step silent, head, isOpen, ?_, slots, abandoned, mem.trans post.mem,
      ?_, ?_, ?_⟩
    · rw [tail, post.stp]
    · rw [← post.membersAt]; exact members
    · rw [tallies, post.tallies]
    · rw [count, post.exch _ _ (by decide) (by decide)]
  · have post := answered ((leaderOf (c.membersFor k)).getD c.me)
    obtain ⟨head, mem⟩ := Core.takeAbandon_before (by rw [post.stp]; exact hh) (hstep.trans hk)
      (fun e => hne (e.trans hstep)) silent
    exact ⟨_, abandonReceived_runs ha hd k silent, head, mem.trans post.mem⟩
  · refine ⟨_, commitWaitExpiry_runs ha hd hh hvoted, ?_⟩
    rw [hstep]
    exact Core.takeAbandon_aborts hh hstep hheld [] true

end Sys2Proof.Machine
end

section
/-! SUPPORT. An update unit's work before it writes: what it reads is what the step and memory held at issue (R252,
R256, R293). -/

namespace Sys2Proof.Machine

/-! ### An update unit at work -/

/-- What an update unit has made of a core s before it writes: memory, the address map, the step and the contexts are
those of s. -/
structure Core.Updates (s : Core) (d : Nat) (c : Core) : Prop where
  work : s.AtWork d s.mem.mem s.free c
  stp : c.stp = s.stp
  roll : c.roll = s.roll

/-- Objects of the step and of the exchange. -/
theorem Core.SameMap.objStep {c c' : Core} (h : c.SameMap c') {j u : Nat} (hu : u < 256)
    (hj : 0x6000 ≤ j ∧ j < 0x9000) : c'.obj j u = c.obj j u :=
  h.objAt hu fun hm => by
    have other : ∀ k ∈ unitCounters, k < 0x6000 ∨ 0x9000 ≤ k := by decide
    have := other _ hm
    omega

theorem Core.accesses_lfetch (c : Core) (a n : Nat) : c.Accesses (c.lfetch a n).1 := by
  unfold Core.lfetch
  split
  · exact .refl c
  split
  · exact .refl c
  · exact Core.accesses_foldl _ (fun c (p : Nat × Nat) => c.accesses_touch p.1 p.2) _ _

theorem Core.accesses_fetchAll (c : Core) (rs : List (Nat × Nat × Nat)) : c.Accesses (c.fetchAll rs).1 := by
  induction rs generalizing c with
  | nil => exact .refl c
  | cons r rs ih =>
    have fetched := c.accesses_lfetch r.2.1 r.2.2
    unfold Core.fetchAll
    generalize c.lfetch r.2.1 r.2.2 = p at fetched ⊢
    obtain ⟨b, e⟩ := p
    cases e with
    | some e => exact fetched
    | none => exact fetched.trans (ih b)

/-- A unit that marks its descriptor and counts leaves the step and the contexts alone. -/
theorem Core.raiseOnce_keeps {c : Core} {d : Nat} {v : Ev} (hp : c.plainEvents) (hv : v.own = 0) :
    (c.raiseOnce d v).stp = c.stp ∧ (c.raiseOnce d v).roll = c.roll := by
  unfold Core.raiseOnce
  split
  · exact ⟨rfl, rfl⟩
  split
  · exact ⟨rfl, rfl⟩
  · next x _ _ =>
    obtain ⟨-, e⟩ := Core.raise_count (c := c.setDesc d { x with marks := v.code :: x.marks })
      (v := { v with d := some d }) hp hv
    rw [e, Core.note_stp, Core.note_roll]
    exact ⟨rfl, rfl⟩

section
variable {s c : Core} {d : Nat} (h : s.Updates d c)
include h

theorem Core.Updates.touch (a n : Nat) : s.Updates d (c.touch a n) where
  work := h.work.touch a n
  stp := (c.accesses_touch a n).stp.trans h.stp
  roll := (c.accesses_touch a n).roll.trans h.roll

theorem Core.Updates.touchAll (rs : List (Nat × Nat)) : s.Updates d (rs.foldl (fun c r => c.touch r.1 r.2) c) := by
  induction rs generalizing c with
  | nil => exact h
  | cons r rs ih => exact ih (h.touch r.1 r.2)

theorem Core.Updates.fetchAll {rs : List (Nat × Nat × Nat)} (hb : ∀ r ∈ rs, s.served r.2.1 r.2.2) :
    ∃ c', c.fetchAll rs = (c', none) ∧ s.Updates d c' := by
  obtain ⟨c', e, work⟩ := h.work.fetchAll fun r hr => .inr (hb r hr).all
  have read := c.accesses_fetchAll rs
  rw [e] at read
  exact ⟨c', e, work, read.stp.trans h.stp, read.roll.trans h.roll⟩

theorem Core.Updates.countSeen (src : Nat) (r : Seen) : s.Updates d (c.countSeen d src r) := by
  have counted : ((c.bump 0x3008 1 r.nonfin).bump 0x3008 4 r.nfZero).bump 0x3008 5 r.rsvd |>.plainEvents :=
    (((h.work.bump (i := 0x3008) (u := 1) r.nonfin (by decide)).bump (i := 0x3008) (u := 4) r.nfZero (by decide)).bump
      (i := 0x3008) (u := 5) r.rsvd (by decide)).plain
  have keeps : (c.countSeen d src r).stp = c.stp ∧ (c.countSeen d src r).roll = c.roll := by
    unfold Core.countSeen
    dsimp only
    split
    · exact ⟨rfl, rfl⟩
    · exact Core.raiseOnce_keeps counted rfl
  exact ⟨h.work.countSeen src r, keeps.1.trans h.stp, keeps.2.trans h.roll⟩

/-! ### What it reads -/

theorem Core.Updates.bytes (a n : Nat) : c.bytes a n = s.bytes a n := h.work.map.bytes h.work.mem a n

theorem Core.Updates.num (a n : Nat) : c.num a n = s.num a n := by
  unfold Core.num
  rw [h.bytes]

theorem Core.Updates.obj {j u : Nat} (hu : u < 256) (hj : 0x6000 ≤ j ∧ j < 0x9000) : c.obj j u = s.obj j u :=
  h.work.map.objStep hu hj

theorem Core.Updates.hod (k : Nat) : c.hod k = s.hod k := by
  unfold Core.hod
  rw [h.obj (j := 0x8010) (by decide) (by decide), h.bytes]

theorem Core.Updates.hodCount : c.hodCount = s.hodCount := h.obj (by decide) (by decide)

theorem Core.Updates.imgAddr (k : Nat) : c.imgAddr k = s.imgAddr k := by
  unfold Core.imgAddr
  rw [h.obj (j := 0x8012) (by decide) (by decide), h.hod]

theorem Core.Updates.jAddr (k : Nat) : c.jAddr k = s.jAddr k := by
  unfold Core.jAddr
  rw [h.obj (by decide) (by decide)]

theorem Core.Updates.jFlags (k : Nat) : c.jFlags k = s.jFlags k := by
  unfold Core.jFlags
  rw [h.jAddr, h.num]

theorem Core.Updates.jApplied (k : Nat) : c.jApplied k = s.jApplied k := by
  unfold Core.jApplied
  rw [h.jFlags]

theorem Core.Updates.jStarted (k : Nat) : c.jStarted k = s.jStarted k := by
  unfold Core.jStarted
  rw [h.jFlags]

theorem Core.Updates.heldFor (k step : Nat) : c.heldFor k step = s.heldFor k step := by
  unfold Core.heldFor Core.jHeld Core.jStep
  rw [h.jFlags, h.jAddr, h.num]

theorem Core.Updates.bank (b : Nat) : c.bank b = s.bank b := by
  unfold Core.bank
  rw [h.stp]

theorem Core.Updates.tailWrites : c.tailWrites = s.tailWrites := by
  unfold Core.tailWrites
  rw [h.stp]

theorem Core.Updates.inTail (x : Desc) : c.inTail x = s.inTail x := by
  unfold Core.inTail
  rw [h.tailWrites, h.stp]

theorem Core.Updates.outside (x : Desc) : c.outside x = s.outside x := by
  unfold Core.outside
  rw [h.inTail]

theorem Core.Updates.updBank (x : Desc) : c.updBank x = s.updBank x := by
  unfold Core.updBank
  rw [h.outside, h.bank]

theorem Core.Updates.bankBytes (x : Desc) : c.bankBytes (c.updBank x) = s.bankBytes (s.updBank x) := by
  have low : s.updBank x < 2 := by
    unfold Core.updBank
    split
    · exact Nat.mod_lt _ (by decide)
    · split <;> decide
  rw [h.updBank]
  unfold Core.bankBytes
  exact h.obj (by decide) (by omega)

theorem Core.Updates.bankFree (b : Nat) : c.bankFree b = s.bankFree b := by
  unfold Core.bankFree Core.readers Core.reads
  simp only [h.roll, h.bank]

theorem Core.Updates.updChecks (x : Desc) : c.updChecks x = s.updChecks x := by
  unfold Core.updChecks
  simp only [h.bankBytes, h.hod, h.outside, h.tailWrites, h.bank, h.bankFree, h.inTail, h.hodCount, h.heldFor]

theorem Core.Updates.updRanges (x : Desc) (real : Bool) : c.updRanges x real = s.updRanges x real := by
  unfold Core.updRanges
  rw [h.imgAddr, h.hod]

theorem Core.Updates.masters (x : Desc) : c.masters x = s.masters x := by
  unfold Core.masters
  rw [h.bytes, h.bytes]

theorem Core.Updates.momWords (x : Desc) : c.momWords x = s.momWords x := by
  unfold Core.momWords
  simp only [h.num]

theorem Core.Updates.momBlks (x : Desc) : c.momBlks x = s.momBlks x := by
  unfold Core.momBlks
  simp only [h.momWords, h.bytes]

theorem Core.Updates.reduced (nfp : Bool) (k : Nat) : c.reduced nfp k = s.reduced nfp k := by
  unfold Core.reduced Core.reducedBlks
  simp only [h.imgAddr, h.hod, h.num, h.bytes]

theorem Core.Updates.updParams (x : Desc) : c.updParams x = s.updParams x := by
  unfold Core.updParams
  rw [h.stp]

theorem Core.Updates.updElems (x : Desc) : c.updElems x = s.updElems x := by
  unfold Core.updElems
  simp only [h.updParams, h.momWords, h.momBlks, h.bytes, h.masters, h.reduced]

end

/-- An update has at most an element for each master of its band. -/
theorem Core.updElems_length_le (c : Core) (x : Desc) : (c.updElems x).length ≤ x.uCount := by
  unfold Core.updElems Core.masters unpack
  simp only [List.length_map, List.length_zip, List.length_range]
  omega

end Sys2Proof.Machine
end

section
/-! SUPPORT. An update unit's writes: masters, and beside them grouts, moments and scale words (R252 to R254). -/

namespace Sys2Proof.Machine

/-! ### A unit that writes -/

/-- A unit that writes for descriptor d: nothing is in error or armed, no FAULT_STOP is asked for, d is issued; the
step unit holds t, and memory holds what m does on [lo, hi). -/
structure Core.Storing (d : Nat) (t : StepU) (lo hi : Nat) (m : Mem) (c : Core) : Prop where
  work : ∃ (s : Core) (m' : Mem) (f : Nat), s.AtWork d m' f c
  stp : c.stp = t
  mem : ∀ b, lo ≤ b → b < hi → Mem.get c.mem.mem b = Mem.get m b

section
variable {d lo hi : Nat} {t : StepU} {m : Mem} {c : Core} (h : Core.Storing d t lo hi m c)
include h

/-- A change elsewhere keeps the unit writing. -/
theorem Core.Storing.keep {c' : Core} {t' : StepU} (stp : c'.stp = t') (mem : c'.mem.mem = c.mem.mem)
    (work : ∀ (s : Core) (m' : Mem) (f : Nat), s.AtWork d m' f c →
      ∃ (s : Core) (m' : Mem) (f : Nat), s.AtWork d m' f c') :
    Core.Storing d t' lo hi m c' := by
  obtain ⟨s, m', f, hw⟩ := h.work
  exact ⟨work s m' f hw, stp, fun b h1 h2 => by rw [mem]; exact h.mem b h1 h2⟩

theorem Core.Storing.inj : c.inj = [] := by
  obtain ⟨s, m', f, hw⟩ := h.work
  exact hw.clean.1

theorem Core.Storing.live : c.live d = true := by
  obtain ⟨s, m', f, hw⟩ := h.work
  exact hw.live

/-- A counter below the escalation entries. -/
theorem Core.Storing.bump {i u : Nat} (n : Nat) (hk : okey i u < 0xB20000) : Core.Storing d t lo hi m (c.bump i u n) :=
  h.keep h.stp (congrArg _ (c.bump_mem i u n)) fun s m' f hw => ⟨_, _, _, {
    map := ⟨rfl, rfl, fun _ => rfl⟩
    mem := rfl
    free := rfl
    clean := hw.clean
    plain := fun code => (c.escClass_bump (.inl hk) n code).trans (hw.plain code)
    quiet := hw.quiet
    issued := by unfold Core.desc?; rw [Core.bump_links]; exact hw.issued : (c.bump i u n).AtWork d _ _ _ }⟩

theorem Core.Storing.countConv (k : Tally5) : Core.Storing d t lo hi m (c.countConv k) :=
  h.keep (by rw [(c.counted_countConv k).same]; exact h.stp) (congrArg _ (c.counted_countConv k).mem)
    fun _ _ _ hw => ⟨_, _, _, hw.countConv k⟩

theorem Core.Storing.raiseOnce {v : Ev} (hv : v.own = 0) (hk : v.code < 65536) :
    Core.Storing d t lo hi m (c.raiseOnce d v) := by
  obtain ⟨s, m', f, hw⟩ := h.work
  obtain ⟨stp, -⟩ := Core.raiseOnce_keeps (d := d) hw.plain hv
  exact h.keep (stp.trans h.stp) ((hw.raiseOnce hv hk).mem.trans hw.mem.symm)
    fun _ _ _ hw => ⟨_, _, _, hw.raiseOnce hv hk⟩

theorem Core.Storing.raiseIf {p : Prop} [Decidable p] {v : Ev} (hv : v.own = 0) (hk : v.code < 65536) :
    Core.Storing d t lo hi m (if p then c else c.raiseOnce d v) := by
  split
  · exact h
  · exact h.raiseOnce hv hk

theorem Core.Storing.staleSlots (hit : Nat → Bool) : Core.Storing d t lo hi m (c.staleSlots hit) :=
  h.keep h.stp rfl fun _ _ _ hw => ⟨_, _, _, ⟨⟨rfl, rfl, fun _ => rfl⟩, rfl, rfl, hw.clean, hw.plain, hw.quiet,
    hw.issued⟩⟩

theorem Core.Storing.modTail (g : StepSlot → StepSlot) :
    Core.Storing d { t with tail := t.tail.map g } lo hi m (c.modTail g) :=
  h.keep (by unfold Core.modTail; rw [h.stp]) rfl fun _ _ _ hw => ⟨_, _, _, ⟨⟨rfl, rfl, fun _ => rfl⟩, rfl, rfl,
    hw.clean, hw.plain, hw.quiet, hw.issued⟩⟩

/-- What is written shows. -/
theorem Core.Storing.putAt (a : Nat) (bs : List Byte) :
    Core.Storing d t a (a + bs.length) (Mem.write c.mem.mem a bs) (c.put a bs) := by
  obtain ⟨s, m', f, hw⟩ := h.work
  rw [Core.put_none _ h.inj]
  exact ⟨⟨_, _, _, hw.store a bs⟩, (c.store_stp a bs).trans h.stp, fun b _ _ => by rw [Core.store_mem]⟩

/-- A write elsewhere keeps what shows. -/
theorem Core.Storing.put {a : Nat} {bs : List Byte} (ha : hi ≤ a ∨ a + bs.length ≤ lo) :
    Core.Storing d t lo hi m (c.put a bs) := by
  obtain ⟨work, stp, -⟩ := h.putAt a bs
  refine ⟨work, stp, fun b h1 h2 => ?_⟩
  rw [Core.put_none _ h.inj, Core.store_mem, Mem.get_write_ne _ (by omega)]
  exact h.mem b h1 h2

end

/-! ### Moments and scale words (R253) -/

theorem convElems_length (t : Elem) (nfp : Bool) (mode key ctr e : Nat) (offs : List Nat) (xs : List Num) :
    (convElems t nfp mode key ctr e offs xs).length = xs.length := by
  simp [convElems]

/-- A momentum block's data are its 32 bytes. -/
theorem convBlk_b8m_length (lat : Latch) (useFit nfp : Bool) (mode key ctr : Nat) {xs : List Num} (h : xs.length ≤ 32) :
    (convBlk .b8m lat useFit nfp mode key ctr xs).data.length = 32 := by
  have zeros : (List.replicate BlkFmt.b8m.bytes (0 : Byte)).length = 32 := by decide
  have packed (cs : List Conv) (hc : cs.length = xs.length) :
      (pack BlkFmt.b8m.elem.width (cs.map Conv.code ++ List.replicate (32 - cs.length) 0)).length = 32 := by
    unfold pack
    rw [toLE_length, List.length_append, List.length_map, List.length_replicate,
      show cs.length + (32 - cs.length) = 32 by omega]
    decide
  have whole : (BlkFmt.b8m == BlkFmt.b4s) = false := rfl
  unfold convBlk
  simp only [whole, Bool.false_and, Bool.false_eq_true, if_false, List.any_nil]
  split
  · exact zeros
  split
  · exact zeros
  split
  · exact zeros
  · exact packed _ (convElems_length _ _ _ _ _ _ _ _)

/-- A band's scale words lie in its lines. -/
theorem Desc.wordAddr_mem_uLines {x : Desc} {q : Nat} (hq : q < x.uCount / 32) :
    x.uLines.1 ≤ wordAddr (x.f 40 8) (x.u0 / 32 + q) ∧
      wordAddr (x.f 40 8) (x.u0 / 32 + q) + 2 ≤ x.uLines.1 + x.uLines.2 := by
  unfold Desc.uLines wordAddr
  dsimp only
  generalize x.f 40 8 = scale
  generalize x.uCount = n at *
  generalize x.u0 = e
  omega

section
variable {d lo hi : Nat} {t : StepU} {m : Mem} {c : Core} (h : Core.Storing d t lo hi m c)
include h

/-- The moments of a band are written beside the window. -/
theorem Core.Storing.putMoments {x : Desc} (ws : List Nat) (es : List UpdE)
    (moms : hi ≤ x.f 32 8 + x.u0 ∨ x.f 32 8 + x.u0 + x.uCount ≤ lo)
    (words : hi ≤ x.uLines.1 ∨ x.uLines.1 + x.uLines.2 ≤ lo)
    (vars : hi ≤ x.f 48 8 + x.u0 ∨ x.f 48 8 + x.u0 + x.uCount ≤ lo) :
    Core.Storing d t lo hi m (c.putMoments x ws es) := by
  unfold Core.putMoments
  dsimp only
  generalize c.ownLatch (x.f 124 2) 4 = lat
  refine List.foldlRecOn (motive := Core.Storing d t lo hi m) _ _ h ?_
  intro b hb q hq
  have hq := List.mem_range.mp hq
  have seg : ((es.drop (32 * q)).take 32).length ≤ 32 := List.length_take_le _ _
  generalize (es.drop (32 * q)).take 32 = es' at seg ⊢
  have data := convBlk_b8m_length lat true x.nfp 0 0 0 (xs := es'.map UpdE.mom) (by rw [List.length_map]; exact seg)
  generalize convBlk .b8m lat true x.nfp 0 0 0 (es'.map UpdE.mom) = o at data ⊢
  have codes (ev : Nat) : ((es'.map fun e => varCode ev e.var).flatMap fun p => toLE 1 p.1).length ≤ 32 := by
    simpa [List.length_flatMap, toLE_length, Function.comp_def] using seg
  obtain ⟨w1, w2⟩ := Desc.wordAddr_mem_uLines hq
  have stored (w : Nat) : Core.Storing d t lo hi m (((b.countConv o.cnt).put (x.f 32 8 + x.u0 + 32 * q) o.data).put
      (wordAddr (x.f 40 8) (x.u0 / 32 + q)) (toLE 2 w)) :=
    ((hb.countConv o.cnt).put (by rw [data]; omega)).put (by rw [toLE_length]; omega)
  split
  · exact ((stored _).put (by have := codes (varExp (es'.map UpdE.var)); omega)).bump _ (by decide)
  · exact stored _

end

/-! ### The update (R252, R255) -/

/-- What a band's update makes of the tail step: elements kept, and the layer's norms. -/
def StepSlot.updated (layer : Nat) (es : List UpdE) (s : StepSlot) : StepSlot :=
  { s with
    kept := s.kept + (es.filter UpdE.kept).length
    norms := if 4096 ≤ layer then s.norms else KMap.set s.norms layer ((s.norm layer).addBand es) }

/-- The masters of a list of elements, as they are written. -/
def masterBytes (es : List UpdE) : List Byte := es.flatMap fun e => toLE 2 e.m

theorem masterBytes_length (es : List UpdE) : (masterBytes es).length = 2 * es.length := by
  simp [masterBytes, List.length_flatMap, toLE_length, Nat.mul_comm]

/-- Do n bytes from b on lie apart from m bytes from a on? -/
def apartFrom (a m b n : Nat) : Prop := a + m ≤ b ∨ b + n ≤ a

/-- An update shows its masters, where everything else it writes lies apart from them. -/
theorem Core.Storing.optimise {d lo hi : Nat} {t : StepU} {m : Mem} {c : Core} (h : Core.Storing d t lo hi m c)
    (src : Nat) {x : Desc} {es : List UpdE} (hes : c.updElems x = es)
    (grouts : apartFrom (x.f 16 8 + 2 * x.u0) (2 * x.uCount) (x.f 24 8 + x.u0) x.uCount)
    (moms : apartFrom (x.f 16 8 + 2 * x.u0) (2 * x.uCount) (x.f 32 8 + x.u0) x.uCount)
    (words : apartFrom (x.f 16 8 + 2 * x.u0) (2 * x.uCount) x.uLines.1 x.uLines.2)
    (vars : apartFrom (x.f 16 8 + 2 * x.u0) (2 * x.uCount) (x.f 48 8 + x.u0) x.uCount) :
    ∃ m', Core.Storing d { t with tail := t.tail.map (StepSlot.updated (x.f 124 2) es) } (x.f 16 8 + 2 * x.u0)
      (x.f 16 8 + 2 * x.u0 + (masterBytes es).length) (Mem.write m' (x.f 16 8 + 2 * x.u0) (masterBytes es))
      (c.optimise d src x) := by
  have len := c.updElems_length_le x
  rw [hes] at len
  have bytes := masterBytes_length es
  have groutBytes : (es.flatMap fun e => toLE 1 e.g).length = es.length := by
    simp [List.length_flatMap, toLE_length]
  unfold apartFrom at grouts moms words vars
  have started : Core.Storing d t _ _ _ (c.startUpd x) := (h.putAt (c.jAddr x.uHod) _).staleSlots _
  have masters := started.putAt (x.f 16 8 + 2 * x.u0) (masterBytes es)
  have written := (masters.put (a := x.f 24 8 + x.u0) (bs := es.flatMap fun e => toLE 1 e.g)
    (by omega)).putMoments (x := x) (c.momWords x) es (by omega) (by omega) (by omega)
  have counted := (((written.modTail (StepSlot.updated (x.f 124 2) es)).bump (i := 0x7880) (u := 9)
    (es.length - (es.filter UpdE.kept).length) (by decide)).bump (i := 0x7880) (u := 0xA)
      (es.filter UpdE.kept).length (by decide)).bump (i := 0x3008) (u := 6) (es.filter UpdE.sat).length (by decide)
  refine ⟨(c.startUpd x).mem.mem, ?_⟩
  unfold Core.optimise
  rw [hes]
  exact (counted.raiseIf rfl (by norm_num)).raiseIf rfl (by norm_num)

theorem Core.Storing.workDone {d lo hi : Nat} {t : StepU} {m : Mem} {c : Core} (h : Core.Storing d t lo hi m c) :
    Core.Storing d t lo hi m (c.workDone d) ∧ (c.workDone d).isDone d := by
  obtain ⟨s, m', f, hw⟩ := h.work
  obtain ⟨⟨f', done⟩, isDone⟩ := hw.workDone
  have same := c.signals_workDone d
  exact ⟨⟨⟨s, m', f', done⟩, same.stp.trans h.stp, by rw [same.mem]; exact h.mem⟩, isDone⟩

/-- Where a window shows what was written, a read of it gives the bytes. -/
theorem Core.Storing.read {d a : Nat} {t : StepU} {m : Mem} {c : Core} {bs : List Byte}
    (h : Core.Storing d t a (a + bs.length) (Mem.write m a bs) c) : Mem.read c.mem.mem a bs.length = bs :=
  Mem.read_of_get fun i hi => by rw [h.mem _ (by omega) (by omega), Mem.get_write_at _ _ hi]

end Sys2Proof.Machine
end

section
/-! SUPPORT. A type 0x72 descriptor (R252 to R257): O36. -/

namespace Sys2Proof.Machine

/-! ### Issue -/

/-- What an issued descriptor meets before its work: its entries are read and judged. -/
theorem updIssue_runs {s : State} {d opt : Nat} {x : Desc} (hs : s.settled) (hc : s.core.clean)
    (hp : s.core.plainEvents) (h : s.issues d x 0x72)
    (hchk : firstBad (s.core.updChecks x) = none) (hu : s.core.uus ≠ []) (hopt : x.uOpt = opt)
    (hready : x.uFmt = 0 ∨ s.core.outside x = true) :
    ∃ c c1, s.core.Updates d c ∧ s.core.updIssue s.dev d opt = Core.owe
      (if x.uOpt = 3 then c.updWork d x
       else if c.jApplied x.uHod then
         ((c.modTail fun (s : StepSlot) => { s with skipped := s.skipped + 1 }).bump 0x7880 0xB 1).workDone d
       else if c.jStarted x.uHod then
         ((c.modTail fun (s : StepSlot) => { s with torn := true }).reject d 0x7013
           (c.modTail fun (s : StepSlot) => { s with torn := true }).uuSrc 72 x.uHod).sendFp.settle
       else c.updWork d x) c1 (.desc d) := by
  obtain ⟨hx, hi, hh⟩ := h
  have units : s.core.uus.isEmpty = false := by simpa using hu
  have first : s.core.Updates d ((s.core.setDesc d { x with issued := true }).noteIssue [4, 5]) := {
    work := {
      map := ⟨rfl, rfl, fun _ => rfl⟩
      mem := rfl
      free := rfl
      clean := hc
      plain := hp
      quiet := hs
      issued := ⟨_, Core.setDesc_desc?_self _ _ _, rfl⟩ }
    stp := rfl
    roll := rfl }
  unfold Core.updIssue
  rw [hx]
  dsimp only
  rw [if_neg, Core.issue_ok _ _ _ _ _ _ x hx hi hh]
  · generalize (s.core.setDesc d { x with issued := true }).noteIssue [4, 5] = c1 at first ⊢
    have read := first.touchAll (c1.updEntries x)
    generalize (c1.updEntries x).foldl (fun c r => c.touch r.1 r.2) c1 = c at read ⊢
    refine ⟨c, c1, read, ?_⟩
    rw [Core.checked_ok _ _ _ _ _ (by rw [read.updChecks]; exact hchk), if_neg]
    obtain ⟨-, -, -, poison⟩ := read.work.clean
    simp [Core.poisoned, poison]
  · rintro (hne | hw)
    · exact hne hopt
    · rw [units, hchk] at hw
      rcases hready with h0 | ho
      · simp [h0] at hw
      · simp [ho] at hw

/-- The work of one that is not refused runs on a core that still updates. -/
theorem updWork_runs {s c : Core} {d : Nat} {x : Desc} (h : s.Updates d c)
    (hb : ∀ r ∈ s.updRanges x (x.uOpt != 3 && !(s.stp.tail.any fun t => t.nonfinite)), s.served r.2.1 r.2.2) :
    ∃ c', s.Updates d c' ∧ c.updWork d x =
      (let real := x.uOpt != 3 && !(s.stp.tail.any fun t => t.nonfinite)
       let b := if s.outside x then c'.setBank (s.updBank x) { c'.bank (s.updBank x) with
         state := 4, byStep := false, holds := false } else c'
       let e := if real then b.optimise d c.uuSrc x else b
       if e.live d then
         (e.putForward x (if s.outside x then c.step else x.uStep) (e.masters x)).workDone d else e) := by
  unfold Core.updWork
  dsimp only
  rw [h.outside, h.updBank, h.stp, h.updRanges]
  obtain ⟨c', fetched, read⟩ := h.fetchAll hb
  rw [fetched]
  dsimp only
  generalize c.uuSrc = src
  have seen := read.countSeen src (c'.updSeen x (x.uOpt != 3 && !(s.stp.tail.any fun t => t.nonfinite)))
  generalize c'.countSeen d src _ = e at seen ⊢
  refine ⟨e, seen, ?_⟩
  rw [if_neg (by rw [seen.work.live]; decide)]
  unfold Core.updBuffer
  rw [Core.inject_none _ seen.work.clean.1]

/-! ### The forward copy (R254) -/

theorem Core.putForward_none (c : Core) {x : Desc} (h : x.uFmt = 0) (step : Nat) (mgs : List (Nat × Nat)) :
    c.putForward x step mgs = c := by
  unfold Core.putForward
  rw [h]
  rfl

theorem Core.putForward_bf16 (c : Core) {x : Desc} (h : x.uFmt = 8) (step : Nat) (mgs : List (Nat × Nat)) :
    c.putForward x step mgs =
      c.put (c.bankBase (c.updBank x) + x.f 56 8 + 2 * x.u0) (mgs.flatMap fun p => toLE 2 p.1) := by
  unfold Core.putForward
  rw [h]
  rfl

/-! ### The masters of an update (R252, R253) -/

/-- A band that SGD, ADAMW or SIGN_MOMENTUM updates, with no forward copy to write: its masters show, and the tail step
counts them. -/
theorem update_runs {s : State} {d : Nat} {x : Desc} (hs : s.settled) (hc : s.core.clean) (hp : s.core.plainEvents)
    (h : s.issues d x 0x72) (hchk : firstBad (s.core.updChecks x) = none) (hu : s.core.uus ≠ []) (hopt : x.uOpt ≠ 3)
    (hfmt : x.uFmt = 0) (happ : s.core.jApplied x.uHod = false) (hst : s.core.jStarted x.uHod = false)
    (hfin : (s.core.stp.tail.any fun t => t.nonfinite) = false)
    (hb : ∀ r ∈ s.core.updRanges x true, s.core.served r.2.1 r.2.2)
    (grouts : apartFrom (x.f 16 8 + 2 * x.u0) (2 * x.uCount) (x.f 24 8 + x.u0) x.uCount)
    (moms : apartFrom (x.f 16 8 + 2 * x.u0) (2 * x.uCount) (x.f 32 8 + x.u0) x.uCount)
    (words : apartFrom (x.f 16 8 + 2 * x.u0) (2 * x.uCount) x.uLines.1 x.uLines.2)
    (vars : apartFrom (x.f 16 8 + 2 * x.u0) (2 * x.uCount) (x.f 48 8 + x.u0) x.uCount) :
    let a := x.f 16 8 + 2 * x.u0
    let ms := masterBytes (s.core.updElems x)
    let t := { s.core.stp with tail := s.core.stp.tail.map (StepSlot.updated (x.f 124 2) (s.core.updElems x)) }
    ∃ e c1 m, s.core.updIssue s.dev d x.uOpt = Core.owe e c1 (.desc d) ∧ e.isDone d ∧
      Core.Storing d t a (a + ms.length) (Mem.write m a ms) e := by
  intro a ms t
  have real : (x.uOpt != 3 && !(s.core.stp.tail.any fun t => t.nonfinite)) = true := by simp [hopt, hfin]
  have inside : s.core.outside x = false := by simp [Core.outside, hopt]
  obtain ⟨c, c1, issued, runs⟩ := updIssue_runs hs hc hp h hchk hu rfl (.inl hfmt)
  obtain ⟨c', ready, works⟩ := updWork_runs (x := x) issued (by rw [real]; exact hb)
  rw [if_neg hopt, if_neg (by rw [issued.jApplied, happ]; decide), if_neg (by rw [issued.jStarted, hst]; decide),
    works, real, inside] at runs
  have writes : Core.Storing d s.core.stp 0 0 c'.mem.mem c' := ⟨⟨_, _, _, ready.work⟩, ready.stp, fun _ _ _ => rfl⟩
  obtain ⟨m, shown⟩ := writes.optimise c.uuSrc (ready.updElems x) grouts moms words vars
  obtain ⟨ends, done⟩ := shown.workDone
  refine ⟨_, c1, m, runs.trans (congrArg (fun e => Core.owe e c1 (.desc d)) ?_), done, ends⟩
  simp only [if_true, if_false, Bool.false_eq_true, shown.live, Core.putForward_none _ hfmt]

/-! ### A REFRESH outside a step (R257) -/

theorem Core.outside_of_tail {c c' : Core} (h : c'.stp.tail = c.stp.tail) (x : Desc) : c'.outside x = c.outside x := by
  unfold Core.outside Core.inTail Core.tailWrites
  rw [h]

/-- A unit that takes a bank is still at work, and the tail step is as it was. -/
theorem Core.Updates.setBank {s c e : Core} {d b : Nat} {y : Bank} (h : s.Updates d c) (he : e = c.setBank b y) :
    s.AtWork d s.mem.mem s.free e ∧ e.bank b = y ∧ e.stp.tail = s.stp.tail := by
  obtain ⟨work, stp, -⟩ := h
  rw [he, ← stp]
  exact ⟨⟨⟨work.map.now, work.map.module_, work.map.obj⟩, work.mem, work.free, work.clean, work.plain, work.quiet,
    work.issued⟩, KMap.getD_set_self _ _ _ _, rfl⟩

/-- Such a REFRESH writes the masters in BF16 to the bank it names. -/
theorem refresh_runs {s : State} {d : Nat} {x : Desc} (hs : s.settled) (hc : s.core.clean) (hp : s.core.plainEvents)
    (h : s.issues d x 0x72) (hchk : firstBad (s.core.updChecks x) = none) (hu : s.core.uus ≠ []) (hopt : x.uOpt = 3)
    (hfmt : x.uFmt = 8) (ho : s.core.outside x = true)
    (hb : ∀ r ∈ s.core.updRanges x false, s.core.served r.2.1 r.2.2) :
    let b := x.uStep % 2
    ∃ e c1, s.core.updIssue s.dev d 3 = Core.owe e c1 (.desc d) ∧ e.isDone d ∧ e.faultReq = none ∧
      (e.bank b).state = 4 ∧ (e.bank b).byStep = false ∧ (e.bank b).holds = false ∧
      e.mem.mem = Mem.write s.core.mem.mem (s.core.bankBase b + x.f 56 8 + 2 * x.u0)
        ((s.core.masters x).flatMap fun p => toLE 2 p.1) := by
  intro b
  have real : (x.uOpt != 3 && !(s.core.stp.tail.any fun t => t.nonfinite)) = false := by simp [hopt]
  have bank (c : Core) (hc : c.outside x = true) : c.updBank x = b := by unfold Core.updBank; rw [if_pos hc]
  obtain ⟨c, c1, issued, runs⟩ := updIssue_runs hs hc hp h hchk hu hopt (.inr ho)
  obtain ⟨c', ready, works⟩ := updWork_runs (x := x) issued (by rw [real]; exact hb)
  rw [if_pos hopt, works, real, ho, bank _ ho] at runs
  obtain ⟨e, he⟩ : ∃ e, e = c'.setBank b { c'.bank b with state := 4, byStep := false, holds := false } := ⟨_, rfl⟩
  obtain ⟨taken, written, tail⟩ := ready.setBank he
  have outside : e.outside x = true := (Core.outside_of_tail tail x).trans ho
  have base : e.bankBase b = s.core.bankBase b :=
    taken.map.objStep (by decide) (by have : b < 2 := Nat.mod_lt _ (by decide); omega)
  have masters : e.masters x = s.core.masters x := by
    unfold Core.masters
    rw [taken.map.bytes taken.mem, taken.map.bytes taken.mem]
  obtain ⟨c2, hc2⟩ : ∃ c2, c2 = e.store (s.core.bankBase b + x.f 56 8 + 2 * x.u0)
      ((s.core.masters x).flatMap fun p => toLE 2 p.1) := ⟨_, rfl⟩
  have put (step : Nat) : e.putForward x step (e.masters x) = c2 := by
    rw [e.putForward_bf16 hfmt, bank e outside, base, masters, Core.put_none e taken.clean.1, hc2]
  have stored := taken.store (s.core.bankBase b + x.f 56 8 + 2 * x.u0) ((s.core.masters x).flatMap fun p => toLE 2 p.1)
  rw [← hc2] at stored
  obtain ⟨⟨_, ends⟩, done⟩ := stored.workDone
  have kept : (c2.workDone d).bank b = e.bank b := by
    unfold Core.bank
    rw [(c2.signals_workDone d).stp, hc2, Core.store_stp]
  rw [written] at kept
  refine ⟨c2.workDone d, c1, runs.trans (congrArg (fun e => Core.owe e c1 (.desc d)) ?_), done, ends.quiet, ?_⟩
  · simp only [if_true, if_false, Bool.false_eq_true, ← he, taken.live, put]
  · rw [kept]
    exact ⟨rfl, rfl, rfl, ends.mem⟩

/-! ### O36 -/

theorem Core.isDone.owe {c : Core} {d : Nat} (h : c.isDone d) (c1 : Core) (who : Writer) : (c.owe c1 who).isDone d := by
  obtain ⟨x, hx, issued, done⟩ := h
  exact ⟨x, by unfold Core.desc?; rw [Core.owe_links]; exact hx, issued, done⟩

/-- Settles O36: what an update unit reads before it writes is what memory and the step hold at issue; an update then
writes its masters, and all else that it writes lies apart from them. -/
theorem updatesWriteMasters : Obligations.UpdatesWriteMasters := by
  unfold Obligations.UpdatesWriteMasters
  intro s d x hs ha hc hp h hchk hu es a n apart
  constructor
  · intro opt i hi hopt hfmt happ hst hfin hb grouts moms words vars
    have optimises : x.uOpt ≠ 3 ∧ exec i s = lift (fun dev c => c.updIssue dev d x.uOpt) s := by
      rw [hopt]
      rcases hi with ⟨rfl, rfl⟩ | ⟨rfl, rfl⟩ | ⟨rfl, rfl⟩
      · exact ⟨by decide, rfl⟩
      · exact ⟨by decide, rfl⟩
      · exact ⟨by decide, rfl⟩
    obtain ⟨hopt, runs⟩ := optimises
    obtain ⟨e, c1, m, issue, done, shown⟩ :=
      update_runs hs hc hp h hchk hu hopt hfmt happ hst hfin hb grouts moms words vars
    obtain ⟨_, _, _, work⟩ := shown.work
    refine ⟨Core.owe e c1 (.desc d), runs.trans (lift_quiet ha issue ?_), done.owe _ _, ?_, ?_⟩
    · rw [Core.owe_faultReq]
      exact work.quiet
    · rw [Core.owe_mem_mem, ← masterBytes_length]
      exact shown.read
    · rw [Core.owe_stp, shown.stp, Option.map_map]
      rfl
  · intro hopt hfmt ho hb b
    obtain ⟨e, c1, issue, done, quiet, state, byStep, holds, mem⟩ := refresh_runs hs hc hp h hchk hu hopt hfmt ho hb
    have bank : (Core.owe e c1 (.desc d)).bank b = e.bank b := by unfold Core.bank; rw [Core.owe_stp]
    have runs : exec (.refresh d) s = lift (fun dev c => c.updIssue dev d 3) s := rfl
    refine ⟨Core.owe e c1 (.desc d), runs.trans (lift_quiet ha issue ?_), done.owe _ _, ?_⟩
    · rw [Core.owe_faultReq]
      exact quiet
    · rw [bank, Core.owe_mem_mem]
      exact ⟨state, byStep, holds, mem⟩

end Sys2Proof.Machine
end

section
/-! SUPPORT. A host that escalates no event (R452): what reads, writes and sums of memory, and what they log, leave of
that. -/

namespace Sys2Proof.Machine

theorem Core.plainEvents.ite {a b : Core} {p : Prop} [Decidable p] (ha : a.plainEvents) (hb : b.plainEvents) :
    (if p then a else b).plainEvents := by
  split
  · exact ha
  · exact hb

theorem Core.plainEvents.foldl {α : Type} {f : Core → α → Core} {l : List α} {c : Core}
    (hf : ∀ (c : Core) (x : α), c.plainEvents → (f c x).plainEvents) (h : c.plainEvents) :
    (l.foldl f c).plainEvents := by
  induction l generalizing c with
  | nil => exact h
  | cons x l ih => exact ih (hf c x h)

section
variable {c : Core} (h : c.plainEvents)
include h

theorem Core.plainEvents.bump {i u : Nat} (hk : okey i u < 0xB20000 ∨ 0xB24000 ≤ okey i u) (n : Nat) :
    (c.bump i u n).plainEvents :=
  fun code => (c.escClass_bump hk n code).trans (h code)

theorem Core.plainEvents.of_keepsObjs {c' : Core} (k : c.KeepsObjs c') : c'.plainEvents :=
  fun code => (k.esc code).trans (h code)

theorem Core.plainEvents.of_dict {c' : Core} (hd : c'.dict = c.dict) : c'.plainEvents :=
  h.of_keepsObjs (Core.keepsObjs_of_dict hd)

/-- An event that belongs to no descriptor is logged under its own class. -/
theorem Core.plainEvents.raise {v : Ev} (hd : v.d = none := by rfl) (hc : v.own < 256 := by norm_num)
    (hk : v.code < 65536 := by norm_num) : (c.raise v).plainEvents := by
  rw [Core.raise_free c v hd]
  refine h.of_keepsObjs (c.keepsObjs_note v ?_ hk)
  unfold Core.evClass
  rw [h v.code]
  omega

/-! ### Injection -/

theorem Core.plainEvents.inject (det inst addr : Nat) : (c.inject det inst addr).2.plainEvents := by
  unfold Core.inject Core.injectIf
  dsimp only
  split
  · exact h
  · exact Core.plainEvents.bump h (.inr (by decide)) _

theorem Core.plainEvents.injectEach {det : Nat} {us : List Nat} {inst : Nat → Nat} {hit : Core → Nat → Nat → Core}
    (hh : ∀ (c : Core) (u p : Nat), c.plainEvents → (hit c u p).plainEvents) :
    (c.injectEach det us inst hit).plainEvents := by
  unfold Core.injectEach
  refine .ite (.foldl (fun c u hc => ?_) h) h
  have asked := hc.inject det (inst u) u
  split
  · next heq => exact hh _ _ _ (by rw [heq] at asked; exact asked)
  · next heq => rw [heq] at asked; exact asked

theorem Core.plainEvents.transferFails (u p : Nat) : (c.transferFails u p).plainEvents := by
  have failed := h.bump (i := 0x9880) (u := 5) (.inl (by decide)) (p % 32)
  refine .ite failed (.raise ?_)
  exact fun code => (Core.escClass_setObj _ (.inl (by decide)) _ code).trans (failed code)

theorem Core.plainEvents.transfers (a n : Nat) : (c.transfers a n).plainEvents :=
  .ite (h.injectEach fun _ u p hc => hc.transferFails u p) h

/-! ### Reads -/

theorem Core.plainEvents.rowCorrected (a : Nat) : (c.rowCorrected a).plainEvents := by
  unfold Core.rowCorrected
  refine .ite (.raise ?_) ?_
  · exact h
  · exact h

theorem Core.plainEvents.sectorCorrected (u : Nat) : (c.sectorCorrected u).plainEvents :=
  ((h.of_keepsObjs (c.keepsObjs_enterRange _ _ _)).bump (.inl (by decide)) _).rowCorrected u

theorem Core.plainEvents.sectorLost (u syms : Nat) (inj : Bool) : (c.sectorLost u syms inj).plainEvents := by
  have entered := Core.plainEvents.of_keepsObjs (c := c.poisonUnit u) h (Core.keepsObjs_enterRange _ false u 64)
  exact (entered.bump (.inl (by decide)) _).raise

theorem Core.plainEvents.readSymbols (u syms : Nat) (inj : Bool) : (c.readSymbols u syms inj).plainEvents := by
  unfold Core.readSymbols
  refine .ite (h.sectorCorrected u) (.ite (h.sectorLost u syms inj) ?_)
  have drawn : (c.draw 3).2.plainEvents := h
  generalize c.draw 3 = p at drawn ⊢
  obtain ⟨o, b⟩ := p
  have written (m : MemSys) : ({ (b.drawBytes 64).2 with mem := m } : Core).plainEvents := drawn
  exact .ite (drawn.sectorLost u syms inj) (.ite ((written _).sectorCorrected u) (written _))

theorem Core.plainEvents.readSector (u syms : Nat) : (c.readSector u syms).plainEvents :=
  Core.plainEvents.readSymbols (c := { c with mem := { c.mem with injSyms := KMap.erase c.mem.injSyms u } }) h u syms true

theorem Core.plainEvents.wordCorrected (u : Nat) : (c.wordCorrected u).plainEvents := by
  unfold Core.wordCorrected
  have counted := h.bump (i := 0x9880) (u := 6) (.inl (by decide)) 1
  exact .ite (counted.bump (.inl (by decide)) _) (.ite (counted.bump (.inl (by decide)) _) counted)

theorem Core.plainEvents.readFlips (u flips : Nat) (inj : Bool) : (c.readFlips u flips inj).plainEvents := by
  refine .ite (h.wordCorrected u) (.raise ?_)
  exact Core.plainEvents.bump (c := c.poisonUnit u) h (.inl (by decide)) _

theorem Core.plainEvents.readWord (u flips : Nat) : (c.readWord u flips).plainEvents :=
  Core.plainEvents.readFlips (c := { c with mem := { c.mem with tsFlips := KMap.erase c.mem.tsFlips u } }) h u flips true

theorem Core.plainEvents.touch (a n : Nat) : (c.touch a n).plainEvents := by
  unfold Core.touch
  have merged := (h.transfers a n).bump (i := 0x9880) (u := 8) (.inl (by decide)) (c.merges a n)
  dsimp only
  refine .foldl (fun c (p : Nat × Nat) hc => hc.readWord p.1 p.2) ?_
  refine .foldl (fun c (p : Nat × Nat) hc => hc.readSector p.1 p.2) ?_
  exact merged.of_dict rfl

/-! ### Writes and sums -/

theorem Core.plainEvents.injectStore (a n : Nat) : (c.injectStore a n).plainEvents := by
  have flipped (c : Core) (u p : Nat) (hc : c.plainEvents) : (c.bufferFlips u p).plainEvents :=
    .ite (hc.bump (.inl (by decide)) _) (Core.plainEvents.raise (c := c.smear u 8) hc)
  unfold Core.injectStore
  refine .ite (Core.plainEvents.transfers (Core.plainEvents.injectEach ?_ flipped) a n) ?_
  · exact h.injectEach fun _ _ _ hc => hc
  · exact h.injectEach fun _ _ _ hc => hc

theorem Core.plainEvents.put (a : Nat) (bs : List Byte) : (c.put a bs).plainEvents :=
  (h.of_keepsObjs (c.keepsObjs_store a bs)).injectStore a bs.length

theorem Core.plainEvents.addPiece (a : Nat) (vs : List Num) : (c.addPiece a vs).plainEvents := by
  have granule (c : Core) (g lo hi : Nat) (hc : c.plainEvents) : (c.addGranule g lo hi).plainEvents := by
    refine Core.plainEvents.of_keepsObjs ?_ (Core.keepsObjs_enterGranule _ _ _ _ _)
    have asked (m : MemSys) : ({ c with mem := m } : Core).plainEvents := hc
    exact .ite hc (.foldl (fun _ p hc => hc.readSector p.1 p.2) (asked _))
  refine .ite h (Core.plainEvents.injectStore ?_ _ _)
  refine Core.plainEvents.bump ?_ (.inl (by decide)) _
  have broken (c : Core) (n : Nat) (hc : c.plainEvents) : (c.breakPools a n).plainEvents := .ite hc hc
  exact broken _ _ (.foldl (fun _ _ hc => granule _ _ _ _ hc) h)

end
end Sys2Proof.Machine
end

section
/-! SUPPORT. What the exchange's work keeps (chapter 9), first on memory and on the links: this member's number, the
messages sent, the summary agreed on, the requests ended, and a host that escalates no event. -/

namespace Sys2Proof.Machine

/-- The member's number, the messages it has sent or holds for a tag, the summary agreed on, and the requests that have
ended stay; where the host escalates no event, it still does not. -/
structure Core.Keeps (c c' : Core) : Prop where
  me : c'.me = c.me
  sent {m : Nat} {x : XCmd} : c.sentTo m x → c'.sentTo m x
  agreed : c'.xch.agreed = c.xch.agreed
  ended : c'.links.ended = c.links.ended
  plain : c.plainEvents → c'.plainEvents

theorem Core.Keeps.refl (c : Core) : c.Keeps c := ⟨rfl, id, rfl, rfl, id⟩

theorem Core.Keeps.trans {a b c : Core} (h : a.Keeps b) (k : b.Keeps c) : a.Keeps c where
  me := k.me.trans h.me
  sent := k.sent ∘ h.sent
  agreed := k.agreed.trans h.agreed
  ended := k.ended.trans h.ended
  plain := k.plain ∘ h.plain

/-- `trans`, the last operation first. -/
theorem Core.Keeps.after {a b c : Core} (k : b.Keeps c) (h : a.Keeps b) : a.Keeps c := h.trans k

theorem Core.Keeps.ite {c a b : Core} {p : Prop} [Decidable p] (ha : c.Keeps a) (hb : c.Keeps b) :
    c.Keeps (if p then a else b) := by
  split
  · exact ha
  · exact hb

theorem Core.Keeps.of_snd {α : Type} {c c' : Core} {x : α} {p : α × Core} (h : c.Keeps p.2) (e : p = (x, c')) :
    c.Keeps c' := by
  rw [e] at h
  exact h

theorem Core.keeps_foldl {α : Type} (f : Core → α → Core) (h : ∀ (c : Core) (x : α), c.Keeps (f c x)) (l : List α)
    (c : Core) : c.Keeps (l.foldl f c) := by
  induction l generalizing c with
  | nil => exact .refl c
  | cons x l ih => exact .trans (h c x) (ih _)

/-- A change of other parts of the state. -/
theorem Core.Keeps.of_parts {c c' : Core} (dict : c'.dict = c.dict) (ended : c'.links.ended = c.links.ended)
    (sent : c'.xch.sent = c.xch.sent) (waits : c'.xch.waits0 = c.xch.waits0) (agreed : c'.xch.agreed = c.xch.agreed) :
    c.Keeps c' where
  me := by unfold Core.me Core.obj; rw [dict]
  sent hs := by unfold Core.sentTo; rw [sent, waits]; exact hs
  agreed := agreed
  ended := ended
  plain hp := hp.of_dict dict

/-- A counter lies below the escalation entries, and is not the member's number. -/
theorem Core.keeps_bump (c : Core) {i u : Nat} (hk : okey i u < 0xB20000) (hm : okey i u ≠ okey 0x8001 0) (n : Nat) :
    c.Keeps (c.bump i u n) where
  me := Core.obj_bump_ne c n hm.symm
  sent := id
  agreed := rfl
  ended := by rw [Core.bump_links]
  plain hp := hp.bump (.inl hk) n

theorem Core.Accesses.keeps {c c' : Core} (h : c.Accesses c') (plain : c.plainEvents → c'.plainEvents) :
    c.Keeps c' where
  me := h.exch _ _ (by decide) (by decide)
  sent hs := by unfold Core.sentTo; rw [h.xch]; exact hs
  agreed := by rw [h.xch]
  ended := by rw [h.links]
  plain := plain

/-- An event that belongs to no descriptor. -/
theorem Core.keeps_raise (c : Core) {v : Ev} (hd : v.d = none := by rfl) (hc : v.own < 256 := by norm_num)
    (hk : v.code < 65536 := by norm_num) : c.Keeps (c.raise v) :=
  (c.accesses_raise v hd).keeps fun hp => hp.raise hd hc hk

theorem Core.keeps_xEv (c : Core) {code own : Nat} (hc : own < 256) (hk : code < 65536) (hod member kind : Nat) :
    c.Keeps (c.raise (xEv code own hod member kind)) :=
  c.keeps_raise rfl hc hk

theorem Core.keeps_raiseOnceStep (c : Core) {v : Ev} (hd : v.d = none) (hc : v.own < 256) (hk : v.code < 65536)
    (key : Nat) : c.Keeps (c.raiseOnceStep v key) :=
  .ite (.refl c) (.after (Core.keeps_raise _ hd hc hk) (.of_parts rfl rfl rfl rfl rfl))

theorem Core.keeps_xRead (c : Core) (a n : Nat) : c.Keeps (c.xRead a n).2 := by
  refine (c.accesses_xRead a n).keeps fun hp => ?_
  unfold Core.xRead
  dsimp only
  split
  · exact hp
  split
  · exact (hp.touch a n).raise
  · exact hp.touch a n

theorem Core.keeps_put (c : Core) (a : Nat) (bs : List Byte) : c.Keeps (c.put a bs) :=
  (c.accesses_put a bs).keeps fun hp => hp.put a bs

theorem Core.keeps_addPiece (c : Core) (a : Nat) (vs : List Num) : c.Keeps (c.addPiece a vs) :=
  (c.accesses_addPiece a vs).keeps fun hp => hp.addPiece a vs

theorem Core.keeps_countConv (c : Core) (t : Tally5) : c.Keeps (c.countConv t) := by
  unfold Core.countConv
  iterate 9 refine .after (Core.keeps_bump _ (by decide) (by decide) _) ?_
  exact Core.keeps_bump _ (by decide) (by decide) _

theorem Core.keeps_readImages (c : Core) (step : Nat) : c.Keeps (c.readImages step).2 := by
  have each (l : List Nat) (ok : Bool) (c : Core) : c.Keeps (l.foldl (fun (p : Bool × Core) h =>
      if p.2.heldFor h step then (p.1 && (p.2.xRead (p.2.imgAddr h) 128).1, (p.2.xRead (p.2.imgAddr h) 128).2) else p)
      (ok, c)).2 := by
    induction l generalizing ok c with
    | nil => exact .refl c
    | cons h l ih =>
      rw [List.foldl_cons]
      split
      · exact .trans (c.keeps_xRead _ _) (ih _ _)
      · exact ih ok c
  exact each _ true c

/-! ### Messages of class 0 (R349, R364) -/

/-- What a message does to the links ends no request. -/
theorem Core.send_ended {c c' : Core} {x : Flit} (h : c.send x = some c') : c'.links.ended = c.links.ended := by
  unfold Core.send Core.handPort Core.admitAll at h
  split at h
  · cases h
    dsimp only
    split
    · rw [Core.bump_links]; rfl
    · rfl
  · cases h

theorem Core.handCmd_ended (c : Core) (tgt : Nat) (m : XCmd) : (c.handCmd tgt m).links.ended = c.links.ended := by
  unfold Core.handCmd
  split
  · rfl
  · dsimp only
    split
    · next heq => exact (Core.send_ended heq :)
    · rfl

theorem Core.Posts.keeps {c c' : Core} (h : c.Posts c') (ended : c'.links.ended = c.links.ended) : c.Keeps c' where
  me := h.me
  sent := h.sent
  agreed := by rw [h.same]
  ended := ended
  plain hp code := (h.esc code).trans (hp code)

theorem Core.keeps_handCmd (c : Core) (tgt : Nat) (m : XCmd) : c.Keeps (c.handCmd tgt m) :=
  (c.posts_handCmd tgt m).keeps (c.handCmd_ended tgt m)

theorem Core.keeps_sendCmd (c : Core) (tgt : Nat) (m : XCmd) : c.Keeps (c.sendCmd tgt m) :=
  .ite (.refl c) (c.keeps_handCmd tgt m)

theorem Core.keeps_sendCmds (c : Core) (tos : List Nat) (m : XCmd) : c.Keeps (c.sendCmds tos m) :=
  Core.keeps_foldl _ (fun c tgt => c.keeps_sendCmd tgt m) _ _

end Sys2Proof.Machine
end

section
/-! SUPPORT. What the exchange's work keeps, part 2: commits, aborts, votes, images, slots, arrivals and ring hops (R279
to R292), and handing over what waits (R278, R302). -/

namespace Sys2Proof.Machine

/-! ### Commit and abort (R240, R291, R292) -/

theorem Core.keeps_requestBank (c : Core) : c.Keeps c.requestBank := by
  unfold Core.requestBank Core.startHold Core.forceFollow
  dsimp only
  refine .ite (.of_parts rfl rfl rfl rfl rfl) (.ite ?_ (.of_parts rfl rfl rfl rfl rfl))
  exact .after (Core.keeps_raise _) (.after (Core.keeps_bump _ (by decide) (by decide) _) (.of_parts rfl rfl rfl rfl rfl))

/-- What a commit does once the images are read. -/
theorem Core.keeps_committed (c : Core) (u : StepSlot) (p : Prop) [Decidable p] :
    c.Keeps (if p then (c.committed u).raise { code := 0x7011, source := stepSrc } else c.committed u).requestBank := by
  refine .after (Core.keeps_requestBank _) ?_
  have moved : c.Keeps (c.committed u) := .of_parts rfl rfl rfl rfl rfl
  exact .ite (.trans moved (Core.keeps_raise _)) moved

theorem Core.keeps_commitStep (c : Core) (cset : List Nat) : c.Keeps (c.commitStep cset) := by
  unfold Core.commitStep
  split
  · exact .refl c
  · next s hs =>
    have added : c.Keeps (c.addTally s.tally 1) := by
      refine .after (Core.keeps_bump _ (by decide) (by decide) _) (.of_parts rfl ?_ rfl rfl rfl)
      unfold Core.setTally Core.markReady Links.markReady
      dsimp only
      split <;> rfl
    have read := added.trans ((c.addTally s.tally 1).keeps_readImages s.step)
    dsimp only
    generalize ((c.addTally s.tally 1).readImages s.step).1 = whole
    generalize ((c.addTally s.tally 1).readImages s.step).2 = b at read ⊢
    have drawn : b.Keeps (if whole = true then (0, b) else b.draw (2 ^ 64)).2 := by
      split
      · exact .refl b
      · exact .of_parts rfl rfl rfl rfl rfl
    exact .trans read (.trans drawn (Core.keeps_committed _ _ _))

theorem Core.keeps_applyHeld (c : Core) : c.Keeps c.applyHeld := by
  unfold Core.applyHeld
  split
  · exact .ite (.after (Core.keeps_commitStep _ _) (.of_parts rfl rfl rfl rfl rfl)) (.refl c)
  · exact .refl c

theorem Core.keeps_noteCommit (c : Core) (k : Commit) (next : List Nat) :
    c.Keeps ((c.noteCommit k next).bump 0x8880 0xF 1) :=
  .after (Core.keeps_bump _ (by decide) (by decide) _) (.of_parts rfl rfl rfl rfl rfl)

theorem Core.keeps_takeCommit (c : Core) (k : Commit) (own : Bool) : c.Keeps (c.takeCommit k own) := by
  have applied (b : Core) (x : Xch) (sent : x.sent = b.xch.sent) (waits : x.waits0 = b.xch.waits0)
      (agreed : x.agreed = b.xch.agreed) : b.Keeps ({ b with xch := x } : Core).applyHeld :=
    .after (Core.keeps_applyHeld _) (.of_parts rfl rfl sent waits agreed)
  have seen (code : Nat) (hk : code < 65536) :
      c.Keeps (({ c with xch := { c.xch with seen := k.step :: c.xch.seen } } : Core).raise (xEv code 3 0 c.me 0)) :=
    .after (Core.keeps_xEv _ (by decide) hk _ _ _) (.of_parts rfl rfl rfl rfl rfl)
  unfold Core.takeCommit
  dsimp only
  refine .ite (.refl c) (.ite ?_ (.ite (seen _ (by decide)) (.ite (.refl c) (.ite (seen _ (by decide)) ?_))))
  · exact .trans (c.keeps_noteCommit k _) (applied _ _ rfl rfl rfl)
  · refine .trans (.trans ?_ (Core.keeps_noteCommit _ k _)) (applied _ _ rfl rfl rfl)
    exact .ite (.refl c) (c.keeps_sendCmds _ _)

theorem Core.keeps_abandonHead (c : Core) (step : Nat) (timeout : Bool) : c.Keeps (c.abandonHead step timeout) := by
  unfold Core.abandonHead
  split
  · exact .refl c
  · dsimp only
    generalize hb : Core.bump _ 0x8880 0x10 1 = b
    have aborted : c.Keeps b := by
      rw [← hb]
      exact .after (Core.keeps_bump _ (by decide) (by decide) _) (.of_parts rfl rfl rfl rfl rfl)
    have logged := aborted.trans (Core.keeps_xEv b (code := 0x8030) (own := 0) (by decide) (by decide) 0 c.me 0)
    exact .ite (.ite (.trans logged (Core.keeps_xEv _ (by decide) (by decide) _ _ _)) logged) (.refl c)

theorem Core.keeps_takeAbandon (c : Core) (step : Nat) (silent : List Nat) (timeout : Bool) :
    c.Keeps (c.takeAbandon step silent timeout) := by
  unfold Core.takeAbandon Core.takeSilent
  refine .trans (c.keeps_abandonHead step timeout) ?_
  generalize c.abandonHead step timeout = b
  dsimp only
  have named : b.Keeps (if silent.isEmpty then b else
      { b with xch := { b.xch with silent := (step, silent) :: b.xch.silent } }) :=
    .ite (.refl b) (.of_parts rfl rfl rfl rfl rfl)
  split
  · exact named
  · exact .ite (.trans named (.of_parts rfl rfl rfl rfl rfl)) named

/-! ### Votes (R289, R290) -/

theorem Core.keeps_setLead (c : Core) (l : Leader) : c.Keeps (c.setLead l) := .of_parts rfl rfl rfl rfl rfl

theorem Core.keeps_leadCommit (c : Core) (cset : List Nat) : c.Keeps (c.leadCommit cset) :=
  .after (Core.keeps_takeCommit _ _ _) (.after (Core.keeps_sendCmds _ _ _) (.of_parts rfl rfl rfl rfl rfl))

theorem Core.keeps_leadDecide (c : Core) : c.Keeps c.leadDecide := by
  unfold Core.leadDecide
  dsimp only
  have counted (n : Nat) := c.keeps_bump (i := 0x8880) (u := 0x11) (by decide) (by decide) n
  refine .ite (.ite (.trans (counted _) (Core.keeps_setLead _ _)) (.trans (counted _) (Core.keeps_leadCommit _ _))) ?_
  exact .after (Core.keeps_takeAbandon _ _ _ _) (.trans (c.keeps_setLead _) (Core.keeps_sendCmds _ _ _))

theorem Core.keeps_leadVote (c : Core) (step member : Nat) (novote : Bool) (hodCrc memberCrc : Nat) :
    c.Keeps (c.leadVote step member novote hodCrc memberCrc) := by
  unfold Core.leadVote
  dsimp only
  refine .ite (.refl c) (.ite (.after (Core.keeps_leadDecide _) ?_) ?_)
  all_goals exact .trans (.ite (c.keeps_xEv (by decide) (by decide) _ _ _) (.refl c)) (Core.keeps_setLead _ _)

theorem Core.keeps_castVote (c : Core) (yes : Bool) : c.Keeps (c.castVote yes) := by
  unfold Core.castVote
  split
  · exact .refl c
  split
  · exact .refl c
  have voted : c.Keeps { c with xch := { c.xch with voted := true } } := .of_parts rfl rfl rfl rfl rfl
  exact .ite (.refl c) (.ite (.trans voted (Core.keeps_leadVote _ _ _ _ _ _))
    (.trans voted (Core.keeps_sendCmd _ _ _)))

theorem Core.keeps_checkVote (c : Core) : c.Keeps c.checkVote := by
  unfold Core.checkVote
  have read : c.Keeps c.readJournal.2 := c.keeps_xRead _ _
  split
  · exact .refl c
  split
  · next heq => exact read.of_snd heq
  · next heq => exact .ite (.trans (read.of_snd heq) (Core.keeps_castVote _ true)) (read.of_snd heq)

/-! ### Images (R283) -/

theorem Core.keeps_imageHeld (c : Core) (h step : Nat) (b : List Byte) : c.Keeps (c.imageHeld h step b) := by
  unfold Core.imageHeld
  have held : c.Keeps ((c.setJ h step 1).bump 0x8880 0xD 1) :=
    .trans (c.keeps_put _ _) (Core.keeps_bump _ (by decide) (by decide) _)
  generalize (c.setJ h step 1).bump 0x8880 0xD 1 = e at held
  dsimp only
  generalize hf : (if (c.hod h).ring = true then _ else e) = f
  have copied : c.Keeps f := by
    rw [← hf]
    exact .ite (.trans held (Core.keeps_put _ _ _)) held
  refine .ite (.after (Core.keeps_checkVote _) ?_) ?_
  all_goals exact .trans copied (.of_parts rfl rfl rfl rfl rfl)

theorem Core.keeps_imageWhole (c : Core) (h step sender : Nat) : c.Keeps (c.imageWhole h step sender) := by
  unfold Core.imageWhole
  dsimp only
  have read := c.keeps_xRead (c.imgAddr h) (c.hod h).imgBytes
  generalize c.xRead (c.imgAddr h) (c.hod h).imgBytes = p at read ⊢
  obtain ⟨ok, b⟩ := p
  refine .trans read ?_
  dsimp only
  refine .ite (b.keeps_imageHeld _ _ _) ?_
  generalize hf : Core.sendCmd _ sender _ = f
  have failed : b.Keeps f := by
    rw [← hf]
    refine .after (Core.keeps_sendCmd _ _ _) (.after (Core.keeps_bump _ (by decide) (by decide) _) ?_)
    exact .of_parts rfl rfl rfl rfl rfl
  have logged := failed.trans (f.keeps_xEv (code := 0x8025) (own := 0) (by decide) (by decide) h sender 5)
  exact .ite (.ite (.trans logged (Core.keeps_castVote _ _)) logged) failed

/-- A receiver that waits for the image of a message's step, begun where it waited for none. -/
def Core.startImage (c : Core) (m : XMsg) : Core :=
  if c.jStep m.hod ≠ m.step ∨ (KMap.get? c.xch.imgGot m.hod).isNone then
    let c := c.setJ m.hod m.step 0
    { c with xch := { c.xch with imgGot := KMap.set c.xch.imgGot m.hod [] } }
  else c

/-- Bytes of the image that a part carries. -/
def Core.partLen (c : Core) (m : XMsg) : Nat := min 204 ((c.hod m.hod).imgBytes - m.imageOff)

/-- A part's bytes at their place in the image area. -/
def Core.putPart (c : Core) (m : XMsg) : Core :=
  if c.partLen m = 0 then c else c.put (c.imgAddr m.hod + m.imageOff) (bytesAt m.payload 0 (c.partLen m))

/-- The ranges of the image that have come in with a part. -/
def Core.partRanges (c : Core) (m : XMsg) : List (Nat × Nat) :=
  addRange (m.imageOff, m.imageOff + c.partLen m) (KMap.getD (c.putPart m).xch.imgGot m.hod [])

/-- A part is placed and noted. -/
def Core.placePart (c : Core) (m : XMsg) : Core :=
  { c.putPart m with xch := { (c.putPart m).xch with
      imgGot := KMap.set (c.putPart m).xch.imgGot m.hod (c.partRanges m) } }

/-- What an IMAGE message leads to (`Core.imageIn`), with each of its steps named. -/
theorem Core.imageIn_eq (c : Core) (m : XMsg) :
    c.imageIn m =
      (let b := (c.xRead (c.jAddr m.hod) 16).2
       if !(c.xRead (c.jAddr m.hod) 16).1 then (3, b)
       else if b.holdOff m.hod then (2, b.bump 0x8880 0xA 1)
       else if b.heldFor m.hod m.step then (0, b)
       else
         let e := b.startImage m
         (0, if (e.partRanges m).any fun r => r.1 == 0 && (e.hod m.hod).imgBytes ≤ r.2 then
            (e.placePart m).imageWhole m.hod m.step m.sender else e.placePart m)) := rfl

theorem Core.keeps_imageIn (c : Core) (m : XMsg) : c.Keeps (c.imageIn m).2 := by
  rw [Core.imageIn_eq]
  have read := c.keeps_xRead (c.jAddr m.hod) 16
  generalize c.xRead (c.jAddr m.hod) 16 = p at read ⊢
  obtain ⟨ok, b⟩ := p
  refine .trans read ?_
  dsimp only
  have begun : b.Keeps (b.startImage m) :=
    .ite (.trans (b.keeps_put _ _) (.of_parts rfl rfl rfl rfl rfl)) (.refl b)
  generalize b.startImage m = e at begun ⊢
  have placed : b.Keeps (e.placePart m) :=
    .trans begun (.trans (.ite (.refl e) (e.keeps_put _ _)) (.of_parts rfl rfl rfl rfl rfl))
  split
  · exact .refl b
  split
  · exact b.keeps_bump (by decide) (by decide) _
  split
  · exact .refl b
  · exact .ite (.trans placed (Core.keeps_imageWhole _ _ _ _)) placed

end Sys2Proof.Machine
end

section
/-! SUPPORT. What the exchange's work keeps, part 3: slots, hods and arrivals (R279 to R286), and handing over what
waits (R278, R302). -/

namespace Sys2Proof.Machine

/-! ### Slots and closing (R279 to R281) -/

theorem Core.keeps_queueOut (c : Core) (die tgt : Nat) (m : XMsg) (d : Option Nat) :
    c.Keeps (c.queueOut die tgt m d) := by
  unfold Core.queueOut
  refine .ite (.after (Core.keeps_bump _ (by decide) (by decide) _) ?_) ?_
  all_goals exact .of_parts rfl rfl rfl rfl rfl

theorem Core.keeps_queueImage (c : Core) (tgt h step : Nat) (img : List Byte) : c.Keeps (c.queueImage tgt h step img) :=
  Core.keeps_foldl _ (fun c _ => c.keeps_queueOut _ _ _ _) _ _

theorem Core.keeps_setSlot (c : Core) (a : HodAcc) : c.Keeps (c.setSlot a) := .of_parts rfl rfl rfl rfl rfl

theorem Core.keeps_smear (c : Core) (a n : Nat) : c.Keeps (c.smear a n) := .of_parts rfl rfl rfl rfl rfl

theorem Core.keeps_openSlot (c : Core) (h : Nat) : c.Keeps (c.openSlot h) := by
  have taken (b : Core) (a : HodAcc) : b.Keeps { b with xch := { b.xch with slots := b.xch.slots ++ [a] } } :=
    .of_parts rfl rfl rfl rfl rfl
  exact .trans (c.keeps_put _ _) (.trans (Core.keeps_smear _ _ _) (taken _ _))

theorem Core.keeps_addBlk (c : Core) (base : Nat) (x : HodRow) (i : Nat) (vs : List Num) :
    c.Keeps (c.addBlk base x i vs) := by
  unfold Core.addBlk
  refine .ite (.refl c) (.ite (c.keeps_raise) ?_)
  have read := c.keeps_xRead (base + x.cntOff i) 2
  split
  · next heq => exact read.of_snd heq
  · next b heq =>
    refine .trans (read.of_snd heq) (.after (Core.keeps_put _ _ _) ?_)
    exact .ite (b.keeps_put _ _) (b.keeps_addPiece _ _)

theorem Core.keeps_addBlks (c : Core) (base : Nat) (x : HodRow) (first : Nat) (bs : List (List Num)) :
    c.Keeps (c.addBlks base x first bs) :=
  Core.keeps_foldl _ (fun c (p : List Num × Nat) => c.keeps_addBlk base x (first + p.2) p.1) _ _

theorem Core.keeps_closeReads (c : Core) (h : Nat) : c.Keeps (c.closeReads h).2 := by
  unfold Core.closeReads
  have row : c.Keeps (c.readHod h).2 := c.keeps_xRead _ _
  split
  · next heq => exact row.of_snd heq
  · next b heq =>
    refine .trans (row.of_snd heq) ?_
    have slot : b.Keeps (match b.slot? h with
        | some a => b.xRead (b.slotBase a) (b.hod h).stateOff
        | none => (true, b)).2 := by
      split
      · exact b.keeps_xRead _ _
      · exact .refl b
    dsimp only
    split
    · next heq => exact slot.of_snd heq
    · next b' heq =>
      refine .trans (slot.of_snd heq) ?_
      split
      · exact b'.keeps_xRead _ _
      · exact .refl b'

theorem Core.keeps_closeHod (c : Core) (h : Nat) (deadline : Bool) : c.Keeps (c.closeHod h deadline) := by
  unfold Core.closeHod
  have read := c.keeps_closeReads h
  split
  · exact .refl c
  · next heq => exact read.of_snd heq
  · next s b hs heq =>
    refine .trans (read.of_snd heq) ?_
    dsimp only
    refine .after (Core.keeps_foldl _ (fun c t => c.keeps_queueImage t _ _ _) _ _) ?_
    refine .after (Core.keeps_setSlot _ _) ?_
    generalize hd : Core.bump _ 0x8880 4 _ = d
    have counted : b.Keeps d := by
      rw [← hd]
      iterate 4 refine .after (Core.keeps_bump _ (by decide) (by decide) _) ?_
      exact b.keeps_countConv _
    refine .trans (.ite (.trans counted (Core.keeps_raiseOnceStep _ rfl ?_ ?_ _)) counted) (.of_parts rfl rfl rfl rfl rfl)
    · exact (by decide : (0 : Nat) < 256)
    · exact (by decide : (0x8020 : Nat) < 65536)

theorem Core.keeps_testHod (c : Core) (h : Nat) : c.Keeps (c.testHod h) := by
  unfold Core.testHod
  split
  · next s a _ _ =>
    refine .ite (.refl c) ?_
    have read := c.keeps_xRead (c.slotBase a + (c.hod h).gotOff 0) 1024
    split
    · next heq => exact read.of_snd heq
    · next b heq => exact .trans (read.of_snd heq) (.ite (b.keeps_closeHod h false) (.refl b))
  · exact .refl c

/-! ### Arrivals (R279, R280) -/

theorem Core.keeps_lateX (c : Core) (m : XMsg) {sub : Nat} (hs : sub = 5 ∨ sub = 6) : c.Keeps (c.lateX m sub).2 := by
  have counted : c.Keeps (c.bump 0x8880 sub 1) := by
    rcases hs with rfl | rfl
    · exact c.keeps_bump (by decide) (by decide) 1
    · exact c.keeps_bump (by decide) (by decide) 1
  exact .trans counted (Core.keeps_raiseOnceStep _ rfl (by decide : (0 : Nat) < 256) (by decide : (0x8021 : Nat) < 65536) _)

theorem Core.keeps_gateX (c : Core) (m : XMsg) : c.Keeps (c.gateX m).2 := by
  unfold Core.gateX
  dsimp only
  split
  · exact .refl c
  split
  · exact .refl c
  split
  · exact c.keeps_lateX m (.inl rfl)
  split
  · exact .refl c
  split
  · exact c.keeps_lateX m (.inr rfl)
  split
  · exact .refl c
  split
  · exact c.keeps_bump (by decide) (by decide) _
  · exact c.keeps_openSlot _

theorem Core.keeps_countBlks (c : Core) (bs : List (Nat × Bool × List Num)) : c.Keeps (c.countBlks bs) := by
  iterate 2 refine .after (Core.keeps_bump _ (by decide) (by decide) _) ?_
  exact c.keeps_bump (by decide) (by decide) _

theorem Core.keeps_addDeposit (c : Core) (m : XMsg) (a : HodAcc) : c.Keeps (c.addDeposit m a) := by
  unfold Core.addDeposit
  dsimp only
  have read := c.keeps_xRead (c.slotBase a + (c.hod m.hod).gotOff m.sender) 4
  split
  · next heq => exact read.of_snd heq
  · next b heq =>
    refine .trans (read.of_snd heq) ?_
    generalize hf : Core.bump _ 0x8880 2 _ = f
    have added : b.Keeps f := by
      rw [← hf]
      refine .after (Core.keeps_bump _ (by decide) (by decide) _) (.after (Core.keeps_countBlks _ _) ?_)
      exact .after (Core.keeps_setSlot _ _) (.after (Core.keeps_put _ _ _) (b.keeps_addBlks _ _ _ _))
    have excess := added.trans (f.keeps_bump (i := 0x8880) (u := 0x13) (by decide) (by decide) 1)
    exact .ite (.ite excess (.trans excess (Core.keeps_xEv _ (by decide) (by decide) _ _ _))) added

/-! ### Ring hops (R284 to R286) -/

theorem Core.keeps_ringForward (c : Core) (s : StepSlot) (a : HodAcc) (i contribs : Nat) (inn : Option RingIn)
    (vs : List Num) : c.Keeps (c.ringForward s a i contribs inn vs) := by
  unfold Core.ringForward
  dsimp only
  generalize hf : Core.queueOut _ _ _ _ = f
  have sent : c.Keeps f := by
    rw [← hf]
    refine .after (Core.keeps_queueOut _ _ _ _ _) (.after (Core.keeps_setSlot _ _) ?_)
    exact .after (Core.keeps_bump _ (by decide) (by decide) _) (c.keeps_countConv _)
  exact .ite (.trans sent (Core.keeps_xEv _ (by decide) (by decide) _ _ _)) sent

theorem Core.keeps_hopReads (c : Core) (a : HodAcc) (i : Nat) (first : Bool) : c.Keeps (c.hopReads a i first).2 := by
  unfold Core.hopReads
  dsimp only
  have count := c.keeps_xRead (c.slotBase a + (c.hod a.hod).cntOff i) 2
  split
  · next heq => exact count.of_snd heq
  · next b heq =>
    refine .trans (count.of_snd heq) ?_
    have sums := b.keeps_xRead (c.slotBase a + 128 * i) 128
    split
    · next heq => exact sums.of_snd heq
    · next b' heq =>
      refine .trans (sums.of_snd heq) ?_
      split
      · exact b'.keeps_xRead _ _
      · exact .refl b'

theorem Core.keeps_ringAdvance (c : Core) (s : StepSlot) (h i : Nat) : c.Keeps (c.ringAdvance s h i) := by
  unfold Core.ringAdvance
  split
  · exact .refl c
  · next a _ =>
    dsimp only
    refine .ite (.refl c) ?_
    have read (first : Bool) := c.keeps_hopReads a i first
    split
    · next heq => exact (read _).of_snd heq
    · next b heq =>
      refine .trans ((read _).of_snd heq) ?_
      generalize (if nextOf s.members (ownerIn s.members (c.hod h).owner) == some c.me then none
        else KMap.get? a.ring i) = inn
      have added (t : Nat) : b.Keeps (match inn with
          | some r => b.addPiece t r.vals
          | none => b) := by
        split
        · exact b.keeps_addPiece _ _
        · exact .refl b
      refine .ite ?_ (.after (Core.keeps_ringForward _ _ _ _ _ _ _) (.after (Core.keeps_put _ _ _) (added _)))
      iterate 2 refine .after (Core.keeps_bump _ (by decide) (by decide) _) ?_
      exact .after (Core.keeps_setSlot _ _) (.after (Core.keeps_put _ _ _) (added _))

theorem Core.keeps_ringFinish (c : Core) (s : StepSlot) (h : Nat) : c.Keeps (c.ringFinish s h) := by
  unfold Core.ringFinish
  split
  · exact .refl c
  · refine .ite (.refl c) (.ite (c.keeps_closeHod h false) ?_)
    exact .after (Core.keeps_queueOut _ _ _ _ _) (.of_parts rfl rfl rfl rfl rfl)

theorem Core.keeps_ringTake (c : Core) (h : Nat) (is : List Nat) (f : HodAcc → HodAcc) :
    c.Keeps (c.ringTake h is f) := by
  unfold Core.ringTake
  split
  · next s a _ _ =>
    refine .after (Core.keeps_ringFinish _ _ _) (.after (Core.keeps_foldl _ (fun c i => ?_) _ _) (c.keeps_setSlot _))
    exact c.keeps_ringAdvance s h i
  · exact .refl c

/-! ### Messages of class 1 -/

theorem Core.keeps_ringIn (c : Core) (m : XMsg) : c.Keeps (c.ringIn m).2 := by
  unfold Core.ringIn
  have gate := c.keeps_gateX m
  split
  · next heq => exact gate.of_snd heq
  · next b heq =>
    refine .trans (gate.of_snd heq) ?_
    split
    · exact .refl b
    · exact .trans (b.keeps_countBlks _) (Core.keeps_ringTake _ _ _ _)

theorem Core.keeps_ringEndIn (c : Core) (m : XMsg) : c.Keeps (c.ringEndIn m).2 := by
  unfold Core.ringEndIn
  have gate := c.keeps_gateX m
  split
  · next heq => exact gate.of_snd heq
  · next b heq =>
    refine .trans (gate.of_snd heq) ?_
    split
    · exact .refl b
    · exact b.keeps_ringTake _ _ _

theorem Core.keeps_depositIn (c : Core) (m : XMsg) : c.Keeps (c.depositIn m).2 := by
  unfold Core.depositIn
  have gate := c.keeps_gateX m
  split
  · exact .refl c
  split
  · next heq => exact gate.of_snd heq
  · next b heq =>
    refine .trans (gate.of_snd heq) ?_
    split
    · exact .refl b
    split
    · exact .after (Core.keeps_ringTake _ _ _ _) (.after (Core.keeps_countBlks _ _) (b.keeps_addBlks _ _ _ _))
    · exact .trans (b.keeps_addDeposit _ _) (Core.keeps_testHod _ _)

theorem Core.keeps_endIn (c : Core) (m : XMsg) : c.Keeps (c.endIn m).2 := by
  unfold Core.endIn
  have gate := c.keeps_gateX m
  split
  · exact .refl c
  split
  · next heq => exact gate.of_snd heq
  · next b heq =>
    refine .trans (gate.of_snd heq) ?_
    split
    · exact .refl b
    · exact .trans (b.keeps_setSlot _) (Core.keeps_testHod _ _)

theorem Core.keeps_takeX (c : Core) (m : XMsg) : c.Keeps (c.takeX m).2 := by
  unfold Core.takeX
  have row : c.Keeps (c.readHod m.hod).2 := c.keeps_xRead _ _
  split
  · exact .refl c
  split
  · next heq => exact row.of_snd heq
  · next b heq =>
    refine .trans (row.of_snd heq) ?_
    split
    · exact b.keeps_depositIn m
    · exact b.keeps_endIn m
    · exact b.keeps_ringIn m
    · exact b.keeps_ringEndIn m
    · exact b.keeps_imageIn m
    · exact .refl b

/-! ### The send buffers (R278, R302) -/

theorem Core.keeps_setOut (c : Core) (os : List OutMsg) : c.Keeps (c.setOut os) := .of_parts rfl rfl rfl rfl rfl

theorem Core.keeps_readOut (c : Core) (i : Nat) (o : OutMsg) : c.Keeps (c.readOut i o).2 := by
  unfold Core.readOut
  have asked := (c.accesses_inject 0x0E o.die 0).keeps fun hp => hp.inject 0x0E o.die 0
  split
  · next heq => exact asked.of_snd heq
  · next p b heq =>
    refine .trans (asked.of_snd heq) ?_
    split
    · exact b.keeps_bump (by decide) (by decide) _
    · dsimp only
      refine .after (Core.keeps_raise _ rfl ?_ ?_) (.of_parts rfl rfl rfl rfl rfl)
      · exact (by decide : (0 : Nat) < 256)
      · exact (by decide : (0x8050 : Nat) < 65536)

theorem Core.keeps_handOwn (c : Core) (i : Nat) (o : OutMsg) (t : Nat) : c.Keeps (c.handOwn i o t) := by
  unfold Core.handOwn
  have read := c.keeps_readOut i o
  split
  · next heq => exact read.of_snd heq
  · next b heq =>
    refine .trans (read.of_snd heq) ?_
    have taken := (b.keeps_setOut (b.xch.out.set i { o with tag := some t, again := true })).trans
      (Core.keeps_takeX _ o.msg)
    exact .ite taken (.trans taken (Core.keeps_setOut _ _))

theorem Core.keeps_handPeer (c : Core) (i : Nat) (o : OutMsg) (t : Nat) : c.Keeps (c.handPeer i o t) := by
  unfold Core.handPeer
  have read := c.keeps_readOut i o
  split
  · next heq => exact read.of_snd heq
  · next b heq =>
    refine .trans (read.of_snd heq) ?_
    split
    · next heq =>
      exact .trans ((Core.posts_send heq).keeps (Core.send_ended heq)) (.of_parts rfl rfl rfl rfl rfl)
    · exact b.keeps_setOut _

theorem Core.keeps_handMany (c : Core) (local_ : Bool) (n : Nat) : c.Keeps (c.handMany local_ n) := by
  induction n generalizing c with
  | zero => exact .refl c
  | succ n ih =>
    unfold Core.handMany
    split
    · next b heq =>
      refine .trans ?_ (ih b)
      unfold Core.handOne at heq
      split at heq
      · split at heq
        · cases heq
          exact .ite (c.keeps_handOwn _ _ _) (c.keeps_handPeer _ _ _)
        · cases heq
      · cases heq
    · exact .refl c

/-- Handing over what waits ends no request. -/
theorem Core.settle_ended (c : Core) : c.settle.links.ended = c.links.ended := by
  have read : (c.sysRead sysExchange).links = c.links := c.sysRead_links _
  have cmds (l : List (Nat × XCmd)) (b : Core) :
      (l.foldl (fun (c : Core) w => c.handCmd w.1 w.2) b).links.ended = b.links.ended :=
    (Core.keeps_foldl _ (fun c (w : Nat × XCmd) => c.keeps_handCmd w.1 w.2) l b).ended
  have clocked (b : Core) : b.clockTags.links = b.links := by
    unfold Core.clockTags
    dsimp only
    split
    · split <;> rfl
    · split
      · rfl
      · exact Core.bump_links _ _ _ _
  unfold Core.settle
  dsimp only
  rw [clocked, cmds]
  dsimp only
  rw [(Core.keeps_handMany _ _ _).ended, (Core.keeps_handMany _ _ _).ended, read]

end Sys2Proof.Machine
end

section
/-! SUPPORT. The leader's votes and what it makes of them (R289, R290): O42. -/

namespace Sys2Proof.Machine

/-! ### The leader's record through commits and aborts -/

theorem Core.commitStep_lead (c : Core) (cset : List Nat) : (c.commitStep cset).xch.lead = c.xch.lead := by
  cases hs : c.stp.head with
  | none =>
    unfold Core.commitStep
    rw [hs]
  | some s =>
    obtain ⟨-, -, -, -, -, -, -, -, -, xch, -⟩ := Core.commitStep_commits hs cset
    rw [xch]

theorem Core.applyHeld_lead (c : Core) : c.applyHeld.xch.lead = c.xch.lead := by
  unfold Core.applyHeld
  split
  · split
    · exact Core.commitStep_lead _ _
    · rfl
  · rfl

theorem Core.raise_xch (c : Core) {v : Ev} (h : v.d = none) : (c.raise v).xch = c.xch := (c.accesses_raise v h).xch

theorem Core.takeCommit_lead (c : Core) (k : Commit) (own : Bool) : (c.takeCommit k own).xch.lead = c.xch.lead := by
  unfold Core.takeCommit
  dsimp only
  split
  · rfl
  split
  · exact Core.applyHeld_lead _
  split
  · rw [Core.raise_xch _ rfl]
  split
  · rfl
  split
  · rw [Core.raise_xch _ rfl]
  · rw [Core.applyHeld_lead]
    dsimp only [Core.noteCommit, Core.bump_xch]
    split
    · rfl
    · rw [(c.posts_sendCmds _ _).same]

theorem Core.takeAbandon_lead (c : Core) (step : Nat) (silent : List Nat) (timeout : Bool) :
    (c.takeAbandon step silent timeout).xch.lead = c.xch.lead := by
  have head : (c.abandonHead step timeout).xch.lead = c.xch.lead := by
    unfold Core.abandonHead
    split
    · rfl
    split
    · dsimp only
      split
      · rw [Core.raise_xch _ rfl, Core.raise_xch _ rfl]; rfl
      · rw [Core.raise_xch _ rfl]; rfl
    · rfl
  unfold Core.takeAbandon Core.takeSilent
  generalize c.abandonHead step timeout = b at head ⊢
  dsimp only
  generalize hn : (if silent.isEmpty = true then b else _) = n
  have named : n.xch.lead = c.xch.lead := by
    rw [← hn, ← head]
    split <;> rfl
  split
  · exact named
  split
  · exact named
  · exact named

/-! ### Votes (R289) -/

section
variable {c c' : Core} (h : c.Posts c')
include h

theorem Core.Posts.lead : c'.xch.lead = c.xch.lead := by rw [h.same]
theorem Core.Posts.membersFor (step : Nat) : c'.membersFor step = c.membersFor step := by rw [h.same]; rfl

end

/-- The leader's record with a member's VOTE, or its NOVOTE. -/
def Leader.counted (l : Leader) (now member : Nat) (good : Bool) : Leader :=
  if good then { l with windowAt := some (l.windowAt.getD now), votes := member :: l.votes }
  else { l with windowAt := some (l.windowAt.getD now), novotes := member :: l.novotes }

theorem Leader.counted_step (l : Leader) (now member : Nat) (good : Bool) : (l.counted now member good).step = l.step := by
  unfold Leader.counted
  split <;> rfl

/-- Nobody else's vote is counted with it. -/
theorem Leader.not_mem_counted {l : Leader} {m member : Nat} (ne : m ≠ member) (hv : m ∉ l.votes) (hn : m ∉ l.novotes)
    (now : Nat) (good : Bool) : m ∉ (l.counted now member good).votes ∧ m ∉ (l.counted now member good).novotes := by
  unfold Leader.counted
  split
  · exact ⟨List.not_mem_cons_of_ne_of_not_mem ne hv, hn⟩
  · exact ⟨hv, List.not_mem_cons_of_ne_of_not_mem ne hn⟩

/-- A member that has sent neither keeps the leader waiting. -/
theorem Core.leadDone_waits {c : Core} {m : Nat} (hm : m ∈ c.membersFor c.xch.lead.step) (hv : m ∉ c.xch.lead.votes)
    (hn : m ∉ c.xch.lead.novotes) : c.leadDone = false := by
  unfold Core.leadDone
  rw [List.all_eq_false]
  exact ⟨m, hm, by simp [hv, hn]⟩

/-- A vote of the leader's step counts: as a vote where it carries the leader's own CRCs, else as a NOVOTE; and nothing
more while another member's is missing. -/
theorem Core.leadVote_counts {c : Core} {member hodCrc memberCrc : Nat} (novote : Bool)
    (leader : leaderOf (c.membersFor c.xch.lead.step) = some c.me) (hm : member ∈ c.membersFor c.xch.lead.step)
    (undecided : c.xch.lead.decided = false) (hv : member ∉ c.xch.lead.votes) (hn : member ∉ c.xch.lead.novotes)
    (other : ∃ m ∈ c.membersFor c.xch.lead.step, m ≠ member ∧ m ∉ c.xch.lead.votes ∧ m ∉ c.xch.lead.novotes) :
    let good := !novote && (hodCrc == c.obj 0x8010 3 && memberCrc == membershipCrc (c.membersFor c.xch.lead.step))
    let t := c.leadVote c.xch.lead.step member novote hodCrc memberCrc
    t.xch.lead = c.xch.lead.counted c.now member good ∧ t.mem = c.mem ∧ t.stp = c.stp := by
  intro good
  have choice : (novote || !novote && (hodCrc != c.obj 0x8010 3 ||
      memberCrc != membershipCrc (c.membersFor c.xch.lead.step))) = !good := by
    cases novote <;> simp [good, bne]
  unfold Core.leadVote
  simp only [if_true, older_self, leader, hm, undecided, hv, hn, Bool.and_false, Bool.false_eq_true, ne_eq, not_true,
    List.contains_eq_mem, decide_true, decide_false, Bool.not_true, or_self, if_false, choice]
  generalize hb : (if (!novote && _) = true then c.raise _ else c) = b
  have logged : c.Logged b := by
    rw [← hb]
    split
    · exact c.logged_raise _ rfl
    · exact .refl c
  generalize hl : (if (!good) = true then _ else _ : Leader) = l
  have counts : l = c.xch.lead.counted c.now member good := by
    rw [← hl, show b.now = c.now by rw [logged]]
    unfold Leader.counted
    rw [undecided]
    cases good
    · rfl
    · rfl
  have waits : (b.setLead l).leadDone = false := by
    obtain ⟨m, mem, ne, noVote, noNovote⟩ := other
    have members : (b.setLead l).membersFor l.step = c.membersFor l.step := by rw [logged]; rfl
    obtain ⟨noVote, noNovote⟩ := Leader.not_mem_counted ne noVote noNovote c.now good
    rw [← counts] at noVote noNovote
    refine Core.leadDone_waits (c := b.setLead l) (m := m) ?_ noVote noNovote
    change m ∈ (b.setLead l).membersFor l.step
    rw [members, counts, Leader.counted_step]
    exact mem
  rw [waits]
  exact ⟨counts, by rw [logged]; rfl, by rw [logged]; rfl⟩

/-! ### The end of the window (R290) -/

theorem Core.leadCommit_decided (c : Core) (cset : List Nat) : (c.leadCommit cset).xch.lead.decided = true := by
  unfold Core.leadCommit
  dsimp only
  rw [Core.takeCommit_lead, (Core.posts_sendCmds _ _ _).lead]

/-- A majority with no rejoin under way: COMMIT goes to every member of the step, whose close the leader awaits. -/
theorem Core.leadCommit_commits {c : Core} (back : c.xch.back = none) (cset : List Nat) :
    let l := c.xch.lead
    let t := c.leadCommit cset
    ({ step := l.step, c := cset, listeners := [] } : Closing) ∈ t.xch.lead.closing ∧
      ∀ m ∈ c.membersFor l.step, m ≠ c.me → t.sentTo m (.commit l.step cset [] [] ((l.step + 1) % 2 ^ 32)) := by
  unfold Core.leadCommit
  rw [back]
  dsimp only
  rw [List.append_nil, Core.takeCommit_lead, (Core.posts_sendCmds _ _ _).lead]
  refine ⟨List.mem_append_right _ (List.mem_singleton_self _), fun m hm hne => ?_⟩
  exact (Core.keeps_takeCommit _ _ _).sent (Core.sendCmds_sentTo _ _ hm hne)

/-- What the window's close decides. -/
theorem Core.leadDecide_decides (c : Core) :
    let l := c.xch.lead
    let ms := c.membersFor l.step
    let cset := meets ms l.votes
    let t := c.leadDecide
    t.xch.lead.decided = true ∧
      (ms.length < 2 * cset.length → c.xch.granted = none → c.xch.back = none →
        ({ step := l.step, c := cset, listeners := [] } : Closing) ∈ t.xch.lead.closing ∧
        ∀ m ∈ ms, m ≠ c.me → t.sentTo m (.commit l.step cset [] [] ((l.step + 1) % 2 ^ 32))) ∧
      (2 * cset.length ≤ ms.length → ∀ m ∈ ms, m ≠ c.me →
        t.sentTo m (.abandon l.step (minus ms (l.votes ++ l.novotes)))) := by
  intro l ms cset t
  have ht : t = c.leadDecide := rfl
  unfold Core.leadDecide at ht
  dsimp only at ht
  by_cases majority : ms.length < 2 * cset.length
  · rw [if_pos majority] at ht
    generalize hb : c.bump 0x8880 0x11 (ms.length - cset.length) = b at ht
    obtain ⟨xch, members, me⟩ : b.xch = c.xch ∧ b.membersFor l.step = ms ∧ b.me = c.me := by
      rw [← hb]
      exact ⟨Core.bump_xch _ _ _ _, rfl, Core.obj_bump_ne _ _ (by decide)⟩
    refine ⟨?_, fun _ granted back => ?_, fun few => absurd majority (by omega)⟩
    · rw [ht]
      split_ifs
      · rfl
      · exact Core.leadCommit_decided _ _
    · obtain ⟨awaited, sent⟩ := Core.leadCommit_commits (c := b) (by rw [xch]; exact back) cset
      rw [xch] at awaited sent
      rw [xch, granted] at ht
      rw [ht]
      exact ⟨awaited, fun m hm hne => sent m (members ▸ hm) (me ▸ hne)⟩
  · rw [if_neg majority] at ht
    refine ⟨?_, fun many => absurd many majority, fun _ m hm hne => ?_⟩
    · rw [ht, Core.takeAbandon_lead, (Core.posts_sendCmds _ _ _).lead]
      rfl
    · rw [ht]
      exact (Core.keeps_takeAbandon _ _ _ _).sent (Core.sendCmds_sentTo (c.setLead _) _ hm hne)

/-! ### The commands -/

/-- A member that has not voted in time sends NOVOTE to its leader. -/
theorem Core.castVote_novote {c : Core} {h : StepSlot} {to_ : Nat} (hh : c.stp.head = some h)
    (hv : c.xch.voted = false) (hl : leaderOf h.members = some to_) (hne : to_ ≠ c.me) :
    let t := c.castVote false
    t.xch.voted = true ∧ t.mem = c.mem ∧ t.stp = c.stp ∧
      t.sentTo to_ (.novote h.step c.me ((List.range c.hodCount).filter fun k => c.heldFor k h.step).length) := by
  unfold Core.castVote
  rw [hh]
  dsimp only
  rw [hl]
  dsimp only
  rw [if_neg (by rw [hv]; decide)]
  generalize hb : ({ c with xch := { c.xch with voted := true } } : Core) = b
  obtain ⟨me, mem, stp, voted⟩ : b.me = c.me ∧ b.mem = c.mem ∧ b.stp = c.stp ∧ b.xch.voted = true := by
    subst hb
    exact ⟨rfl, rfl, rfl, rfl⟩
  have held : (fun k => b.heldFor k h.step) = fun k => c.heldFor k h.step := by
    subst hb
    rfl
  have hods : b.hodCount = c.hodCount := by
    subst hb
    rfl
  rw [me, if_neg hne, if_neg (by decide), held, hods]
  have posts := b.posts_sendCmd to_
    (.novote h.step c.me ((List.range c.hodCount).filter fun k => c.heldFor k h.step).length)
  refine ⟨by rw [posts.same]; exact voted, posts.mem.trans mem, posts.stp.trans stp, ?_⟩
  unfold Core.sendCmd
  rw [me, if_neg hne]
  exact Core.handCmd_sentTo _ _ _

/-- A vote is answered and counted, and what waits is handed over. -/
theorem voteReceived_runs {s : State} (ha : s.awake) (hd : exServes s.dev = true) (step member : Nat) (novote : Bool)
    (hodCrc memberCrc : Nat) :
    exec (.voteReceived step member novote hodCrc memberCrc) s = .next (finish s.dev
      ((s.core.answerX member 0 none).leadVote step member novote hodCrc memberCrc).settle s.pending) := by
  refine (?_ : execVoteReceived step member novote hodCrc memberCrc s = _)
  unfold execVoteReceived
  rw [lift_awake _ _ ha, Core.inCmd_serves _ hd]

/-- The vote window closes. -/
theorem voteWindowExpiry_runs {s : State} (ha : s.awake) (hd : exServes s.dev = true)
    (hw : s.core.xch.lead.windowAt.isSome = true) (hu : s.core.xch.lead.decided = false) :
    exec .voteWindowExpiry s = .next (finish s.dev s.core.leadDecide.settle s.pending) := by
  refine (?_ : execVoteWindowExpiry s = _)
  unfold execVoteWindowExpiry
  rw [lift_awake _ _ ha]
  dsimp only
  rw [hd, hw, hu]
  rfl

theorem novoteTimeout_runs {s : State} {h : StepSlot} (ha : s.awake) (hd : exServes s.dev = true)
    (hh : s.core.stp.head = some h) :
    exec .novoteTimeout s = .next (finish s.dev (s.core.castVote false).settle s.pending) := by
  refine (?_ : execNovoteTimeout s = _)
  unfold execNovoteTimeout
  rw [lift_awake _ _ ha]
  rw [hd, hh]
  rfl

/-- Settles O42: a vote is counted in the leader's record as answered (`Core.leadVote_counts`), the window's close is
`Core.leadDecide_decides`, whose messages stay sent through the COMMIT or ABANDON that the leader then takes itself
(`Core.Keeps`), and a member that is late sends NOVOTE (`Core.castVote_novote`). -/
theorem votesDecide : Obligations.VotesDecide := by
  unfold Obligations.VotesDecide
  intro s step member hodCrc memberCrc novote ha hd c l ms
  refine ⟨?_, ?_, fun h to_ hh hv hl hne => ?_⟩
  · intro leader hm hstep undecided hv hn other good
    have post := c.posts_answerX member 0 none
    refine ⟨_, voteReceived_runs ha hd step member novote hodCrc memberCrc, ?_⟩
    change ∃ m ∈ ms, m ≠ member ∧ m ∉ l.votes ∧ m ∉ l.novotes at other
    generalize s.core.answerX member 0 none = a at post ⊢
    have lead : a.xch.lead = l := post.lead
    have members : a.membersFor l.step = ms := post.membersFor _
    have counts := Core.leadVote_counts (c := a) (member := member) (hodCrc := hodCrc) (memberCrc := memberCrc) novote
      (by rw [lead, members, post.me]; exact leader) (by rw [lead, members]; exact hm) (by rw [lead]; exact undecided)
      (by rw [lead]; exact hv) (by rw [lead]; exact hn) (by rw [lead, members]; exact other)
    rw [lead, members, post.exch 0x8010 3 (by decide) (by decide), post.now, post.mem, post.stp, hstep] at counts
    obtain ⟨counted, mem, stp⟩ := counts
    have good_iff : (!novote && (hodCrc == c.obj 0x8010 3 && memberCrc == membershipCrc ms)) = true ↔ good := by
      simp [good]
    refine ⟨fun hg => ?_, fun hg => ?_, mem, stp⟩
    · rw [counted, good_iff.2 hg]
      rfl
    · rw [counted, Bool.eq_false_iff.2 fun t => hg (good_iff.1 t)]
      rfl
  · intro hw hu cset
    obtain ⟨decided, commits, abandons⟩ := Core.leadDecide_decides c
    exact ⟨_, voteWindowExpiry_runs ha hd hw hu, decided, commits, abandons⟩
  · exact ⟨_, novoteTimeout_runs ha hd hh, Core.castVote_novote hh hv hl hne⟩

end Sys2Proof.Machine
end

section
/-! SUPPORT. The rejoin, from its request to DONE or to the end of its hold (R298 to R301): O45. -/

namespace Sys2Proof.Machine

/-! ### The request (R298, R300) -/

theorem Core.sendCmd_sentTo {c : Core} {to_ : Nat} (hne : to_ ≠ c.me) (x : XCmd) : (c.sendCmd to_ x).sentTo to_ x := by
  unfold Core.sendCmd
  rw [if_neg hne]
  exact c.handCmd_sentTo to_ x

/-- A rejoiner asks another member. -/
theorem Core.rejoinLeader_ne_me {c : Core} {l : Nat} (h : c.rejoinLeader = some l) : l ≠ c.me := by
  have mem := List.mem_of_head? h
  rintro rfl
  simp [minus] at mem

theorem Core.posts_sendRejoin (c : Core) : c.Posts c.sendRejoin := by
  unfold Core.sendRejoin
  split
  · exact c.posts_sendCmd _ _
  · exact .refl c

theorem Core.sendRejoin_sentTo {c : Core} {l : Nat} (h : c.rejoinLeader = some l) :
    c.sendRejoin.sentTo l (.rejoinReq c.me c.xch.lastClosed) := by
  unfold Core.sendRejoin
  rw [h]
  exact Core.sendCmd_sentTo (Core.rejoinLeader_ne_me h) _

/-- The write to 0x8050:00 that is granted asks the leader. -/
theorem rejoinRequest_granted {c : Core} {src : Src} {dev : Dev} (hr : c.reach dev src 0x8050 0 true = true)
    (hb : directBad src 0x8050 0 = false)
    (hd : (dev = .faultStop ∧ c.log.cleared = true) ∨ (dev = .ready ∧ c.stp.openedSinceBoot = false)) :
    rejoinRequest src dev c =
      ({ c with xch := { c.xch with asked := true } } : Core).sendRejoin.answer src 0x8050 0 stOk := by
  have ok : ((dev == .faultStop && c.log.cleared) || (dev == .ready && !c.stp.openedSinceBoot)) = true := by
    rcases hd with ⟨rfl, h⟩ | ⟨rfl, h⟩
    · rw [h]; rfl
    · rw [h]; rfl
  unfold rejoinRequest
  rw [hr, hb, ok]
  rfl

/-- What a member makes of a request: the leader keeps it, another one that may ask forwards it. -/
def Core.takeRejoinReq (c : Core) (dev : Dev) (member last : Nat) : Core :=
  match leaderOf c.xch.next with
  | none => c
  | some l =>
    if l = c.me then
      { c with xch := { c.xch with reqs := (c.xch.reqs.filter fun p => p.1 != member) ++ [(member, last)] } }
    else if c.mayAsk dev then c.sendCmd l (.rejoinReq member last) else c

theorem execRejoinReqReceived_eq (member last : Nat) (s : State) :
    execRejoinReqReceived member last s =
      lift (fun dev c => c.inRejoin dev member fun c => c.takeRejoinReq dev member last) s := rfl

/-- The commands that receive and repeat a request. -/
theorem rejoinReqReceived_runs {s : State} (ha : s.awake) (member last : Nat) :
    exec (.rejoinReqReceived member last) s = .next (finish s.dev
      (s.core.inRejoin s.dev member fun c => c.takeRejoinReq s.dev member last) s.pending) := by
  refine (?_ : execRejoinReqReceived member last s = _)
  rw [execRejoinReqReceived_eq, lift_awake _ _ ha]

theorem rejoinReqResend_runs {s : State} (ha : s.awake) (hd : s.dev = .ready) (hasked : s.core.xch.asked = true)
    (hg : s.core.xch.grant = none) : exec .rejoinReqResend s = .next (finish s.dev s.core.sendRejoin s.pending) := by
  refine (?_ : execRejoinReqResend s = _)
  unfold execRejoinReqResend
  rw [lift_awake _ _ ha, if_pos ⟨hd, hasked, by rw [hg]; rfl⟩]

theorem Core.takeRejoinReq_keeps {c : Core} (h : leaderOf c.xch.next = some c.me) (dev : Dev) (member last : Nat) :
    (member, last) ∈ (c.takeRejoinReq dev member last).xch.reqs := by
  unfold Core.takeRejoinReq
  rw [h]
  dsimp only
  rw [if_pos rfl]
  exact List.mem_append_right _ (List.mem_singleton_self _)

/-- Where the exchange works, the request is kept or sent on; memory and the step slots stay. -/
theorem Core.takeRejoinReq_serves {c : Core} {dev : Dev} {l : Nat} (hd : exServes dev = true)
    (hl : leaderOf c.xch.next = some l) (member last : Nat) :
    let t := c.takeRejoinReq dev member last
    t.mem = c.mem ∧ t.stp = c.stp ∧ (l ≠ c.me → t.sentTo l (.rejoinReq member last)) := by
  unfold Core.takeRejoinReq
  rw [hl]
  dsimp only
  by_cases hm : l = c.me
  · rw [if_pos hm]
    exact ⟨rfl, rfl, fun hne => absurd hm hne⟩
  · rw [if_neg hm, if_pos (by unfold Core.mayAsk; rw [hd]; rfl)]
    have posts := c.posts_sendCmd l (.rejoinReq member last)
    exact ⟨posts.mem, posts.stp, fun _ => Core.sendCmd_sentTo hm _⟩

/-- A rejoin message is answered where the exchange has stopped too. -/
theorem Core.inRejoin_stopped (c : Core) {dev : Dev} (h : dev = .faultStop ∨ dev = .rejoin) (from_ : Nat)
    (f : Core → Core) : c.inRejoin dev from_ f = f (c.answerX from_ 0 none) := by
  unfold Core.inRejoin
  rw [if_pos h]

theorem Core.inRejoin_serves (c : Core) {dev : Dev} (h : exServes dev = true) (from_ : Nat) (f : Core → Core) :
    c.inRejoin dev from_ f = (f (c.answerX from_ 0 none)).settle := by
  unfold Core.inRejoin
  rw [if_neg (by rintro (rfl | rfl) <;> exact absurd h (by decide)), c.inCmd_serves h]

/-! ### The grant (R298): the reads begin -/

/-- What a rejoiner's reads leave of the grant, the contributions and the steps. -/
structure Core.Pulls (c c' : Core) : Prop where
  stp : c'.stp = c.stp
  grant : c'.xch.grant = c.xch.grant
  granter : c'.xch.granter = c.xch.granter
  pulled : c'.xch.pulled = c.xch.pulled
  slots : c'.xch.slots = c.xch.slots

theorem Core.Pulls.refl (c : Core) : c.Pulls c := ⟨rfl, rfl, rfl, rfl, rfl⟩

theorem Core.Pulls.trans {a b c : Core} (h : a.Pulls b) (k : b.Pulls c) : a.Pulls c where
  stp := k.stp.trans h.stp
  grant := k.grant.trans h.grant
  granter := k.granter.trans h.granter
  pulled := k.pulled.trans h.pulled
  slots := k.slots.trans h.slots

theorem Core.Posts.pulls {c c' : Core} (h : c.Posts c') : c.Pulls c' where
  stp := h.stp
  grant := by rw [h.same]
  granter := by rw [h.same]
  pulled := by rw [h.same]
  slots := by rw [h.same]

theorem Core.pulls_sendUnder (c : Core) (w : TagWait) (t : Nat) : c.Pulls (c.sendUnder w t) := by
  have sent (fs : List Flit) : c.Pulls (c.sendOrDrop fs) := by
    have all {fs : List Flit} {c c' : Core} (h : c.sendAll fs = some c') : c.Pulls c' := by
      induction fs generalizing c with
      | nil => cases h; exact .refl _
      | cons x fs ih =>
        unfold Core.sendAll at h
        cases hx : c.send x with
        | none => rw [hx] at h; cases h
        | some b => rw [hx] at h; exact (Core.posts_send hx).pulls.trans (ih h)
    unfold Core.sendOrDrop
    cases h : c.sendAll fs with
    | none => exact Core.Pulls.refl c
    | some c' => exact all h
  unfold Core.sendUnder
  split
  · exact ⟨rfl, rfl, rfl, rfl, rfl⟩
  · exact (sent _).trans ⟨rfl, rfl, rfl, rfl, rfl⟩

theorem Core.pulls_sendRd {c c' : Core} {cls dest addr len : Nat} {use : TxnUse}
    (h : c.sendRd cls dest addr len use = some c') : c.Pulls c' := by
  unfold Core.sendRd Core.ask at h
  split at h
  · cases h
  split at h
  · cases h; exact c.pulls_sendUnder _ _
  · cases h; exact ⟨rfl, rfl, rfl, rfl, rfl⟩

theorem Core.pulls_pullGo (c : Core) (n : Nat) : c.Pulls (c.pullGo n) := by
  induction n generalizing c with
  | zero => exact .refl c
  | succ n ih =>
    unfold Core.pullGo
    split
    · split
      · exact .refl c
      dsimp only
      split
      · exact .refl c
      · next hs =>
        refine .trans (Core.pulls_sendRd hs) (.trans ?_ (ih _))
        exact ⟨rfl, rfl, rfl, rfl, rfl⟩
    · exact .refl c

/-- Before the areas are read no image is. -/
theorem Core.pulls_pullNext {c : Core} (h : c.xch.pullImages = false) (s : Nat) : c.Pulls (c.pullNext s) := by
  unfold Core.pullNext
  split
  · exact .refl c
  · dsimp only
    rw [h]
    exact ⟨rfl, rfl, rfl, rfl, rfl⟩

theorem Core.pulls_pullWork {c : Core} (h : c.xch.pullImages = false) (dev : Dev) : c.Pulls (c.pullWork dev) := by
  unfold Core.pullWork
  split
  · split
    · exact (Core.pulls_pullNext h _).trans (Core.pulls_pullGo _ _)
    · exact .refl c
  · exact .refl c

/-- The rejoiner as GRANT leaves it. -/
def Core.takeGrant (c : Core) (leader r source v : Nat) : Core :=
  let c := c.enterRejoin r source v
  (({ c with xch := { c.xch with granter := leader } } : Core).pullWork .rejoin).raise (xEv 0x8040 0 0 source 0)

/-- A grant to this member, which has asked, is taken. -/
theorem grantReceived_runs {s : State} (ha : s.awake) (hasked : s.core.xch.asked = true)
    (hd : (s.dev = .faultStop ∧ s.core.log.cleared = true) ∨ (s.dev = .ready ∧ s.core.stp.openedSinceBoot = false))
    (leader r source v : Nat) :
    exec (.grantReceived leader r source s.core.me v) s =
      .next (finish .rejoin ((s.core.answerX leader 0 none).takeGrant leader r source v) s.pending) := by
  refine (?_ : execGrantReceived leader r source s.core.me v s = _)
  unfold execGrantReceived
  rw [liftDev_awake _ _ ha]
  have post := s.core.posts_answerX leader 0 none
  have taken : s.core.me = (s.core.answerX leader 0 none).me ∧ (s.core.answerX leader 0 none).xch.asked = true ∧
      ((s.dev = .faultStop ∧ (s.core.answerX leader 0 none).log.cleared = true) ∨
        (s.dev = .ready ∧ (!(s.core.answerX leader 0 none).stp.openedSinceBoot) = true)) := by
    refine ⟨post.me.symm, ?_, ?_⟩
    · rw [Core.answerX_asked, hasked]
    · rw [Core.answerX_log, Core.answerX_stp, Bool.not_eq_true']
      exact hd
  dsimp only
  rw [if_pos taken]
  rfl

theorem Core.takeGrant_rejoins (c : Core) (leader r source v : Nat) :
    let t := c.takeGrant leader r source v
    t.xch.grant = some (r, source, v) ∧ t.xch.granter = leader ∧ t.xch.pulled = 0 ∧ t.xch.slots = [] ∧
      t.stp.isOpen = false ∧ t.stp.head = none ∧ t.stp.tail = none ∧ (t.bank 0).state = 0 ∧ (t.bank 1).state = 0 := by
  unfold Core.takeGrant
  dsimp only
  generalize he : ({ c.enterRejoin r source v with
    xch := { (c.enterRejoin r source v).xch with granter := leader } } : Core) = e
  have entered : e.xch.pullImages = false ∧ e.xch.grant = some (r, source, v) ∧ e.xch.granter = leader ∧
      e.xch.pulled = 0 ∧ e.xch.slots = [] ∧ e.stp.isOpen = false ∧ e.stp.head = none ∧ e.stp.tail = none ∧
      (e.bank 0).state = 0 ∧ (e.bank 1).state = 0 := by
    rw [← he]
    exact ⟨rfl, rfl, rfl, rfl, rfl, rfl, rfl, rfl, rfl, rfl⟩
  obtain ⟨images, entered⟩ := entered
  have pulls := Core.pulls_pullWork images .rejoin
  have raised := (e.pullWork .rejoin).accesses_raise (xEv 0x8040 0 0 source 0) rfl
  have stp : ((e.pullWork .rejoin).raise (xEv 0x8040 0 0 source 0)).stp = e.stp := raised.stp.trans pulls.stp
  unfold Core.bank
  rw [raised.xch, stp, pulls.grant, pulls.granter, pulls.pulled, pulls.slots]
  exact entered

/-! ### DONE, and the hold (R298, R299) -/

/-- The pulls are complete. -/
theorem rejoinPullDone_runs {s : State} {r n v : Nat} (ha : s.awake) (hd : s.dev = .rejoin)
    (hg : s.core.xch.grant = some (r, n, v)) (hi : s.core.xch.pullImages = true) (hl : s.core.xch.pullLeft = [])
    (hf : s.core.xch.pullFlight = 0) (held : ∀ h < s.core.hodCount, s.core.heldFor h ((r + 1) % 2 ^ 32) = true) :
    exec .rejoinPullDone s = .next (finish .ready
      ((({ s.core with xch := { s.core.xch with asked := false, pullImages := false } } : Core).sendCmd
        s.core.xch.granter (.done s.core.me)).raise (xEv 0x8042 0 0 s.core.me 0)) s.pending) := by
  refine (?_ : execRejoinPullDone s = _)
  unfold execRejoinPullDone
  rw [liftDev_awake _ _ ha, hg]
  dsimp only
  have complete : (List.range s.core.hodCount).all (fun h => s.core.heldFor h ((r + 1) % 2 ^ 32)) = true :=
    List.all_eq_true.2 fun h hh => held h (List.mem_range.1 hh)
  rw [if_pos ⟨hd, hi, by rw [hl]; rfl, hf, complete⟩]
  rfl

/-- The leader notes the DONE of the member it granted. -/
theorem doneReceived_runs {s : State} {a : Core} {member r : Nat} (ha : s.awake) (hd : exServes s.dev = true)
    (hg : s.core.xch.granted = some (member, r)) (hr : s.core.xch.lead.ready = none)
    (answered : s.core.answerX member 0 none = a) :
    exec (.doneReceived member) s = .next (finish s.dev
      ({ a with xch := { a.xch with granted := none, back := some (member, r) } } : Core).settle s.pending) := by
  have post : s.core.Posts a := answered ▸ s.core.posts_answerX member 0 none
  have granted : a.xch.granted = some (member, r) := by rw [post.same]; exact hg
  have ready : a.xch.lead.ready = none := by rw [post.lead]; exact hr
  refine (?_ : execDoneReceived member s = _)
  unfold execDoneReceived
  rw [lift_awake _ _ ha, Core.inRejoin_serves _ hd, answered, granted]
  dsimp only
  rw [if_neg (fun h => h rfl), ready]

/-- A FAULT_STOP asked for outside OFF takes the device to FAULT_STOP. -/
theorem finish_faulty_of {dev : Dev} {c : Core} (hd : dev ≠ .off) (h : c.Faulty) (q : List Instr) :
    (finish dev c q).dev = .faultStop := by
  obtain ⟨r, hr⟩ := Option.isSome_iff_exists.mp h
  unfold finish
  rw [hr]
  dsimp only
  split
  · next off => exact off.resolve_left hd
  · rfl

/-- An event of class FAULT_STOP, where nothing changes the classes. -/
theorem Core.plainEvents.faulty {c : Core} (h : c.plainEvents) {v : Ev} (hd : v.d = none) (hv : v.own = 3) :
    (c.raise v).Faulty := by
  refine Core.raise_faulty hd ?_
  unfold Core.evClass
  rw [h, hv]
  rfl

theorem rejoinHoldExpiry_rejoiner {s : State} (ha : s.awake) (hd : s.dev = .rejoin) :
    exec .rejoinHoldExpiry s = .next (finish s.dev
      (({ s.core with xch := { s.core.xch with asked := false, grant := none } } : Core).raise
        (xEv 0x8041 3 0 s.core.me 0)) s.pending) := by
  refine (?_ : execRejoinHoldExpiry s = _)
  unfold execRejoinHoldExpiry
  rw [lift_awake _ _ ha, if_pos hd]

theorem rejoinHoldExpiry_leader {s : State} (ha : s.awake) (hd : exServes s.dev = true)
    (hg : s.core.xch.granted.isSome = true) (hr : s.core.xch.lead.ready = none) :
    exec .rejoinHoldExpiry s = .next (finish s.dev
      ({ s.core with xch := { s.core.xch with granted := none } } : Core).settle s.pending) := by
  refine (?_ : execRejoinHoldExpiry s = _)
  unfold execRejoinHoldExpiry
  rw [lift_awake _ _ ha, if_neg (by intro h; rw [h] at hd; exact absurd hd (by decide)), if_pos (by rw [hd, hg]; rfl)]
  dsimp only
  rw [hr]

/-- Settles O45: the requests are `Core.sendRejoin` and `Core.takeRejoinReq` after the answer, the grant is
`Core.takeGrant`, whose first reads touch neither grant nor steps (`Core.Pulls`), and the rest is what the commands say
of the exchange's record. -/
theorem rejoinRuns : Obligations.RejoinRuns := by
  unfold Obligations.RejoinRuns
  intro s src leader member last r v ha c asks
  refine ⟨?request, ?resend, ?received, ?stopped, ?grant, ?pulled, ?done, ?holdRejoiner, ?holdLeader⟩
  case request =>
    intro hr hb hd
    have posts := Core.posts_sendRejoin { c with xch := { c.xch with asked := true } }
    refine ⟨_, (lift_awake _ s ha).trans (by rw [rejoinRequest_granted hr hb hd]), ?_, fun l hl => ?_,
      Core.answer_lastStatus _ _ _ _ _ _, ?_, ?_⟩
    · rw [Core.answer_xch, posts.same]
    · unfold Core.sentTo
      rw [Core.answer_xch]
      exact Core.sendRejoin_sentTo (c := { c with xch := { c.xch with asked := true } }) hl
    · rw [Core.answer_mem, posts.mem]
    · rw [Core.answer_stp, posts.stp]
  case resend =>
    intro hd hasked hg
    exact ⟨_, rejoinReqResend_runs ha hd hasked hg, fun l hl => Core.sendRejoin_sentTo hl, c.posts_sendRejoin.mem,
      c.posts_sendRejoin.stp⟩
  case received =>
    intro hd l hl
    have post := c.posts_answerX member 0 none
    have hl' : leaderOf (c.answerX member 0 none).xch.next = some l := by rw [post.next]; exact hl
    obtain ⟨mem, stp, sent⟩ := Core.takeRejoinReq_serves hd hl' member last
    refine ⟨(c.answerX member 0 none).takeRejoinReq s.dev member last,
      (rejoinReqReceived_runs ha _ _).trans (by rw [Core.inRejoin_serves _ hd]), mem.trans post.mem, stp.trans post.stp,
      fun hm => ?_, fun hm => sent (by rw [post.me]; exact hm)⟩
    exact Core.takeRejoinReq_keeps (by rw [hl', hm, post.me]) _ _ _
  case stopped =>
    intro hd hl
    have post := c.posts_answerX member 0 none
    refine ⟨(c.answerX member 0 none).takeRejoinReq s.dev member last,
      (rejoinReqReceived_runs ha _ _).trans (by rw [Core.inRejoin_stopped _ hd]), ?_⟩
    exact Core.takeRejoinReq_keeps (by rw [post.next, post.me]; exact hl) _ _ _
  case grant =>
    intro hasked hd
    exact ⟨_, grantReceived_runs ha hasked hd leader r member v, Core.takeGrant_rejoins _ _ _ _ _⟩
  case pulled =>
    intro n hd hg hi hl hf held
    refine ⟨_, rejoinPullDone_runs ha hd hg hi hl hf held, ?_⟩
    generalize hb : ({ c with xch := { c.xch with asked := false, pullImages := false } } : Core) = b
    obtain ⟨me, mem, notAsked, count⟩ : b.me = c.me ∧ b.mem = c.mem ∧ b.xch.asked = false ∧
        b.xch.pulled = c.xch.pulled := by
      rw [← hb]
      exact ⟨rfl, rfl, rfl, rfl⟩
    have posts := b.posts_sendCmd c.xch.granter (.done c.me)
    have sent (hne : c.xch.granter ≠ c.me) := Core.sendCmd_sentTo (c := b) (by rw [me]; exact hne) (.done c.me)
    change ((b.sendCmd c.xch.granter (.done c.me)).raise (xEv 0x8042 0 0 c.me 0)).xch.asked = _ ∧ _
    generalize b.sendCmd c.xch.granter (.done c.me) = d at posts sent
    have logged := d.logged_raise (xEv 0x8042 0 0 c.me 0) rfl
    refine ⟨?_, ?_, ?_, fun hne => (d.keeps_xEv (by decide) (by decide) 0 c.me 0).sent (sent hne)⟩
    · rw [logged, posts.same]; exact notAsked
    · rw [logged, posts.same]; exact mem
    · rw [logged, posts.same]; exact count
  case done =>
    intro hd hg hr
    have post := c.posts_answerX member 0 none
    exact ⟨_, doneReceived_runs ha hd hg hr rfl, rfl, rfl, post.mem, post.stp⟩
  case holdRejoiner =>
    intro hd plain
    refine ⟨_, rejoinHoldExpiry_rejoiner ha hd, finish_faulty_of (by rw [hd]; decide) ?_ _⟩
    exact Core.plainEvents.faulty (c := { c with xch := { c.xch with asked := false, grant := none } })
      (plain.of_dict rfl) rfl rfl
  case holdLeader =>
    intro hd hg hr
    exact ⟨_, rejoinHoldExpiry_leader ha hd hg hr, rfl⟩

end Sys2Proof.Machine
end

section
/-! SUPPORT. The fingerprints and the close of a step (R294, R295): O44. -/

namespace Sys2Proof.Machine

/-! ### Excluding members (R275) -/

/-- With no head step no hod is tested. -/
theorem Core.testHod_idle {c : Core} (h : c.stp.head = none) (hod : Nat) : c.testHod hod = c := by
  unfold Core.testHod
  rw [h]

theorem Core.keeps_exclude (c : Core) (ex : List Nat) : c.Keeps (c.exclude ex) := by
  unfold Core.exclude
  dsimp only
  generalize he : Core.modHead _ _ = e
  have left : c.Keeps e := he ▸ .of_parts rfl rfl rfl rfl rfl
  have tested := left.trans (Core.keeps_foldl (fun c (a : HodAcc) => c.testHod a.hod) (fun c a => c.keeps_testHod a.hod)
    e.xch.slots e)
  exact .ite (tested.trans (Core.keeps_leadDecide _)) tested

/-- With no head step only the members of later steps change. -/
theorem Core.exclude_idle {c : Core} (h : c.stp.head = none) (ex : List Nat) :
    (c.exclude ex).stp = c.stp ∧ (c.exclude ex).xch.next = minus c.xch.next ex := by
  unfold Core.exclude
  dsimp only
  generalize he : Core.modHead _ _ = e
  obtain ⟨stp, next⟩ : e.stp = c.stp ∧ e.xch.next = minus c.xch.next ex := by
    rw [← he]
    refine ⟨?_, rfl⟩
    change ({ c.stp with head := c.stp.head.map _ } : StepU) = c.stp
    rw [h, Option.map_none, ← h]
  have idle (l : List HodAcc) : l.foldl (fun c a => c.testHod a.hod) e = e := by
    induction l with
    | nil => rfl
    | cons a l ih => rw [List.foldl_cons, Core.testHod_idle (by rw [stp, h]), ih]
  rw [idle, stp, h]
  exact ⟨stp, next⟩

/-! ### The close of the tail step (R264, R295) -/

theorem Core.accesses_putArea (c : Core) (a : Nat) (bs : List Byte) : c.Accesses (c.putArea a bs) :=
  .ite (.refl c) (c.accesses_put a bs)

theorem Core.keeps_putArea (c : Core) (a : Nat) (bs : List Byte) : c.Keeps (c.putArea a bs) :=
  .ite (.refl c) (c.keeps_put a bs)

theorem Core.keeps_closeStep (c : Core) : c.Keeps c.closeStep := by
  unfold Core.closeStep
  split
  · exact .refl c
  · dsimp only
    refine .after (Core.keeps_bump _ (by decide) (by decide) _) ?_
    generalize hb : (if c.obj 0x7320 1 = 0 then c else _) = b
    have norms : c.Keeps b := hb ▸ .ite (.refl c) (c.keeps_putArea _ _)
    exact .trans norms (.trans (.ite (.refl b) (b.keeps_putArea _ _)) (.of_parts rfl rfl rfl rfl rfl))

/-- Its record is written and the tail slot is free; the exchange's record stays. -/
theorem Core.closeStep_closes (c : Core) :
    c.closeStep.stp.tail = none ∧ c.closeStep.stp.head = c.stp.head ∧ c.closeStep.xch = c.xch := by
  unfold Core.closeStep
  split
  · next h => exact ⟨h, rfl, rfl⟩
  · dsimp only
    rw [Core.bump_xch]
    change none = none ∧ StepU.head (Core.stp (if _ = 0 then _ else _)) = _ ∧ Core.xch (if _ = 0 then _ else _) = _
    generalize hb : (if c.obj 0x7320 1 = 0 then c else _) = b
    have norms : c.Accesses b := hb ▸ .ite (.refl c) (c.accesses_putArea _ _)
    generalize hd : (if b.obj 0x7310 1 = 0 then b else _) = d
    have record : c.Accesses d := norms.trans (hd ▸ .ite (.refl b) (b.accesses_putArea _ _))
    exact ⟨rfl, by rw [record.stp], record.xch⟩

theorem Core.applyHeld_lastClosed (c : Core) : c.applyHeld.xch.lastClosed = c.xch.lastClosed := by
  unfold Core.applyHeld
  split
  · split
    · next k s _ hs _ =>
      obtain ⟨-, -, -, -, -, -, -, -, -, xch, -⟩ :=
        Core.commitStep_commits (c := { c with xch := { c.xch with heldCommit := none } }) hs k.c
      rw [xch]
    · rfl
  · rfl

theorem Core.applyHeld_idle {c : Core} (h : c.stp.head = none) : c.applyHeld = c := by
  unfold Core.applyHeld
  rw [h]
  split
  · next heq => cases heq
  · rfl

/-! ### CLOSE at a member (R295) -/

/-- The member's fingerprint of the tail step, as CLOSE gives it. -/
def Core.withAgreed (c : Core) (agreed : Nat) : Core := { c with xch := { c.xch with agreed := agreed } }

/-- CLOSE of the tail step. -/
theorem Core.takeClose_tail {c : Core} {u : StepSlot} {step : Nat} (ht : c.stp.tail = some u) (hs : u.step = step)
    (agreed : Nat) (ex : List Nat) (split : Bool) :
    c.takeClose step agreed ex split =
      let b := c.withAgreed agreed
      if split then b.raise (xEv 0x8035 3 0 b.me 0)
      else
        let e := b.exclude ex
        if ex.contains e.me then (e.bump 0x8880 0x12 1).raise (xEv 0x8034 3 0 e.me 0)
        else
          let t := e.closeStep
          ({ t with xch := { t.xch with lastClosed := step } } : Core).applyHeld := by
  unfold Core.takeClose
  rw [ht]
  dsimp only
  rw [if_neg (not_not.2 hs)]
  rfl

/-- What was sent stays sent. -/
theorem Core.takeClose_sent (c : Core) (step agreed : Nat) (ex : List Nat) (split : Bool) {m : Nat} {x : XCmd}
    (h : c.sentTo m x) : (c.takeClose step agreed ex split).sentTo m x := by
  cases ht : c.stp.tail with
  | none =>
    unfold Core.takeClose
    rw [ht]
    exact h
  | some u =>
    by_cases hs : u.step = step
    · rw [Core.takeClose_tail ht hs]
      dsimp only
      generalize hb : c.withAgreed agreed = b
      have sent : b.sentTo m x := by rw [← hb]; exact h
      refine Core.Keeps.sent (.ite (b.keeps_xEv (by decide) (by decide) _ _ _) (.trans (b.keeps_exclude ex) (.ite ?_ ?_))) sent
      · exact .trans (Core.keeps_bump _ (by decide) (by decide) _) (Core.keeps_xEv _ (by decide) (by decide) _ _ _)
      · refine .trans (Core.keeps_closeStep _) (.after (Core.keeps_applyHeld _) ?_)
        exact .of_parts rfl rfl rfl rfl rfl
    · unfold Core.takeClose
      rw [ht]
      dsimp only
      rw [if_pos hs]
      exact h

/-- A member that CLOSE does not leave out closes its tail step. -/
theorem Core.takeClose_closes {c : Core} {u : StepSlot} {step : Nat} (ht : c.stp.tail = some u) (hs : u.step = step)
    (agreed : Nat) {ex : List Nat} (hm : c.me ∉ ex) :
    let t := c.takeClose step agreed ex false
    t.xch.lastClosed = step ∧ t.xch.agreed = agreed ∧
      (c.stp.head = none → t.stp.tail = none ∧ t.xch.next = minus c.xch.next ex) := by
  rw [Core.takeClose_tail ht hs]
  dsimp only
  rw [if_neg Bool.false_ne_true]
  have excluded := (c.withAgreed agreed).keeps_exclude ex
  have idle := (c.withAgreed agreed).exclude_idle (ex := ex)
  generalize (c.withAgreed agreed).exclude ex = e at excluded idle
  obtain ⟨tail, head, xch⟩ := e.closeStep_closes
  rw [if_neg (by rw [excluded.me, List.contains_iff_mem]; exact hm)]
  refine ⟨Core.applyHeld_lastClosed _, ?_, fun noHead => ?_⟩
  · rw [(Core.keeps_applyHeld _).agreed]
    exact (congrArg Xch.agreed xch).trans excluded.agreed
  · obtain ⟨stp, next⟩ := idle noHead
    rw [Core.applyHeld_idle]
    · exact ⟨tail, (congrArg Xch.next xch).trans next⟩
    · exact head.trans ((congrArg StepU.head stp).trans noHead)

/-- One left out asks for FAULT_STOP. -/
theorem Core.takeClose_excludes {c : Core} {u : StepSlot} {step : Nat} (ht : c.stp.tail = some u) (hs : u.step = step)
    (agreed : Nat) {ex : List Nat} (hm : c.me ∈ ex) (hp : c.plainEvents) : (c.takeClose step agreed ex false).Faulty := by
  rw [Core.takeClose_tail ht hs]
  dsimp only
  rw [if_neg Bool.false_ne_true]
  have excluded := (c.withAgreed agreed).keeps_exclude ex
  generalize (c.withAgreed agreed).exclude ex = e at excluded
  rw [if_pos (by rw [excluded.me, List.contains_iff_mem]; exact hm)]
  have plain : (e.bump 0x8880 0x12 1).plainEvents :=
    (e.keeps_bump (by decide) (by decide) 1).plain (excluded.plain (hp.of_dict rfl))
  exact plain.faulty rfl rfl

/-- So does every member under the split flag. -/
theorem Core.takeClose_splits {c : Core} {u : StepSlot} {step : Nat} (ht : c.stp.tail = some u) (hs : u.step = step)
    (agreed : Nat) (ex : List Nat) (hp : c.plainEvents) : (c.takeClose step agreed ex true).Faulty := by
  rw [Core.takeClose_tail ht hs]
  dsimp only
  rw [if_pos rfl]
  exact Core.plainEvents.faulty (c := c.withAgreed agreed) (hp.of_dict rfl) rfl rfl

/-! ### The leader (R295) -/

theorem Core.keeps_grantNext (c : Core) (step version : Nat) : c.Keeps (c.grantNext step version) := by
  unfold Core.grantNext
  split
  · exact .refl c
  · refine .ite (.refl c) (.after (Core.keeps_sendCmds _ _ _) ?_)
    exact .of_parts rfl rfl rfl rfl rfl

/-- Does the close leave a member out: it sent another summary, reports torn hods, or belongs to C and sent none? -/
def Closing.leavesOut (l : Closing) (m : Nat) : Bool :=
  match KMap.get? l.fps m with
  | some (x, torn) => torn != 0 || some x != agreedOf l.c l.fps
  | none => l.c.contains m

/-- The members CLOSE leaves out; none where no summary has a majority. -/
def Closing.leftOut (l : Closing) : List Nat :=
  if (agreedOf l.c l.fps).isNone then [] else (l.c ++ l.listeners).filter l.leavesOut

theorem Closing.leavesOut_iff {l : Closing} {a : Nat} (ha : agreedOf l.c l.fps = some a) (m : Nat) :
    l.leavesOut m = true ↔ (KMap.get? l.fps m = none ∧ m ∈ l.c) ∨
      ∃ x n, KMap.get? l.fps m = some (x, n) ∧ (n ≠ 0 ∨ x ≠ a) := by
  unfold Closing.leavesOut
  rw [ha]
  cases KMap.get? l.fps m with
  | none => simp
  | some p =>
    obtain ⟨x, n⟩ := p
    simp

theorem Closing.mem_leftOut {l : Closing} {a : Nat} (ha : agreedOf l.c l.fps = some a) {m : Nat}
    (hm : m ∈ l.c ++ l.listeners) :
    m ∈ l.leftOut ↔ (KMap.get? l.fps m = none ∧ m ∈ l.c) ∨
      ∃ x n, KMap.get? l.fps m = some (x, n) ∧ (n ≠ 0 ∨ x ≠ a) := by
  rw [← l.leavesOut_iff ha, Closing.leftOut, ha]
  simp only [Option.isNone_some, Bool.false_eq_true, if_false, List.mem_filter, hm, true_and]

/-- CLOSE goes to every member of C and every listener. -/
theorem Core.leadClose_sends (c : Core) (l : Closing) {m : Nat} (hm : m ∈ l.c ++ l.listeners) (hne : m ≠ c.me) :
    (c.leadClose l).sentTo m
      (.close l.step ((agreedOf l.c l.fps).getD 0) l.leftOut (agreedOf l.c l.fps).isNone) := by
  unfold Core.leadClose
  dsimp only
  refine Core.Keeps.sent (.ite (.refl _) (Core.keeps_grantNext _ _ _)) (Core.takeClose_sent _ _ _ _ _ ?_)
  exact Core.sendCmds_sentTo (c.setLead _) _ hm hne

/-- A summary is kept with its step while another member's is missing. -/
theorem Core.leadFp_keeps {c : Core} {l : Closing} {step member : Nat}
    (hl : c.xch.lead.closing.find? (fun x => x.step == step) = some l) (hm : member ∈ l.c ++ l.listeners)
    (other : ∃ m ∈ l.c, m ≠ member ∧ KMap.get? l.fps m = none) (summary torn : Nat) :
    c.leadFp step member summary torn = c.setLead { c.xch.lead with
      closing := c.xch.lead.closing.map fun x => if x.step = step then
        { l with fps := KMap.set l.fps member (summary, torn), fpAt := some (l.fpAt.getD c.now) } else x } := by
  unfold Core.leadFp
  rw [hl]
  dsimp only
  rw [if_neg (by rw [List.contains_iff_mem.2 hm]; decide), if_neg]
  rw [Bool.not_eq_true, List.all_eq_false]
  obtain ⟨m, mem, ne, missing⟩ := other
  exact ⟨m, mem, by rw [KMap.get?_set_ne _ _ ne, missing]; decide⟩

/-! ### The commands -/

theorem fpReceived_runs {s : State} (ha : s.awake) (hd : exServes s.dev = true) (step member summary torn : Nat) :
    exec (.fpReceived step member summary torn) s = .next (finish s.dev
      ((s.core.answerX member 0 none).leadFp step member summary torn).settle s.pending) := by
  refine (?_ : execFpReceived step member summary torn s = _)
  unfold execFpReceived
  rw [lift_awake _ _ ha, Core.inCmd_serves _ hd]

theorem fpWindowExpiry_runs {s : State} {l : Closing} (ha : s.awake) (hd : exServes s.dev = true)
    (hl : s.core.xch.lead.closing.find? (fun x => x.fpAt.isSome) = some l) :
    exec .fpWindowExpiry s = .next (finish s.dev (s.core.leadClose l).settle s.pending) := by
  refine (?_ : execFpWindowExpiry s = _)
  unfold execFpWindowExpiry
  rw [lift_awake _ _ ha, hl]
  dsimp only
  rw [if_pos hd]

/-- CLOSE is answered and taken. -/
theorem closeReceived_runs {s : State} (ha : s.awake) (hd : exServes s.dev = true) (step agreed : Nat) (ex : List Nat)
    (split : Bool) : ∃ a, s.core.Posts a ∧ exec (.closeReceived step agreed ex split) s =
      .next (finish s.dev (a.takeClose step agreed ex split).settle s.pending) := by
  refine ⟨_, s.core.posts_answerX ((leaderOf (s.core.membersFor step)).getD s.core.me) 0 none, ?_⟩
  refine (?_ : execCloseReceived step agreed ex split s = _)
  unfold execCloseReceived
  rw [lift_awake _ _ ha, Core.inCmd_serves _ hd]

/-- Settles O44: a summary is kept (`Core.leadFp_keeps`), the leader's CLOSE stays sent through its own close
(`Core.leadClose_sends`) and leaves out whom `Closing.mem_leftOut` says, and a member closes its tail step or asks for
FAULT_STOP (`Core.takeClose_closes`, `Core.takeClose_excludes`, `Core.takeClose_splits`). -/
theorem fingerprintsCloseSteps : Obligations.FingerprintsCloseSteps := by
  unfold Obligations.FingerprintsCloseSteps
  intro s step member summary torn ha hd c ls
  refine ⟨?summary, ?window, ?close⟩
  case summary =>
    intro l hl hm other
    have post := c.posts_answerX member 0 none
    refine ⟨_, fpReceived_runs ha hd step member summary torn, ?_⟩
    change Leader.closing (Xch.lead (Core.xch ((c.answerX member 0 none).leadFp _ _ _ _))) = _ ∧ _
    generalize c.answerX member 0 none = a at post
    have lead : a.xch.lead = c.xch.lead := post.lead
    rw [Core.leadFp_keeps (by rw [lead]; exact hl) hm other, lead, post.now]
    exact ⟨rfl, post.mem, post.stp⟩
  case window =>
    intro l hl
    exact ⟨_, l.leftOut, fpWindowExpiry_runs ha hd hl, fun m hm hne => c.leadClose_sends l hm hne,
      fun a hag m hm => l.mem_leftOut hag hm⟩
  case close =>
    intro u agreed ex ht hs
    refine ⟨fun hm => ?_, fun hm hp => ?_, fun hp => ?_⟩
    · obtain ⟨a, post, runs⟩ := closeReceived_runs ha hd step agreed ex false
      have closes := Core.takeClose_closes (c := a) (ex := ex) (by rw [post.stp]; exact ht) hs agreed
        (by rw [post.me]; exact hm)
      rw [post.stp, post.next] at closes
      exact ⟨_, runs, closes⟩
    · obtain ⟨a, post, runs⟩ := closeReceived_runs ha hd step agreed ex false
      refine ⟨_, runs, finish_faulty hd (Core.Faulty.settle ?_) _⟩
      exact Core.takeClose_excludes (by rw [post.stp]; exact ht) hs agreed (by rw [post.me]; exact hm)
        fun code => (post.esc code).trans (hp code)
    · obtain ⟨a, post, runs⟩ := closeReceived_runs ha hd step agreed ex true
      refine ⟨_, runs, finish_faulty hd (Core.Faulty.settle ?_) _⟩
      exact Core.takeClose_splits (by rw [post.stp]; exact ht) hs agreed ex fun code => (post.esc code).trans (hp code)

end Sys2Proof.Machine
end

section
/-! SUPPORT. What the exchange reads of good memory, and the images it forms (R281, R283): O39 to O41. -/

namespace Sys2Proof.Machine

/-! ### Little-endian fields -/

theorem ofLE_toLE (n x : Nat) : ofLE (toLE n x) = x % 256 ^ n := by
  induction n generalizing x with
  | zero => rw [Nat.pow_zero, Nat.mod_one]; rfl
  | succ n ih =>
    rw [toLE, ofLE, ih, BitVec.toNat_ofNat, show 256 ^ (n + 1) = 256 * 256 ^ n from Nat.pow_succ']
    exact Nat.mod_mul.symm

theorem numAt_field_skip {k o : Nat} (h : k ≤ o) (x : Nat) (l : List Byte) (n : Nat) :
    numAt (toLE k x ++ l) o n = numAt l (o - k) n := by
  unfold numAt bytesAt
  rw [List.drop_append, List.drop_eq_nil_of_le (by rwa [toLE_length]), List.nil_append, toLE_length]

theorem numAt_toLE_append (n x : Nat) (l : List Byte) : numAt (toLE n x ++ l) 0 n = x % 256 ^ n := by
  unfold numAt bytesAt
  have field : (toLE n x ++ l).take n = toLE n x := by
    rw [List.take_append_of_le_length (by rw [toLE_length]), List.take_of_length_le (by rw [toLE_length])]
  rw [List.drop_zero]
  dsimp only
  rw [field, toLE_length, Nat.sub_self, List.replicate_zero, List.append_nil, ofLE_toLE]

/-! ### Sealing an image (Table 9.3) -/

theorem take_sealImage (l : List Byte) (h : 80 ≤ l.length) : (sealImage l).take 72 = l.take 72 := by
  unfold sealImage
  dsimp only
  rw [List.append_assoc, List.take_append_of_le_length (by rw [List.length_take]; omega), List.take_take, Nat.min_self]

theorem drop_sealImage (l : List Byte) (h : 80 ≤ l.length) : (sealImage l).drop 80 = l.drop 80 := by
  have head : (l.take 72 ++ toLE 8 (crc64 (l.take 72 ++ List.replicate 8 0 ++ l.drop 80))).length = 80 := by
    rw [List.length_append, List.length_take, toLE_length]
    omega
  unfold sealImage
  dsimp only
  rw [List.drop_append, head, Nat.sub_self, List.drop_eq_nil_of_le (by rw [head])]
  rfl

/-- A sealed image keeps its seal. -/
theorem sealImage_sealImage (l : List Byte) (h : 80 ≤ l.length) : sealImage (sealImage l) = sealImage l := by
  have same (m : List Byte) (ht : m.take 72 = l.take 72) (hd : m.drop 80 = l.drop 80) : sealImage m = sealImage l := by
    unfold sealImage
    rw [ht, hd]
  exact same _ (take_sealImage l h) (drop_sealImage l h)

/-- The CRC field lies beyond the header's other fields. -/
theorem numAt_sealImage (l : List Byte) (h : 80 ≤ l.length) {o n : Nat} (hn : o + n ≤ 72) :
    numAt (sealImage l) o n = numAt l o n := by
  have field (m : List Byte) : (m.drop o).take n = ((m.take 72).drop o).take n := by
    rw [List.drop_take, List.take_take, Nat.min_eq_left (by omega)]
  unfold numAt bytesAt
  dsimp only
  rw [field (sealImage l), field l, take_sealImage l h]

section
variable (c : Core) (step h : Nat) (x : HodRow) (a : HodAcc) (deadline : Bool) (contribs : List Nat) (g : HodImg)

/-- The image formed for a hod is the seal of its fields. -/
theorem Core.formImage_sealed : ∃ l, 80 ≤ l.length ∧ c.formImage step h x a deadline contribs g = sealImage l ∧
    numAt l 0 4 = magic 0x48 0x4F 0x44 0x52 ∧ numAt l 4 4 = step % 2 ^ 32 ∧ numAt l 8 4 = h % 2 ^ 32 ∧
    numAt l 12 4 = x.blocks % 2 ^ 32 ∧
    numAt l 51 1 = ((if deadline then 1 else 0) + (if x.ring then 2 else 0) + (if x.owner = c.me then 0 else 4)) % 256 := by
  unfold Core.formImage
  dsimp only
  simp only [List.append_assoc]
  refine ⟨_, ?_, rfl, ?_⟩
  · simp only [List.length_append, toLE_length, List.length_replicate]
    omega
  · simp [numAt_field_skip, numAt_toLE_append, magic]

/-- It passes a receiver's checks. -/
theorem Core.formImage_good (hs : step < 2 ^ 32) (hh : h < 2 ^ 32) (hx : x.blocks < 2 ^ 32) :
    imageGood (c.formImage step h x a deadline contribs g) step h x.blocks = true := by
  obtain ⟨l, long, sealed, name, hstep, hhod, hblocks, -⟩ := c.formImage_sealed step h x a deadline contribs g
  unfold imageGood
  rw [sealed, sealImage_sealImage l long, numAt_sealImage l long (by decide), numAt_sealImage l long (by decide),
    numAt_sealImage l long (by decide), numAt_sealImage l long (by decide), name, hstep, hhod, hblocks,
    Nat.mod_eq_of_lt hs, Nat.mod_eq_of_lt hh, Nat.mod_eq_of_lt hx]
  simp only [beq_self_eq_true, Bool.and_self]

/-- One closed at a deadline says so. -/
theorem Core.formImage_deadline : bitAt (numAt (c.formImage step h x a true contribs g) 51 1) 0 = true := by
  obtain ⟨l, long, sealed, -, -, -, -, flags⟩ := c.formImage_sealed step h x a true contribs g
  rw [sealed, numAt_sealImage l long (by decide), flags, if_pos rfl]
  split_ifs <;> rfl

end

/-! ### Reads of good memory -/

section
variable {c c' : Core} (h : c.Reads c')
include h

theorem Core.Reads.xch : c'.xch = c.xch := by rw [h.same]
theorem Core.Reads.stp : c'.stp = c.stp := by rw [h.same]
theorem Core.Reads.mem : c'.mem.mem = c.mem.mem := h.shows.mem

/-- The exchange's objects are no counters of reads. -/
theorem Core.Reads.exch : c.SameExch c' := by
  intro j u h1 h2
  refine h.shows.obj ?_
  simp only [fwdCounters, List.mem_cons, List.not_mem_nil, or_false]
  omega

theorem Core.Reads.me : c'.me = c.me := h.exch 0x8001 0 (by decide) (by decide)

theorem Core.Reads.hod (k : Nat) : c'.hod k = c.hod k := by
  unfold Core.hod
  rw [h.exch 0x8010 1 (by decide) (by decide)]
  simp only [h.shows.bytes]

end

/-- The exchange's read of good memory succeeds. -/
theorem Core.xRead_clean {c : Core} (hc : c.clean) (a n : Nat) : ∃ c', c.xRead a n = (true, c') ∧ c.Reads c' := by
  unfold Core.xRead
  split
  · exact ⟨c, rfl, .refl c⟩
  · have reads := c.touch_reads a n hc
    obtain ⟨-, -, -, poison⟩ := reads.clean hc
    refine ⟨_, ?_, reads⟩
    dsimp only
    rw [if_neg (by simp [Core.poisoned, poison])]

/-- So do those of a close. -/
theorem Core.closeReads_clean {c : Core} (hc : c.clean) (h : Nat) :
    ∃ c', c.closeReads h = (true, c') ∧ c.Reads c' := by
  unfold Core.closeReads Core.readHod
  obtain ⟨b, read, hb⟩ := Core.xRead_clean hc (c.obj 0x8010 1 + 32 * h) 32
  rw [read]
  dsimp only
  have row (d : Core) (hd : c.Reads d) : ∃ c', (if (b.hod h).ring then d.xRead (d.ringAddr h 0) (b.hod h).blocks
      else (true, d)) = (true, c') ∧ c.Reads c' := by
    split
    · obtain ⟨e, read, he⟩ := Core.xRead_clean (hd.clean hc) (d.ringAddr h 0) (b.hod h).blocks
      exact ⟨e, read, hd.trans he⟩
    · exact ⟨d, rfl, hd⟩
  cases b.slot? h with
  | none => exact row b hb
  | some a =>
    obtain ⟨d, read, hd⟩ := Core.xRead_clean (hb.clean hc) (b.slotBase a) (b.hod h).stateOff
    dsimp only
    rw [read]
    exact row d (hb.trans hd)

end Sys2Proof.Machine
end

section
/-! SUPPORT. The close of a hod at a deadline (R280, R281): O39. -/

namespace Sys2Proof.Machine

/-! ### Queueing an image -/

/-- The messages of an image for a member, as they enter the send buffers. -/
def Core.imageMsgs (c : Core) (h step : Nat) (img : List Byte) (tgt : Nat) : List OutMsg :=
  (List.range (ceilDiv img.length 204)).map fun i =>
    { die := 0, tgt := tgt, msg := { c.xmsg 5 step h ((img.drop (204 * i)).take 204) with imageOff := 204 * i } }

/-- Messages enter the send buffers. -/
def Core.queued (c : Core) (os : List OutMsg) : Core := { c with xch := { c.xch with out := c.xch.out ++ os } }

/-- One of no descriptor enters at once. -/
theorem Core.queueOut_queued (c : Core) (die tgt : Nat) (m : XMsg) :
    c.queueOut die tgt m = c.queued [{ die := die, tgt := tgt, msg := m }] := by
  unfold Core.queueOut
  dsimp only
  rw [Option.isSome_none, Bool.and_false, if_neg Bool.false_ne_true]
  rfl

theorem Core.queueImage_queued (c : Core) (tgt h step : Nat) (img : List Byte) :
    c.queueImage tgt h step img = c.queued (c.imageMsgs h step img tgt) := by
  have parts (l : List Nat) (c : Core) : l.foldl (fun c i => c.queueOut 0 tgt
      { c.xmsg 5 step h ((img.drop (204 * i)).take 204) with imageOff := 204 * i }) c = c.queued (l.map fun i =>
        { die := 0, tgt := tgt, msg := { c.xmsg 5 step h ((img.drop (204 * i)).take 204) with imageOff := 204 * i } }) := by
    induction l generalizing c with
    | nil =>
      unfold Core.queued
      rw [List.map_nil, List.append_nil]
      rfl
    | cons i l ih =>
      rw [List.foldl_cons, ih, Core.queueOut_queued]
      unfold Core.queued
      dsimp only
      rw [List.append_assoc]
      rfl
  exact parts _ c

theorem Core.queueImages_queued (tgts : List Nat) (c : Core) (h step : Nat) (img : List Byte) :
    tgts.foldl (fun c tgt => c.queueImage tgt h step img) c = c.queued (tgts.flatMap (c.imageMsgs h step img)) := by
  induction tgts generalizing c with
  | nil =>
    unfold Core.queued
    rw [List.flatMap_nil, List.append_nil]
    rfl
  | cons t ts ih =>
    rw [List.foldl_cons, ih, Core.queueImage_queued]
    unfold Core.queued
    dsimp only
    rw [List.append_assoc]
    rfl

/-! ### Closing (R281) -/

/-- Whom an image goes to: the owner, the other members of the step, and the listeners. -/
def Core.imageTgts (c : Core) (s : StepSlot) : List Nat := c.me :: minus (s.members ++ minus c.xch.listened s.members) [c.me]

theorem Core.mem_imageTgts {c : Core} {s : StepSlot} {m : Nat} (h : m = c.me ∨ m ∈ s.members ∨ m ∈ c.xch.listened) :
    m ∈ c.imageTgts s := by
  unfold Core.imageTgts minus
  by_cases hm : m = c.me
  · exact hm ▸ List.mem_cons_self
  · refine List.mem_cons_of_mem _ (List.mem_filter.2 ⟨?_, by simp [hm]⟩)
    rcases h with h | h | h
    · exact absurd h hm
    · exact List.mem_append_left _ h
    · by_cases hs : m ∈ s.members
      · exact List.mem_append_left _ hs
      · exact List.mem_append_right _ (List.mem_filter.2 ⟨h, by simp [hs]⟩)

theorem Core.accesses_countConv (c : Core) (t : Tally5) : c.Accesses (c.countConv t) := by
  unfold Core.countConv
  iterate 9 refine .after (Core.accesses_bump _ _ _ _ (.inl (by decide))) ?_
  exact c.accesses_bump _ _ _ (.inl (by decide))

/-- What is counted and logged where a hod closes at a deadline. -/
def Core.countClose (c : Core) (h : Nat) (g : HodImg) : Core :=
  let c := ((c.countConv g.cnt).bump 0x3008 1 g.nonfin).bump 0x8880 0x14 g.zeros
  let c := (c.bump 0x8880 3 1).bump 0x8880 4 1
  c.raiseOnceStep (xEv 0x8020 0 h c.me 0)

theorem Core.countClose_counts (c : Core) (h : Nat) (g : HodImg) :
    let t := c.countClose h g
    t.xch = c.xch ∧ t.mem = c.mem ∧ t.me = c.me ∧
      t.obj 0x8880 3 = min (c.obj 0x8880 3 + 1) (objMax 0x8880 3) ∧
      t.obj 0x8880 4 = min (c.obj 0x8880 4 + 1) (objMax 0x8880 4) := by
  unfold Core.countClose
  dsimp only
  generalize hb : (c.countConv g.cnt).bump 0x3008 1 g.nonfin = b
  have accesses : c.Accesses b := by
    rw [← hb]
    exact (c.accesses_countConv _).trans (Core.accesses_bump _ _ _ _ (.inl (by decide)))
  have mem : b.mem = c.mem := by rw [← hb, Core.bump_mem, (c.counted_countConv _).mem]
  generalize hd : ((b.bump 0x8880 0x14 g.zeros).bump 0x8880 3 1).bump 0x8880 4 1 = d
  have closed : d.obj 0x8880 3 = min (c.obj 0x8880 3 + 1) (objMax 0x8880 3) := by
    rw [← hd, Core.obj_bump_ne _ _ (by decide), Core.obj_bump_self _ _ _ _ one_ne_zero, Core.obj_bump_ne _ _ (by decide),
      accesses.exch _ _ (by decide) (by decide)]
  have late : d.obj 0x8880 4 = min (c.obj 0x8880 4 + 1) (objMax 0x8880 4) := by
    rw [← hd, Core.obj_bump_self _ _ _ _ one_ne_zero, Core.obj_bump_ne _ _ (by decide), Core.obj_bump_ne _ _ (by decide),
      accesses.exch _ _ (by decide) (by decide)]
  have me : d.me = c.me := by
    have counted : d.me = b.me := by
      rw [← hd]
      unfold Core.me
      iterate 3 rw [Core.obj_bump_ne _ _ (by decide)]
    exact counted.trans (accesses.exch _ _ (by decide) (by decide))
  have rest : d.xch = c.xch ∧ d.mem = c.mem := by
    rw [← hd]
    simp only [Core.bump_xch, Core.bump_mem]
    exact ⟨accesses.xch, mem⟩
  obtain ⟨xch, mem⟩ := rest
  unfold Core.raiseOnceStep
  dsimp only
  split
  · exact ⟨xch, mem, me, closed, late⟩
  · generalize he : ({ d with log := _ } : Core) = e
    have logged : d.Logged (e.raise (xEv 0x8020 0 h d.me 0)) := by
      refine Core.Logged.trans ?_ (e.logged_raise _ rfl)
      rw [← he]
      rfl
    have exch := (e.accesses_raise (xEv 0x8020 0 h d.me 0) rfl).exch
    have kept (u : Nat) (hu : u < 256) : (e.raise (xEv 0x8020 0 h d.me 0)).obj 0x8880 u = d.obj 0x8880 u := by
      rw [exch _ _ (by unfold okey; omega) (by unfold okey; omega), ← he]
      rfl
    refine ⟨by rw [logged, xch], by rw [logged, mem], ?_, (kept 3 (by decide)).trans closed, (kept 4 (by decide)).trans late⟩
    refine (exch 0x8001 0 (by decide) (by decide)).trans ?_
    rw [← he]
    exact me

/-- A hod closes at a deadline: once its reads have succeeded, its image is formed and queued. -/
theorem Core.closeHod_deadline {c b : Core} {s : StepSlot} {h : Nat} (hs : c.stp.head = some s)
    (hr : c.closeReads h = (true, b)) :
    let a : HodAcc := (b.slot? h).getD { hod := h }
    let g := b.closeBlks s h a
    let img := b.formImage s.step h (b.hod h) a true (b.imgContribs s (b.hod h) a) g
    let d := b.countClose h g
    let e := ({ d with xch := { d.xch with closed := h :: d.xch.closed } } : Core).setSlot { a with closed := true }
    c.closeHod h true = e.queued ((e.imageTgts s).flatMap (e.imageMsgs h s.step img)) := by
  unfold Core.closeHod
  rw [hs, hr]
  intro a g img d e
  rw [← Core.queueImages_queued]
  rfl

/-- Settles O39: both deadlines close the hod as `Core.closeHod_deadline` says, the image is good by
`Core.formImage_good`, and a message of the image for a target is in what was queued. -/
theorem hodsCloseAtDeadlines : Obligations.HodsCloseAtDeadlines := by
  unfold Obligations.HodsCloseAtDeadlines
  intro s k h ha hd clean isOpen hh hstep hk hblocks
  obtain ⟨b, read, reads⟩ := Core.closeReads_clean clean k
  have closes := Core.closeHod_deadline hh read
  have hod : b.hod k = s.core.hod k := reads.hod k
  rw [hod] at closes
  dsimp only at closes
  generalize ((b.slot? k).getD { hod := k } : HodAcc) = a at closes
  generalize b.closeBlks h k a = g at closes
  generalize b.imgContribs h (s.core.hod k) a = contribs at closes
  generalize hi : b.formImage h.step k (s.core.hod k) a true contribs g = img at closes
  obtain ⟨xch, mem, me, closed, late⟩ := b.countClose_counts k g
  generalize b.countClose k g = d at closes xch mem me closed late
  have tgts : ∀ m, m = s.core.me ∨ m ∈ h.members ∨ m ∈ s.core.xch.listened → m ∈ d.imageTgts h := by
    intro m hm
    refine Core.mem_imageTgts ?_
    rw [me, reads.me, xch, reads.xch]
    exact hm
  refine ⟨s.core.closeHod k true, img, fun due => ?_, fun due => ?_, ?_⟩
  · refine (?_ : execHodDeadlineOpen k s = _)
    unfold execHodDeadlineOpen
    rw [lift_awake _ _ ha, if_pos (by rw [hd, isOpen, due]; rfl)]
  · refine (?_ : execHodDeadlineFirst k s = _)
    unfold execHodDeadlineFirst
    rw [lift_awake _ _ ha, if_pos (by rw [hd, isOpen, due]; rfl)]
  · rw [closes]
    refine ⟨List.mem_cons_self, (congrArg MemSys.mem mem).trans reads.mem, ?_, ?_, ?_, ?_, fun m hm i hlt => ?_⟩
    · rw [← hi]
      exact Core.formImage_good _ _ _ _ _ _ _ _ hstep hk hblocks
    · rw [← hi]
      exact Core.formImage_deadline _ _ _ _ _ _ _
    · exact closed.trans (by rw [reads.exch _ _ (by decide) (by decide)])
    · exact late.trans (by rw [reads.exch _ _ (by decide) (by decide)])
    · refine ⟨_, List.mem_append_right _ (List.mem_flatMap.2 ⟨m, tgts m hm,
        List.mem_map.2 ⟨i, List.mem_range.2 hlt, rfl⟩⟩), rfl, rfl, rfl, rfl, rfl, rfl, rfl⟩

end Sys2Proof.Machine
end

section
/-! SUPPORT. What the exchange shows of memory, and what its reads and writes of good memory make of a core: O40, O41. -/

namespace Sys2Proof.Machine

/-! ### The same view of memory and of the exchange's objects -/

/-- Two cores that show the same bytes and the same objects of the exchange. -/
structure Core.SameView (c c' : Core) : Prop where
  bytes (a n : Nat) : c'.bytes a n = c.bytes a n
  exch : c.SameExch c'

theorem Core.SameView.trans {a b c : Core} (h : a.SameView b) (k : b.SameView c) : a.SameView c where
  bytes x n := (k.bytes x n).trans (h.bytes x n)
  exch := h.exch.trans k.exch

/-- The bytes shown depend on memory, on where the pools' state areas lie, and on time. -/
theorem Core.bytes_congr {c c' : Core} (hn : c'.now = c.now) (hm : c'.mem.mem = c.mem.mem)
    (ho : ∀ k < 4, ∀ u < 256, c'.obj (0x6100 + k) u = c.obj (0x6100 + k) u) (a n : Nat) : c'.bytes a n = c.bytes a n := by
  have area (a n : Nat) :
      ((List.range 4).any fun k => c'.meetsArea k a n) = (List.range 4).any fun k => c.meetsArea k a n := by
    rw [Bool.eq_iff_iff, List.any_eq_true, List.any_eq_true]
    refine exists_congr fun k => and_congr_right fun hk => ?_
    have hk := List.mem_range.mp hk
    unfold Core.meetsArea Core.poolArea
    rw [ho k hk 1 (by decide), ho k hk 3 (by decide), ho k hk 6 (by decide)]
  unfold Core.bytes
  simp only [area, hm, hn]

theorem Core.Reads.view {c c' : Core} (h : c.Reads c') : c.SameView c' := ⟨h.shows.bytes, h.exch⟩

section
variable {c c' : Core} (h : c.SameView c')
include h

theorem Core.SameView.num (a n : Nat) : c'.num a n = c.num a n := by
  unfold Core.num
  rw [h.bytes]

theorem Core.SameView.hodCount : c'.hodCount = c.hodCount := h.exch 0x8010 2 (by decide) (by decide)

theorem Core.SameView.hod (k : Nat) : c'.hod k = c.hod k := by
  unfold Core.hod
  rw [h.exch 0x8010 1 (by decide) (by decide)]
  simp only [h.bytes]

theorem Core.SameView.imgAddr (k : Nat) : c'.imgAddr k = c.imgAddr k := by
  unfold Core.imgAddr
  rw [h.exch 0x8012 1 (by decide) (by decide), h.hod]

theorem Core.SameView.jAddr (k : Nat) : c'.jAddr k = c.jAddr k := by
  unfold Core.jAddr
  rw [h.exch 0x8012 3 (by decide) (by decide)]

theorem Core.SameView.jStep (k : Nat) : c'.jStep k = c.jStep k := by
  unfold Core.jStep
  rw [h.jAddr, h.num]

theorem Core.SameView.jFlags (k : Nat) : c'.jFlags k = c.jFlags k := by
  unfold Core.jFlags
  rw [h.jAddr, h.num]

theorem Core.SameView.jHeld (k : Nat) : c'.jHeld k = c.jHeld k := by
  unfold Core.jHeld
  rw [h.jFlags]

theorem Core.SameView.heldFor (k step : Nat) : c'.heldFor k step = c.heldFor k step := by
  unfold Core.heldFor
  rw [h.jHeld, h.jStep]

theorem Core.SameView.holdOff (hs : c'.stp = c.stp) (k : Nat) : c'.holdOff k = c.holdOff k := by
  unfold Core.holdOff Core.jApplied
  rw [hs]
  simp only [h.jStep, h.jFlags]

theorem Core.SameView.slotBase (a : HodAcc) : c'.slotBase a = c.slotBase a := by
  unfold Core.slotBase
  rw [h.exch 0x8011 1 (by decide) (by decide), h.exch 0x8011 2 (by decide) (by decide)]

theorem Core.SameView.slotCnt (base : Nat) (x : HodRow) (i : Nat) : c'.slotCnt base x i = c.slotCnt base x i := h.num _ _

theorem Core.SameView.me : c'.me = c.me := h.exch 0x8001 0 (by decide) (by decide)

end

/-! ### At work on good memory -/

/-- What the exchange at work on good memory has made of a core s so far: memory holds m and the exchange's record is x;
the address map and the steps are those of s, and nothing is in error or armed. -/
structure Core.Works (s : Core) (m : Mem) (x : Xch) (c : Core) : Prop where
  map : s.SameMap c
  mem : c.mem.mem = m
  xch : c.xch = x
  stp : c.stp = s.stp
  step : c.step = s.step
  clean : c.clean

theorem Core.Works.refl {s : Core} (h : s.clean) : s.Works s.mem.mem s.xch s :=
  ⟨⟨rfl, rfl, fun _ => rfl⟩, rfl, rfl, rfl, rfl, h⟩

section
variable {s c c' : Core} {m : Mem} {x : Xch} (h : s.Works m x c)
include h

theorem Core.Works.exch : s.SameExch c := by
  intro j u h1 h2
  refine h.map.obj ?_
  simp only [unitCounters, fwdCounters, List.cons_append, List.nil_append, List.mem_cons, List.not_mem_nil, or_false]
  omega

/-- Two cores at the same point show the same. -/
theorem Core.Works.view {y : Xch} (h' : s.Works m y c') : c.SameView c' where
  bytes a n := by
    have map : c.SameMap c' :=
      ⟨h'.map.now.trans h.map.now.symm, h'.map.module_.trans h.map.module_.symm,
        fun ho => (h'.map.obj ho).trans (h.map.obj ho).symm⟩
    exact map.bytes (h'.mem.trans h.mem.symm) a n
  exch j u h1 h2 := (h'.exch j u h1 h2).trans (h.exch j u h1 h2).symm

/-- The exchange's record changes. -/
theorem Core.Works.withXch (y : Xch) : s.Works m y { c with xch := y } :=
  ⟨⟨h.map.now, h.map.module_, h.map.obj⟩, h.mem, rfl, h.stp, h.step, h.clean⟩

theorem Core.Works.reads (hr : c.Reads c') : s.Works m x c' where
  map := ⟨hr.shows.now.trans h.map.now, hr.shows.module_.trans h.map.module_, fun ho =>
    (hr.shows.obj fun hm => ho (List.mem_append_left _ hm)).trans (h.map.obj ho)⟩
  mem := hr.mem.trans h.mem
  xch := hr.xch.trans h.xch
  stp := hr.stp.trans h.stp
  step := by rw [hr.same]; exact h.step
  clean := hr.clean h.clean

theorem Core.Works.xRead (a n : Nat) : ∃ c', c.xRead a n = (true, c') ∧ s.Works m x c' := by
  obtain ⟨c', read, reads⟩ := Core.xRead_clean h.clean a n
  exact ⟨c', read, h.reads reads⟩

/-- A counter of the units counts. -/
theorem Core.Works.bump {i u : Nat} (n : Nat) (hi : okey i u / 256 ∈ unitCounters) : s.Works m x (c.bump i u n) where
  map := ⟨(c.bump_now i u n).trans h.map.now, (c.bump_module_ i u n).trans h.map.module_, fun ho =>
    ((c.keepsObjs_bump n hi).obj ho).trans (h.map.obj ho)⟩
  mem := (congrArg MemSys.mem (c.bump_mem i u n)).trans h.mem
  xch := (c.bump_xch i u n).trans h.xch
  stp := (c.bump_stp i u n).trans h.stp
  step := (c.bump_step i u n).trans h.step
  clean := by rw [Core.clean, c.bump_mem, c.bump_inj]; exact h.clean

/-- A write puts its bytes in place, and no others. -/
theorem Core.Works.put (a : Nat) (bs : List Byte) : s.Works (Mem.write m a bs) x (c.put a bs) := by
  have acc := c.accesses_store a bs
  have hk := c.keepsObjs_store a bs
  obtain ⟨hi, hs, hf, hp⟩ := h.clean
  have good : (c.store a bs).mem.injSyms = [] ∧ (c.store a bs).mem.tsFlips = [] ∧ (c.store a bs).mem.poison = [] := by
    unfold Core.store
    dsimp only
    rw [Core.buffered_enterRange]
    dsimp only [Core.clearPoison, Core.breakPools]
    split <;> simp [hs, hf, hp]
  rw [Core.put_none c hi]
  exact {
    map := ⟨acc.now.trans h.map.now, (by rw [acc.same]; exact h.map.module_), fun ho => (hk.obj ho).trans (h.map.obj ho)⟩
    mem := by rw [Core.store_mem, h.mem]
    xch := acc.xch.trans h.xch
    stp := acc.stp.trans h.stp
    step := acc.step.trans h.step
    clean := ⟨(c.store_inj a bs).trans hi, good⟩ }

end

end Sys2Proof.Machine
end

section
/-! SUPPORT. The images a receiver gathers and holds, and an owner asked again (R283): O40. -/

namespace Sys2Proof.Machine

/-! ### What an answer leaves of the objects -/

/-- The objects below those of the ports stay. -/
def Core.KeepsLow (c c' : Core) : Prop := ∀ j u, okey j u < 0x890000 → c'.obj j u = c.obj j u

theorem Core.keepsLow_of_dict {c c' : Core} (h : c'.dict = c.dict) : c.KeepsLow c' := by
  intro j u _
  unfold Core.obj
  rw [h]

theorem Core.KeepsLow.trans {a b c : Core} (h : a.KeepsLow b) (k : b.KeepsLow c) : a.KeepsLow c :=
  fun j u hk => (k j u hk).trans (h j u hk)

theorem Core.keepsLow_handPort (c : Core) {f : Nat} (x : Flit) : c.KeepsLow (c.handPort f x false) := by
  unfold Core.handPort
  dsimp only
  split
  · unfold Core.admitAll
    intro j u hk
    rw [Core.obj_bump_ne _ _ (by unfold okey at *; omega)]
    rfl
  · exact Core.keepsLow_of_dict rfl

theorem Core.keepsLow_sendOrDrop (c : Core) (x : Flit) : c.KeepsLow (c.sendOrDrop [x]) := by
  have send {c' : Core} (h : c.send x = some c') : c.KeepsLow c' := by
    unfold Core.send at h
    split at h
    · cases h; exact c.keepsLow_handPort x
    · cases h
  unfold Core.sendOrDrop Core.sendAll Core.sendAll
  cases h : c.send x with
  | none => exact Core.keepsLow_of_dict rfl
  | some c' => exact send h

theorem Core.keepsLow_answerX (c : Core) (member code : Nat) (bytes : Option (List Byte)) :
    c.KeepsLow (c.answerX member code bytes) := by
  have push (c : Core) (member cls tag code : Nat) : c.KeepsLow (c.pushAnswer member cls tag code) := by
    unfold Core.pushAnswer
    dsimp only
    split
    · exact Core.keepsLow_of_dict rfl
    split
    · exact Core.keepsLow_of_dict rfl
    · exact .trans (Core.keepsLow_of_dict rfl) (Core.keepsLow_sendOrDrop _ _)
  unfold Core.answerX
  dsimp only
  split
  · exact Core.keepsLow_of_dict rfl
  · exact .trans (Core.keepsLow_of_dict rfl) (push _ _ _ _ _)

/-- An answer changes nothing that is seen of memory and of the exchange's objects. -/
theorem Core.answerX_view (c : Core) (member code : Nat) (bytes : Option (List Byte)) :
    c.SameView (c.answerX member code bytes) := by
  have post := c.posts_answerX member code bytes
  have low := c.keepsLow_answerX member code bytes
  refine ⟨fun a n => Core.bytes_congr post.now (congrArg MemSys.mem post.mem) (fun k hk u hu => ?_) a n, post.exch⟩
  exact low _ _ (by unfold okey; omega)

theorem Core.Posts.clean {c c' : Core} (h : c.Posts c') (hc : c.clean) : c'.clean := by
  unfold Core.clean
  rw [h.mem, h.same]
  exact hc

/-! ### The parts of an image -/

/-- A message of class 1 is taken and answered where the exchange works. -/
theorem Core.inMsg_serves (c : Core) {dev : Dev} (h : exServes dev = true) (m : XMsg) :
    c.inMsg dev m = ((c.takeX m).2.answerX m.sender (c.takeX m).1 (some (msgBytes m))).settle := by
  unfold Core.inMsg
  rw [if_neg (by rintro (rfl | rfl) <;> exact absurd h (by decide)), if_pos h]

theorem imageReceived_runs {s : State} {m : XMsg} {code : Nat} {t : Core} (ha : s.awake) (hd : exServes s.dev = true)
    (hk : m.kind = 5) (taken : s.core.takeX m = (code, t)) :
    exec (.imageReceived m) s =
      .next (finish s.dev (t.answerX m.sender code (some (msgBytes m))).settle s.pending) := by
  refine (?_ : execImageReceived m s = _)
  unfold execImageReceived
  have same : ({ m with kind := 5 } : XMsg) = m := by rw [← hk]
  rw [lift_awake _ _ ha, same, Core.inMsg_serves _ hd, taken]

/-- What an image message finds in good memory. -/
theorem Core.takeX_image {c : Core} {m : XMsg} (hc : c.clean) (hk : m.kind = 5) (hh : m.hod < c.hodCount) :
    ∃ b, c.Reads b ∧ c.takeX m =
      if b.holdOff m.hod then (2, b.bump 0x8880 0xA 1)
      else if b.heldFor m.hod m.step then (0, b)
      else
        let e := b.startImage m
        (0, if (e.partRanges m).any fun r => r.1 == 0 && (e.hod m.hod).imgBytes ≤ r.2 then
          (e.placePart m).imageWhole m.hod m.step m.sender else e.placePart m) := by
  obtain ⟨a, readRow, ra⟩ := Core.xRead_clean hc (c.obj 0x8010 1 + 32 * m.hod) 32
  obtain ⟨b, readJournal, rb⟩ := Core.xRead_clean (ra.clean hc) (a.jAddr m.hod) 16
  refine ⟨b, ra.trans rb, ?_⟩
  unfold Core.takeX Core.readHod
  rw [if_neg (by omega), readRow, hk]
  dsimp only
  rw [Core.imageIn_eq, readJournal]
  rfl

/-- A receiver that waits for the image is begun. -/
theorem Core.startImage_begun {c : Core} {m : XMsg} {rs : List (Nat × Nat)} (hs : c.jStep m.hod = m.step)
    (hr : KMap.get? c.xch.imgGot m.hod = some rs) : c.startImage m = c := by
  unfold Core.startImage
  rw [hr, if_neg (by simp [hs])]

/-- A part goes to its place, and its range is noted. -/
theorem Core.Works.placePart {s c : Core} {mem : Mem} {x : Xch} {m : XMsg} {rs : List (Nat × Nat)} (h : s.Works mem x c)
    (hr : KMap.get? x.imgGot m.hod = some rs) (hn : 0 < c.partLen m) :
    c.partRanges m = addRange (m.imageOff, m.imageOff + c.partLen m) rs ∧
      s.Works (Mem.write mem (c.imgAddr m.hod + m.imageOff) (bytesAt m.payload 0 (c.partLen m)))
        { x with imgGot := KMap.set x.imgGot m.hod (addRange (m.imageOff, m.imageOff + c.partLen m) rs) }
        (c.placePart m) := by
  have placed := h.put (c.imgAddr m.hod + m.imageOff) (bytesAt m.payload 0 (c.partLen m))
  have part : c.putPart m = c.put (c.imgAddr m.hod + m.imageOff) (bytesAt m.payload 0 (c.partLen m)) := if_neg hn.ne'
  have ranges : c.partRanges m = addRange (m.imageOff, m.imageOff + c.partLen m) rs := by
    unfold Core.partRanges KMap.getD
    rw [part, placed.xch, hr]
    rfl
  refine ⟨ranges, ?_⟩
  unfold Core.placePart
  rw [ranges, part, placed.xch]
  exact placed.withXch _

/-- A vote that is not due, or cast already, is not cast. -/
theorem Core.checkVote_quiet {c : Core} (hc : c.clean) (hv : c.stp.head = none ∨ c.xch.voted = true) :
    c.Reads c.checkVote := by
  unfold Core.checkVote
  split
  · exact .refl c
  · next s hs =>
    obtain ⟨b, read, reads⟩ := Core.xRead_clean hc (c.obj 0x8012 3) (16 * c.hodCount)
    unfold Core.readJournal
    rw [read]
    dsimp only
    split
    · have voted : b.xch.voted = true := by
        rw [reads.xch]
        exact hv.resolve_left (by rw [hs]; exact Option.some_ne_none s)
      have cast : b.castVote true = b := by
        unfold Core.castVote
        split
        · rfl
        split
        · rfl
        · exact if_pos voted
      rw [cast]
      exact reads
    · exact reads

/-- The image's ranges are done with, and its hod's slot where that is closed (R279). -/
def Core.dropImage (c : Core) (h : Nat) : Core :=
  { c with xch := { c.xch with
      imgGot := KMap.erase c.xch.imgGot h, slots := c.xch.slots.filter fun a => !(a.hod == h && a.closed) } }

/-- The image of a hod without a ring is held: it is noted in the journal, counted and done with. -/
theorem Core.imageHeld_plain {c : Core} {h : Nat} (hr : (c.hod h).ring = false) (step : Nat) (b : List Byte) :
    c.imageHeld h step b =
      let e := ((c.setJ h step 1).bump 0x8880 0xD 1).dropImage h
      if e.stp.head.any fun s => s.step == step then e.checkVote else e := by
  unfold Core.imageHeld
  dsimp only
  rw [hr, if_neg Bool.false_ne_true]
  rfl

/-- A good image of a hod without a ring is held: the journal says so, and it is counted. -/
theorem Core.imageHeld_holds {c : Core} {h : Nat} (hc : c.clean) (hr : (c.hod h).ring = false)
    (hv : c.stp.head = none ∨ c.xch.voted = true) (step : Nat) (b : List Byte) :
    let t := c.imageHeld h step b
    t.mem.mem = Mem.write c.mem.mem (c.jAddr h) (toLE 4 1 ++ toLE 4 step) ∧
      t.obj 0x8880 0xD = min (c.obj 0x8880 0xD + 1) (objMax 0x8880 0xD) ∧ KMap.get? t.xch.imgGot h = none := by
  have noted := (Core.Works.refl hc).put (c.jAddr h) (toLE 4 1 ++ toLE 4 step)
  rw [Core.imageHeld_plain hr]
  unfold Core.setJ
  generalize c.put (c.jAddr h) (toLE 4 1 ++ toLE 4 step) = d at noted
  dsimp only
  generalize he : (d.bump 0x8880 0xD 1).dropImage h = e
  have counted : e.mem = d.mem ∧ e.inj = d.inj ∧ e.stp = d.stp ∧ e.xch.voted = d.xch.voted ∧
      e.obj 0x8880 0xD = min (d.obj 0x8880 0xD + 1) (objMax 0x8880 0xD) ∧ KMap.get? e.xch.imgGot h = none := by
    subst he
    refine ⟨d.bump_mem 0x8880 0xD 1, d.bump_inj 0x8880 0xD 1, d.bump_stp 0x8880 0xD 1, ?_, Core.obj_bump_self d _ _ _ one_ne_zero,
      KMap.get?_erase_self _ _⟩
    unfold Core.dropImage
    rw [d.bump_xch]
  obtain ⟨mem, inj, stp, voted, held, gone⟩ := counted
  have reads : e.Reads (if e.stp.head.any fun s => s.step == step then e.checkVote else e) := by
    split
    · refine Core.checkVote_quiet (by unfold Core.clean; rw [mem, inj]; exact noted.clean) ?_
      rw [stp, voted, noted.stp, noted.xch]
      exact hv
    · exact .refl e
  refine ⟨?_, ?_, by rw [reads.xch]; exact gone⟩
  · rw [reads.mem, mem, noted.mem]
  · rw [reads.exch _ _ (by decide) (by decide), held, noted.exch _ _ (by decide) (by decide)]

/-- A whole image in good memory that passes its checks is held. -/
theorem Core.imageWhole_good {c : Core} {h step : Nat} (hc : c.clean)
    (good : imageGood (c.bytes (c.imgAddr h) (c.hod h).imgBytes) step h (c.hod h).blocks = true) (sender : Nat) :
    ∃ b, c.Reads b ∧ c.imageWhole h step sender = b.imageHeld h step (c.bytes (c.imgAddr h) (c.hod h).imgBytes) := by
  obtain ⟨b, read, reads⟩ := Core.xRead_clean hc (c.imgAddr h) (c.hod h).imgBytes
  refine ⟨b, reads, ?_⟩
  unfold Core.imageWhole
  dsimp only
  rw [read]
  dsimp only
  rw [reads.view.bytes, reads.view.imgAddr, good]
  rfl

/-! ### An owner asked again -/

/-- It queues the image it holds. -/
theorem imageRequestedAgain_runs {s : State} {a : Core} {member hod : Nat} (ha : s.awake) (hd : exServes s.dev = true)
    (answered : s.core.answerX member 0 none = a) (hc : a.clean) (hh : hod < a.hodCount) (held : a.jHeld hod = true) :
    ∃ b, a.Reads b ∧ exec (.imageRequestedAgain member hod) s = .next (finish s.dev
      (b.queued (b.imageMsgs hod (b.jStep hod) (b.bytes (b.imgAddr hod) (b.hod hod).imgBytes) member)).settle
      s.pending) := by
  obtain ⟨b, read, reads⟩ := Core.xRead_clean hc (a.imgAddr hod) (a.hod hod).imgBytes
  refine ⟨b, reads, ?_⟩
  refine (?_ : execImageRequestedAgain member hod s = _)
  unfold execImageRequestedAgain
  rw [lift_awake _ _ ha, if_neg (by intro h; rcases h with h | h <;> (rw [h] at hd; exact absurd hd (by decide))),
    if_pos hd, answered]
  dsimp only
  rw [if_pos ⟨hh, held⟩, read]
  dsimp only
  rw [Core.queueImage_queued]

/-- Settles O40: what an image message meets is said once (`Core.takeX_image`), a part goes to its place
(`Core.Works.placePart`), a good image is held (`Core.imageWhole_good`, `Core.imageHeld_holds`), and an owner asked again
queues its image. -/
theorem imagesAreHeld : Obligations.ImagesAreHeld := by
  unfold Obligations.ImagesAreHeld
  intro s m ha hd hc hk hh c size n a
  obtain ⟨b, reads, taken⟩ := Core.takeX_image hc hk hh
  have works : c.Works c.mem.mem c.xch b := (Core.Works.refl hc).reads reads
  rw [reads.view.holdOff reads.stp, reads.view.heldFor] at taken
  refine ⟨?busy, ?part, ?again⟩
  case busy =>
    intro off
    rw [if_pos off] at taken
    refine ⟨_, imageReceived_runs ha hd hk taken, ?_, ?_, ?_⟩
    · rw [Core.bump_mem, reads.mem]
    · rw [Core.bump_xch, reads.xch]
    · rw [Core.obj_bump_self _ _ _ _ one_ne_zero, reads.exch _ _ (by decide) (by decide)]
  case part =>
    intro rs off held hs hr hn done
    rw [if_neg (by rw [off]; exact Bool.false_ne_true), if_neg (by rw [held]; exact Bool.false_ne_true)] at taken
    dsimp only at taken
    rw [Core.startImage_begun (rs := rs) (by rw [reads.view.jStep]; exact hs) (by rw [reads.xch]; exact hr)] at taken
    have len : b.partLen m = n := by
      unfold Core.partLen
      rw [reads.view.hod]
    obtain ⟨ranges, placed⟩ := works.placePart hr (by rw [len]; exact hn)
    rw [len, reads.view.imgAddr] at placed
    rw [ranges, len, reads.view.hod] at taken
    refine ⟨fun hdone => ?_, ?_⟩
    · rw [if_neg (by change ¬done = true; rw [hdone]; exact Bool.false_ne_true)] at taken
      refine ⟨_, imageReceived_runs ha hd hk taken, placed.mem, placed.stp, ?_⟩
      rw [placed.xch]
      exact KMap.get?_set_self _ _ _
    · intro hdone ring vote c1 sameHod sameJ good
      rw [if_pos (show done = true from hdone)] at taken
      have view : c1.SameView (b.placePart m) := ((Core.Works.refl hc).put a (bytesAt m.payload 0 n)).view placed
      generalize b.placePart m = p at taken placed view
      have hod : p.hod m.hod = c.hod m.hod := (view.hod _).trans sameHod
      have jAddr : p.jAddr m.hod = c.jAddr m.hod := (view.jAddr _).trans sameJ
      have imgAddr : p.imgAddr m.hod = c.imgAddr m.hod := by
        unfold Core.imgAddr
        rw [hod, placed.exch _ _ (by decide) (by decide)]
      obtain ⟨q, rq, whole⟩ := Core.imageWhole_good (c := p) (h := m.hod) (step := m.step) placed.clean
        (by rw [hod, imgAddr, view.bytes]; exact good) m.sender
      have held := Core.imageHeld_holds (c := q) (h := m.hod) (rq.clean placed.clean)
        (by rw [rq.view.hod, hod]; exact ring)
        (by rw [rq.stp, rq.xch, placed.stp, placed.xch]; exact vote) m.step
        (p.bytes (p.imgAddr m.hod) (p.hod m.hod).imgBytes)
      rw [← whole, rq.mem, placed.mem, rq.view.jAddr, jAddr, rq.exch _ _ (by decide) (by decide),
        placed.exch _ _ (by decide) (by decide)] at held
      exact ⟨_, imageReceived_runs ha hd hk taken, held⟩
  case again =>
    intro held
    have post := c.posts_answerX m.sender 0 none
    have view := c.answerX_view m.sender 0 none
    obtain ⟨d, rd, runs⟩ := imageRequestedAgain_runs (hod := m.hod) ha hd rfl (post.clean hc)
      (by rw [view.hodCount]; exact hh) (by rw [view.jHeld]; exact held)
    have view := view.trans rd.view
    rw [view.bytes, view.imgAddr, view.hod] at runs
    refine ⟨_, runs, rd.mem.trans (congrArg MemSys.mem post.mem), fun i hi => ?_⟩
    exact ⟨_, List.mem_append_right _ (List.mem_map.2 ⟨i, List.mem_range.2 hi, rfl⟩), rfl, rfl, rfl, rfl, rfl⟩

end Sys2Proof.Machine
end

section
/-! SUPPORT. The near-memory adders on good memory, and the sums of a block read back (R284, R314): O41. -/

namespace Sys2Proof.Machine

/-! ### FP32 words in bytes -/

/-- The value of a pattern depends on its low 32 bits. -/
theorem f32_mod (x : Nat) : f32 (x % 2 ^ 32) = f32 x := by
  have sign : Nat.testBit (x % 2 ^ 32) 31 = Nat.testBit x 31 := by
    rw [Nat.testBit_mod_two_pow]
    simp
  have exponent : (x % 2 ^ 32) >>> 23 % 2 ^ 8 = x >>> 23 % 2 ^ 8 := by
    rw [Nat.shiftRight_eq_div_pow, Nat.shiftRight_eq_div_pow]
    omega
  have mantissa : x % 2 ^ 32 % 2 ^ 23 = x % 2 ^ 23 := Nat.mod_mod_of_dvd _ (by decide)
  unfold f32 FFmt.decode fmtFP32
  dsimp only
  rw [sign, exponent, mantissa]

theorem ofLE_append (l r : List Byte) : ofLE (l ++ r) = ofLE l + 256 ^ l.length * ofLE r := by
  induction l with
  | nil => simp [ofLE]
  | cons b l ih =>
    rw [List.cons_append, ofLE, ih, ofLE, List.length_cons, Nat.pow_succ']
    ring

/-- Words written one after the other are read one after the other. -/
theorem unpack_flatMap_toLE (l : List Nat) : unpack 32 l.length (l.flatMap (toLE 4)) = l.map (· % 2 ^ 32) := by
  induction l with
  | nil => rfl
  | cons a l ih =>
    have spelled : ofLE ((a :: l).flatMap (toLE 4)) = a % 2 ^ 32 + 2 ^ 32 * ofLE (l.flatMap (toLE 4)) := by
      rw [List.flatMap_cons, ofLE_append, ofLE_toLE, toLE_length]
      norm_num
    have first : fld (a % 2 ^ 32 + 2 ^ 32 * ofLE (l.flatMap (toLE 4))) (32 * 0 + 32 - 1) (32 * 0) = a % 2 ^ 32 := by
      unfold fld
      rw [Nat.mul_zero, Nat.shiftRight_zero]
      omega
    have later (i : Nat) : fld (a % 2 ^ 32 + 2 ^ 32 * ofLE (l.flatMap (toLE 4))) (32 * (i + 1) + 32 - 1) (32 * (i + 1)) =
        fld (ofLE (l.flatMap (toLE 4))) (32 * i + 32 - 1) (32 * i) := by
      unfold fld
      rw [show 32 * (i + 1) + 32 - 1 + 1 - 32 * (i + 1) = 32 by omega, show 32 * i + 32 - 1 + 1 - 32 * i = 32 by omega,
        show 32 * (i + 1) = 32 + 32 * i by omega, Nat.shiftRight_add]
      congr 2
      rw [Nat.shiftRight_eq_div_pow]
      omega
    rw [List.map_cons, ← ih, unpack, spelled, List.length_cons, List.range_succ_eq_map, List.map_cons, first, List.map_map]
    unfold unpack
    dsimp only
    congr 1
    exact List.map_congr_left fun i _ => later i

/-! ### Sums in memory (R314) -/

/-- What the adders write: the old sums with the values added in FP32. -/
def addedBytes (vs old : List Num) : List Byte := (vs.zip old).flatMap fun p => toLE 4 (f32Code (fadd p.2 p.1))

section
variable {s c c' : Core} {m : Mem} {x : Xch} (h : s.Works m x c)
include h

/-- A store or a sum enters the write-combining buffer. -/
theorem Core.Works.buffered (hb : c.Buffered c') (hk : c.KeepsObjs c') : s.Works m x c' where
  map := ⟨by rw [hb]; exact h.map.now, by rw [hb]; exact h.map.module_, fun ho => (hk.obj ho).trans (h.map.obj ho)⟩
  mem := by rw [hb]; exact h.mem
  xch := by rw [hb]; exact h.xch
  stp := by rw [hb]; exact h.stp
  step := by rw [hb]; exact h.step
  clean := by rw [hb]; exact h.clean

theorem Core.Works.addGranule (g lo hi : Nat) : s.Works m x (c.addGranule g lo hi) := by
  unfold Core.addGranule
  dsimp only
  refine Core.Works.buffered ?_ (Core.buffered_enterGranule _ _ _ _ _) (Core.keepsObjs_enterGranule _ _ _ _ _)
  split
  · exact h
  · obtain ⟨hi, hs, hf, hp⟩ := h.clean
    have good : (c.mem.injSyms.filter fun p => decide (g * 256 ≤ p.1) && decide (p.1 < g * 256 + 256)) = [] := by
      rw [hs]
      rfl
    rw [good, List.foldl_nil]
    exact ⟨⟨h.map.now, h.map.module_, h.map.obj⟩, h.mem, h.xch, h.stp, h.step, hi, hs, hf, hp⟩

/-- A pool's allocation is no part of what is shown. -/
theorem Core.Works.breakPools (a n : Nat) : s.Works m x (c.breakPools a n) := by
  unfold Core.breakPools
  split
  · exact ⟨⟨h.map.now, h.map.module_, h.map.obj⟩, h.mem, h.xch, h.stp, h.step, h.clean⟩
  · exact h

/-- With nothing armed no store is corrupted. -/
theorem Core.Works.injectStore (a n : Nat) : s.Works m x (c.injectStore a n) := by
  have quiet : c.injectStore a n = c := by
    unfold Core.injectStore
    simp [Core.injectEach_none _ h.clean.1, Core.transfers_none _ h.clean.1]
  rw [quiet]
  exact h

/-- Sums land in good memory. -/
theorem Core.Works.addPiece (a : Nat) {vs : List Num} (hv : vs ≠ []) :
    s.Works (Mem.write m a (addedBytes vs ((unpack 32 vs.length (c.bytes a (4 * vs.length))).map f32))) x
      (c.addPiece a vs) := by
  unfold Core.addPiece
  have nonempty : 4 * vs.length ≠ 0 := by
    have := List.length_pos_iff.2 hv
    omega
  dsimp only
  rw [if_neg nonempty]
  have granules (l : List Nat) (lo hi : Nat → Nat) {c : Core} (h : s.Works m x c) :
      s.Works m x (l.foldl (fun c i => c.addGranule (a / 256 + i) (lo i) (hi i)) c) := by
    induction l generalizing c with
    | nil => exact h
    | cons i l ih => exact ih (h.addGranule _ _ _)
  have taken := granules (List.range ((a + 4 * vs.length - 1) / 256 + 1 - a / 256)) (fun i => if i = 0 then a % 256 else 0)
    (fun i => if a / 256 + i = (a + 4 * vs.length - 1) / 256 then (a + 4 * vs.length - 1) % 256 + 1 else 256) h
  generalize (List.range ((a + 4 * vs.length - 1) / 256 + 1 - a / 256)).foldl _ c = b at taken
  rw [← (taken.view h).bytes]
  have place (bs : List Byte) :
      s.Works (Mem.write m a bs) x { b with mem := { b.mem with mem := Mem.write b.mem.mem a bs } } :=
    ⟨⟨taken.map.now, taken.map.module_, taken.map.obj⟩, by rw [← taken.mem], taken.xch, taken.stp, taken.step, taken.clean⟩
  exact (((place _).breakPools _ _).bump _ (by decide)).injectStore _ _

end

end Sys2Proof.Machine
end

section
/-! SUPPORT. The hops of a ring hod (R284 to R287): O41. -/

namespace Sys2Proof.Machine

/-! ### Slots -/

theorem Core.slot?_hod {c : Core} {h : Nat} {a : HodAcc} (hs : c.slot? h = some a) : a.hod = h := by
  unfold Core.slot? at hs
  exact eq_of_beq (List.find?_some (p := fun a : HodAcc => a.hod == h) hs)

/-- A slot replaced is the one found. -/
theorem Core.slot?_setSlot {c : Core} {h : Nat} {a b : HodAcc} (hs : c.slot? h = some a) (hb : b.hod = h) :
    (c.setSlot b).slot? h = some b := by
  have replaced (l : List HodAcc) (hl : (l.find? fun x => x.hod == h).isSome) :
      (l.map fun x => if x.hod == b.hod then b else x).find? (fun x => x.hod == h) = some b := by
    induction l with
    | nil => cases hl
    | cons y l ih =>
      rw [List.map_cons, hb]
      by_cases hy : (y.hod == h) = true
      · rw [if_pos hy, List.find?_cons_of_pos (by rw [hb]; exact beq_self_eq_true h)]
      · rw [List.find?_cons_of_neg (p := fun x : HodAcc => x.hod == h) hy] at hl
        rw [if_neg hy, List.find?_cons_of_neg (p := fun x : HodAcc => x.hod == h) hy, ← ih hl, hb]
  refine replaced c.xch.slots ?_
  unfold Core.slot? at hs
  rw [hs]
  rfl

/-- A slot with the partial of a block that has come in. -/
def HodAcc.withIn (a : HodAcc) (i : Nat) (r : RingIn) : HodAcc := { a with ring := KMap.set a.ring i r }

/-! ### The gate (R280) -/

/-- A message of the open step for a hod with a slot goes through. -/
theorem Core.gateX_open {c : Core} {m : XMsg} {h : StepSlot} {a : HodAcc} (ever : c.stp.everOpened = true)
    (step : m.step = c.step) (hh : m.hod < c.hodCount) (isOpen : m.hod ∉ c.xch.closed) (head : c.stp.head = some h)
    (slot : c.slot? m.hod = some a) : c.gateX m = (none, c) := by
  unfold Core.gateX
  dsimp only
  rw [if_neg (by omega), ever, if_neg (by decide), step, older_self, if_neg (by decide), if_neg (fun h => h rfl),
    if_neg (by rw [head, List.contains_iff_mem]; exact fun h => h.elim isOpen Bool.false_ne_true), slot]
  rfl

/-- The entry of its hod is read before a RING is taken, and before a RING_END. -/
theorem Core.takeX_clean {c : Core} {m : XMsg} (hc : c.clean) (hh : m.hod < c.hodCount) :
    ∃ b, c.Reads b ∧ (m.kind = 3 → c.takeX m = b.ringIn m) ∧ (m.kind = 4 → c.takeX m = b.ringEndIn m) := by
  obtain ⟨b, read, reads⟩ := Core.xRead_clean hc (c.obj 0x8010 1 + 32 * m.hod) 32
  refine ⟨b, reads, fun hk => ?_, fun hk => ?_⟩
  all_goals
    unfold Core.takeX Core.readHod
    rw [if_neg (by omega), read, hk]
    rfl

/-! ### Taking one block (R284) -/

/-- A message of one block is joined to the slot of its hod. -/
theorem Core.ringIn_one {c : Core} {m : XMsg} {word : Nat} {esc : Bool} {vs : List Num} (gate : c.gateX m = (none, c))
    (ring : (c.hod m.hod).ring = true) (count : m.count = 1) (blocks : ringBlocks m 1 0 0 = [(word, esc, vs)]) :
    c.ringIn m = (0, (c.countBlks [(word, esc, vs)]).ringTake m.hod [m.first] fun a =>
      a.withIn m.first { contribs := m.contribs, word := word, esc := esc, vals := vs }) := by
  unfold Core.ringIn
  rw [gate]
  dsimp only
  rw [ring, if_neg (by decide), count, show min 6 1 = 1 from rfl, blocks]
  rfl

theorem Core.ringTake_one {c : Core} {s : StepSlot} {h : Nat} {a : HodAcc} (head : c.stp.head = some s)
    (slot : c.slot? h = some a) (i : Nat) (f : HodAcc → HodAcc) :
    c.ringTake h [i] f = ((c.setSlot (f a)).ringAdvance s h i).ringFinish s h := by
  unfold Core.ringTake
  rw [head, slot]
  rfl

theorem Core.Works.countBlks {s c : Core} {m : Mem} {x : Xch} (h : s.Works m x c) (bs : List (Nat × Bool × List Num)) :
    s.Works m x (c.countBlks bs) :=
  ((h.bump _ (by decide)).bump _ (by decide)).bump _ (by decide)

theorem Core.Works.setSlot {s c : Core} {m : Mem} {x : Xch} (h : s.Works m x c) (a : HodAcc) :
    s.Works m (c.setSlot a).xch (c.setSlot a) := h.withXch _

theorem Core.Works.hopReads {s c : Core} {m : Mem} {x : Xch} (h : s.Works m x c) (a : HodAcc) (i : Nat) :
    ∃ c', c.hopReads a i false = (true, c') ∧ s.Works m x c' := by
  obtain ⟨d, readCnt, hd⟩ := h.xRead (c.slotBase a + (c.hod a.hod).cntOff i) 2
  obtain ⟨e, readSum, he⟩ := hd.xRead (c.slotBase a + 128 * i) 128
  refine ⟨e, ?_, he⟩
  unfold Core.hopReads
  dsimp only
  rw [readCnt]
  dsimp only
  rw [readSum]
  rfl

/-- A hop's core with the partial added to its block, and the block's new count. -/
def Core.joinBlk (c : Core) (base : Nat) (x : HodRow) (i n : Nat) (vs : List Num) : Core :=
  (c.addPiece (base + 128 * i) vs).setCnt base x i n

/-- A hop that is neither owner nor first, and holds its own block, joins the partial to it and sends it on. -/
theorem Core.ringAdvance_hop {c b : Core} {s : StepSlot} {h i : Nat} {a : HodAcc} {r : RingIn}
    (slot : c.slot? h = some a) (notFirst : nextOf s.members (ownerIn s.members (c.hod h).owner) ≠ some c.me)
    (inn : KMap.get? a.ring i = some r) (undone : i ∉ a.done) (own : c.slotCnt (c.slotBase a) (c.hod h) i ≠ 0)
    (reads : c.hopReads a i false = (true, b)) :
    let p := b.joinBlk (c.slotBase a) (c.hod h) i (r.contribs + 1) r.vals
    ownerIn s.members (c.hod h).owner ≠ p.me →
      c.ringAdvance s h i = p.ringForward s a i (r.contribs + 1) (some r) (p.slotSum (c.slotBase a) i) := by
  intro p notOwner
  have first : (nextOf s.members (ownerIn s.members (c.hod h).owner) == some c.me) = false :=
    beq_eq_false_iff_ne.2 notFirst
  unfold Core.ringAdvance
  rw [slot]
  dsimp only
  rw [first, if_neg Bool.false_ne_true, inn, if_neg (by simp [undone, own]), Bool.false_and, reads]
  dsimp only
  rw [if_neg]
  · rfl
  · exact notOwner

/-- A RING message has blocks of 32 values. -/
theorem length_of_ringBlocks {m : XMsg} {word : Nat} {esc : Bool} {vs : List Num}
    (h : ringBlocks m 1 0 0 = [(word, esc, vs)]) : vs.length = 32 := by
  have decoded (w : Nat) (bs : List Byte) : (blkVals w bs).length = 32 := by
    unfold blkVals decodeBlk unpack
    split
    · exact List.length_replicate
    split
    · exact List.length_replicate
    · rw [List.length_map, List.length_zipIdx, List.length_map, List.length_range]
  unfold ringBlocks at h
  dsimp only at h
  split at h
  · obtain ⟨-, -, rfl⟩ := Prod.mk.injEq .. ▸ (List.cons.inj h).1
    rw [List.length_map, List.length_range]
  · obtain ⟨-, -, rfl⟩ := Prod.mk.injEq .. ▸ (List.cons.inj h).1
    exact decoded _ _

/-- Memory at its start shows what it showed. -/
theorem Core.Works.view_start {s c : Core} {x : Xch} (h : s.Works s.mem.mem x c) : s.SameView c :=
  ⟨h.map.bytes h.mem, h.exch⟩

/-- Outside the pools' state areas memory is shown as it is. -/
theorem Core.Works.bytes_plain {s c : Core} {m : Mem} {x : Xch} (h : s.Works m x c) {a n : Nat}
    (plain : ∀ k < 4, s.meetsArea k a n = false) : c.bytes a n = Mem.read m a n := by
  unfold Core.bytes
  rw [if_neg, h.mem]
  rw [Bool.not_eq_true, List.any_eq_false]
  intro k hk
  rw [h.map.meetsArea (List.mem_range.1 hk), plain k (List.mem_range.1 hk)]
  exact Bool.false_ne_true

/-- A block of sums is read back where it lies before what is written next. -/
theorem Mem.read_sums (m : Mem) {a b : Nat} {bs next : List Byte} (hb : a + bs.length ≤ b) :
    Mem.read (Mem.write (Mem.write m a bs) b next) a bs.length = bs := by
  refine Mem.read_of_get fun i hi => ?_
  rw [Mem.get_write_ne _ (.inl (by omega)), Mem.get_write_at _ _ hi]

/-- The adders' words are read as the FP32 sums. -/
theorem unpack_addedBytes (vs old : List Num) :
    (unpack 32 (vs.zip old).length (addedBytes vs old)).map f32 =
      (vs.zip old).map fun q => f32 (f32Code (fadd q.2 q.1)) := by
  have words : addedBytes vs old = ((vs.zip old).map fun q => f32Code (fadd q.2 q.1)).flatMap (toLE 4) := by
    rw [List.flatMap_map]
    rfl
  have read := unpack_flatMap_toLE ((vs.zip old).map fun q => f32Code (fadd q.2 q.1))
  rw [List.length_map] at read
  rw [words, read, List.map_map, List.map_map]
  exact List.map_congr_left fun q _ => f32_mod _

theorem length_addedBytes (vs old : List Num) : (addedBytes vs old).length = 4 * (vs.zip old).length := by
  unfold addedBytes
  simp [List.length_flatMap, toLE_length, Nat.mul_comm]

theorem Core.length_slotSum (c : Core) (base i : Nat) : (c.slotSum base i).length = 32 := by
  unfold Core.slotSum unpack
  rw [List.length_map, List.length_map, List.length_range]

/-- The sums of a block that a partial was added to. -/
theorem Core.Works.slotSum_joinBlk {s c : Core} {x : Xch} {base i n : Nat} {row : HodRow} {vs : List Num}
    (h : s.Works s.mem.mem x c) (hv : vs.length = 32) (hi : i < row.blocks)
    (plain : ∀ k < 4, s.meetsArea k (base + 128 * i) 128 = false) :
    let p := c.joinBlk base row i n vs
    (∃ m, s.Works m x p) ∧
      p.slotSum base i = (vs.zip (s.slotSum base i)).map fun q => f32 (f32Code (fadd q.2 q.1)) := by
  have nonempty : vs ≠ [] := by
    rintro rfl
    cases hv
  have joined := (h.addPiece (base + 128 * i) nonempty).put (base + row.cntOff i) (toLE 2 n)
  have old : (unpack 32 vs.length (c.bytes (base + 128 * i) (4 * vs.length))).map f32 = s.slotSum base i := by
    rw [hv, h.view_start.bytes]
    rfl
  rw [old] at joined
  refine ⟨⟨_, joined⟩, ?_⟩
  have both : (vs.zip (s.slotSum base i)).length = 32 := by
    rw [List.length_zip, hv, Core.length_slotSum, Nat.min_self]
  have size : (addedBytes vs (s.slotSum base i)).length = 128 := by rw [length_addedBytes, both]
  have before : base + 128 * i + (addedBytes vs (s.slotSum base i)).length ≤ base + row.cntOff i := by
    rw [size]
    unfold HodRow.cntOff HodRow.elems
    unfold HodRow.blocks at hi
    omega
  have read := Mem.read_sums s.mem.mem (next := toLE 2 n) before
  rw [size] at read
  rw [← unpack_addedBytes, both, ← read, ← joined.bytes_plain plain]
  rfl

/-! ### Sending it on -/

theorem Core.accesses_hop (c : Core) (t : Tally5) (n : Nat) : c.Accesses ((c.countConv t).bump 0x3008 1 n) :=
  (c.accesses_countConv t).trans (Core.accesses_bump _ _ _ _ (.inl (by decide)))

/-- A slot whose block has gone on. -/
def HodAcc.sentOn (a : HodAcc) (i : Nat) (esc : Bool) : HodAcc :=
  { a with done := i :: a.done, ring := KMap.erase a.ring i, escLogged := a.escLogged || esc }

/-- The message a hop sends on. -/
def Core.hopMsg (c : Core) (step h i contribs word : Nat) (coded : List Byte × Bool × Tally5) : XMsg :=
  { c.xmsg 3 step h (toLE 2 word ++ coded.1) with
    first := i, count := 1, esc := if coded.2.1 then 1 else 0, contribs := contribs }

/-- A hop's core with the conversion of its block counted, and the block marked as gone on. -/
def Core.countHop (c : Core) (a : HodAcc) (i : Nat) (vs : List Num) (coded : List Byte × Bool × Tally5) : Core :=
  ((c.countConv coded.2.2).bump 0x3008 1 (vs.filter Num.nonFinite).length).setSlot (a.sentOn i coded.2.1)

theorem Core.countHop_me (c : Core) (a : HodAcc) (i : Nat) (vs : List Num) (coded : List Byte × Bool × Tally5) :
    (c.countHop a i vs coded).me = c.me :=
  (c.accesses_hop coded.2.2 (vs.filter Num.nonFinite).length).exch 0x8001 0 (by decide) (by decide)

/-- A hop that has a partial queues its message. -/
theorem Core.ringForward_hop (c : Core) (s : StepSlot) (a : HodAcc) (i contribs : Nat) (r : RingIn) (vs : List Num) :
    let word := if r.word % 256 = 0 then c.firstExp 0 vs else r.word
    let coded := ringBlk (c.exKey s.step) a.hod i word r.esc vs
    let b := c.countHop a i vs coded
    let q := b.queueOut 0 ((nextOf s.members b.me).getD b.me) (c.hopMsg s.step a.hod i contribs word coded)
    c.ringForward s a i contribs (some r) vs =
      if coded.2.1 && !r.esc && !a.escLogged then q.raise (xEv 0x8023 0 a.hod q.me 3) else q := rfl

/-- It goes to the next member, one contribution richer. -/
theorem Core.ringForward_sends {c : Core} {s : StepSlot} {nxt : Nat} (hn : nextOf s.members c.me = some nxt)
    (a : HodAcc) (i contribs : Nat) (r : RingIn) (vs : List Num) :
    let word := if r.word % 256 = 0 then c.firstExp 0 vs else r.word
    let coded := ringBlk (c.exKey s.step) a.hod i word r.esc vs
    ∃ o ∈ (c.ringForward s a i contribs (some r) vs).xch.out,
      o.tgt = nxt ∧ o.msg = c.hopMsg s.step a.hod i contribs word coded := by
  have forward := c.ringForward_hop s a i contribs r vs
  dsimp only at forward ⊢
  rw [forward]
  generalize (if r.word % 256 = 0 then c.firstExp 0 vs else r.word) = word
  generalize ringBlk (c.exKey s.step) a.hod i word r.esc vs = coded
  rw [Core.countHop_me, hn, Option.getD_some, Core.queueOut_queued]
  generalize hm : c.hopMsg s.step a.hod i contribs word coded = msg
  generalize c.countHop a i vs coded = b
  have sent : ({ die := 0, tgt := nxt, msg := msg } : OutMsg) ∈ (b.queued [{ die := 0, tgt := nxt, msg := msg }]).xch.out :=
    List.mem_append_right _ (List.mem_singleton_self _)
  generalize b.queued _ = q at sent
  refine ⟨{ die := 0, tgt := nxt, msg := msg }, ?_, rfl, rfl⟩
  split
  · rw [Core.raise_xch _ rfl]
    exact sent
  · exact sent

/-! ### After the last block -/

theorem Core.accesses_closeReads (c : Core) (h : Nat) : c.Accesses (c.closeReads h).2 := by
  unfold Core.closeReads
  have row : c.Accesses (c.readHod h).2 := c.accesses_xRead _ _
  split
  · next heq => exact row.of_snd heq
  · next b heq =>
    refine .trans (row.of_snd heq) ?_
    have slot : b.Accesses (match b.slot? h with
        | some a => b.xRead (b.slotBase a) (b.hod h).stateOff
        | none => (true, b)).2 := by
      split
      · exact b.accesses_xRead _ _
      · exact .refl b
    dsimp only
    split
    · next heq => exact slot.of_snd heq
    · next b' heq =>
      refine .trans (slot.of_snd heq) ?_
      split
      · exact b'.accesses_xRead _ _
      · exact .refl b'

/-- What a close queues comes behind what waits. -/
theorem Core.closeHod_out {c : Core} {o : OutMsg} (ho : o ∈ c.xch.out) (h : Nat) :
    o ∈ (c.closeHod h false).xch.out := by
  unfold Core.closeHod
  have read := c.accesses_closeReads h
  split
  · exact ho
  · next heq => rw [(read.of_snd heq).xch]; exact ho
  · next s b hs heq =>
    have read := (read.of_snd heq).xch
    dsimp only
    rw [Core.queueImages_queued, if_neg Bool.false_ne_true, if_neg Bool.false_ne_true]
    refine List.mem_append_left _ ?_
    change o ∈ Xch.out (Core.xch (Core.bump _ 0x8880 4 _))
    iterate 4 rw [Core.bump_xch]
    rw [(b.accesses_countConv _).xch, read]
    exact ho

theorem Core.ringFinish_out {c : Core} {o : OutMsg} (ho : o ∈ c.xch.out) (s : StepSlot) (h : Nat) :
    o ∈ (c.ringFinish s h).xch.out := by
  unfold Core.ringFinish
  split
  · exact ho
  · dsimp only
    split
    · exact ho
    split
    · exact Core.closeHod_out ho h
    · rw [Core.queueOut_queued]
      exact List.mem_append_left _ ho

/-- A hop lets its slot go and sends RING_END on with its own bit set. -/
theorem Core.ringFinish_hop {c : Core} {s : StepSlot} {h nxt : Nat} {a : HodAcc} {ms : List Nat}
    (slot : c.slot? h = some a) (isOpen : a.closed = false) (all : (c.hod h).blocks ≤ a.done.length)
    (ended : a.ringEnd = some ms) (owner : ownerIn s.members (c.hod h).owner ≠ c.me)
    (hn : nextOf s.members c.me = some nxt) :
    let t := c.ringFinish s h
    t.slot? h = none ∧ h ∈ t.xch.closed ∧ ∃ o ∈ t.xch.out, o.tgt = nxt ∧ o.msg.kind = 4 ∧ o.msg.hod = h ∧
      o.msg.payload = bytesAt (toLE 32 (bitmap (insertNat c.me ms))) 0 204 := by
  unfold Core.ringFinish
  rw [slot]
  dsimp only
  rw [if_neg (by rw [isOpen, ended]; simp [all]), if_neg owner, ended, Core.queueOut_queued]
  have me : Core.me { c with xch := { c.xch with
      slots := c.xch.slots.filter fun y => y.hod != h, closed := h :: c.xch.closed } } = c.me := rfl
  rw [me, hn]
  refine ⟨?_, List.mem_cons_self, _, List.mem_append_right _ (List.mem_singleton_self _), rfl, rfl, rfl, rfl⟩
  refine List.find?_eq_none.2 fun y hy => ?_
  have other := (List.mem_filter.1 hy).2
  simpa using other

end Sys2Proof.Machine
end

section
/-! SUPPORT. Ring messages as they arrive, and the answers to what this member sent (R278, R284, R287, R347): O41. -/

namespace Sys2Proof.Machine

/-! ### A ring message at a hop (R284) -/

section
variable {c : Core} {m : XMsg} {h : StepSlot} {a : HodAcc} {nxt : Nat} (clean : c.clean) (head : c.stp.head = some h)
  (next : nextOf h.members c.me = some nxt) (ever : c.stp.everOpened = true) (step : m.step = c.step)
  (hh : m.hod < c.hodCount) (isOpen : m.hod ∉ c.xch.closed) (slot : c.slot? m.hod = some a)
  (ring : (c.hod m.hod).ring = true) (owner : ownerIn h.members (c.hod m.hod).owner ≠ c.me)
include clean head next ever step hh isOpen slot ring owner

/-- A block that comes in to a hop which holds its own goes on with the sums. -/
theorem Core.takeX_ring (notFirst : nextOf h.members (ownerIn h.members (c.hod m.hod).owner) ≠ some c.me) {word : Nat}
    {esc : Bool} {vs : List Num} (kind : m.kind = 3) (count : m.count = 1) (undone : m.first ∉ a.done)
    (inHod : m.first < (c.hod m.hod).blocks) (own : c.slotCnt (c.slotBase a) (c.hod m.hod) m.first ≠ 0)
    (blocks : ringBlocks m 1 0 0 = [(word, esc, vs)])
    (plain : ∀ k < 4, c.meetsArea k (c.slotBase a + 128 * m.first) 128 = false) :
    let sums := (vs.zip (c.slotSum (c.slotBase a) m.first)).map fun p => f32 (f32Code (fadd p.2 p.1))
    let out := if word % 256 = 0 then c.firstExp 0 sums else word
    let coded := ringBlk (c.exKey h.step) m.hod m.first out esc sums
    ∃ t : Core, c.takeX m = (0, t) ∧ ∃ o ∈ t.xch.out, o.tgt = nxt ∧ o.msg.kind = 3 ∧ o.msg.step = h.step ∧
      o.msg.hod = m.hod ∧ o.msg.first = m.first ∧ o.msg.count = 1 ∧ o.msg.contribs = m.contribs + 1 ∧
      o.msg.payload = bytesAt (toLE 2 out ++ coded.1) 0 204 ∧ o.msg.esc = if coded.2.1 then 1 else 0 := by
  obtain ⟨b, reads, taken, -⟩ := Core.takeX_clean clean hh
  have taken := taken kind
  have works : c.Works c.mem.mem c.xch b := (Core.Works.refl clean).reads reads
  have gate : b.gateX m = (none, b) := Core.gateX_open (by rw [reads.stp]; exact ever) (by rw [works.step]; exact step)
    (by rw [reads.view.hodCount]; exact hh) (by rw [reads.xch]; exact isOpen) (by rw [reads.stp]; exact head)
    (by unfold Core.slot?; rw [reads.xch]; exact slot)
  rw [Core.ringIn_one gate (by rw [reads.view.hod]; exact ring) count blocks] at taken
  have works := works.countBlks [(word, esc, vs)]
  generalize b.countBlks [(word, esc, vs)] = d at taken works
  have held : d.slot? m.hod = some a := by
    unfold Core.slot?
    rw [works.xch]
    exact slot
  rw [Core.ringTake_one (by rw [works.stp]; exact head) held] at taken
  generalize hr : ({ contribs := m.contribs, word := word, esc := esc, vals := vs } : RingIn) = r at taken
  have hod : (a.withIn m.first r).hod = m.hod := show a.hod = m.hod from Core.slot?_hod slot
  have held := Core.slot?_setSlot held hod
  have works := works.setSlot (a.withIn m.first r)
  generalize d.setSlot (a.withIn m.first r) = e at taken works held
  obtain ⟨f, hopReads, worksRead⟩ := works.hopReads (a.withIn m.first r) m.first
  have view := works.view_start
  have base : e.slotBase (a.withIn m.first r) = c.slotBase a := view.slotBase a
  have joined := worksRead.slotSum_joinBlk (n := r.contribs + 1) (row := c.hod m.hod) (length_of_ringBlocks blocks) inHod
    plain
  have advance := Core.ringAdvance_hop (s := h) held (by rw [view.hod, view.me]; exact notFirst)
    (KMap.get?_set_self _ _ _) undone (by rw [base, view.hod, view.slotCnt]; exact own) hopReads
  have vals : r.vals = vs := by rw [← hr]
  rw [base, view.hod, vals] at advance
  dsimp only at advance joined
  generalize f.joinBlk (c.slotBase a) (c.hod m.hod) m.first (r.contribs + 1) vs = p at advance joined
  obtain ⟨⟨mem, worksJoined⟩, sums⟩ := joined
  have me : p.me = c.me := worksJoined.exch 0x8001 0 (by decide) (by decide)
  rw [advance (by rw [me]; exact owner), sums] at taken
  refine ⟨_, taken, ?_⟩
  obtain ⟨o, sent, tgt, msg⟩ := Core.ringForward_sends (c := p) (s := h) (by rw [me]; exact next) (a.withIn m.first r)
    m.first (r.contribs + 1) r
    ((vs.zip (c.slotSum (c.slotBase a) m.first)).map fun p => f32 (f32Code (fadd p.2 p.1)))
  refine ⟨o, Core.ringFinish_out sent h m.hod, tgt, ?_⟩
  have key : p.exKey h.step = c.exKey h.step := by
    unfold Core.exKey
    rw [worksJoined.exch _ _ (by decide) (by decide)]
  have first (xs : List Num) : p.firstExp 0 xs = c.firstExp 0 xs := by
    unfold Core.firstExp
    rw [worksJoined.exch _ _ (by decide) (by decide)]
  rw [msg, key, first, hod, ← hr]
  exact ⟨rfl, rfl, rfl, rfl, rfl, rfl, rfl, rfl⟩

/-- RING_END goes on behind a hop's last block, and the slot is let go. -/
theorem Core.takeX_ringEnd (kind : m.kind = 4) (unclosed : a.closed = false)
    (all : (c.hod m.hod).blocks ≤ a.done.length) :
    ∃ t : Core, c.takeX m = (0, t) ∧ t.slot? m.hod = none ∧ m.hod ∈ t.xch.closed ∧
      ∃ o ∈ t.xch.out, o.tgt = nxt ∧ o.msg.kind = 4 ∧ o.msg.hod = m.hod ∧ o.msg.payload =
        bytesAt (toLE 32 (bitmap (insertNat c.me (membersOf (numAt m.payload 0 32))))) 0 204 := by
  obtain ⟨b, reads, -, taken⟩ := Core.takeX_clean clean hh
  have taken := taken kind
  have works : c.Works c.mem.mem c.xch b := (Core.Works.refl clean).reads reads
  have held : b.slot? m.hod = some a := by
    unfold Core.slot?
    rw [reads.xch]
    exact slot
  have gate : b.gateX m = (none, b) := Core.gateX_open (by rw [reads.stp]; exact ever) (by rw [works.step]; exact step)
    (by rw [reads.view.hodCount]; exact hh) (by rw [reads.xch]; exact isOpen) (by rw [reads.stp]; exact head) held
  have ended : b.ringEndIn m = (0, (b.setSlot { a with ringEnd := some (membersOf (numAt m.payload 0 32)) }).ringFinish h
      m.hod) := by
    unfold Core.ringEndIn Core.ringTake
    rw [gate]
    dsimp only
    rw [reads.view.hod, ring, if_neg (by decide), held, reads.stp, head]
    rfl
  have hod : a.hod = m.hod := Core.slot?_hod slot
  have held := Core.slot?_setSlot (b := { a with ringEnd := some (membersOf (numAt m.payload 0 32)) }) held hod
  have view := (works.setSlot { a with ringEnd := some (membersOf (numAt m.payload 0 32)) }).view_start
  rw [ended] at taken
  refine ⟨_, taken, ?_⟩
  have finish := Core.ringFinish_hop (s := h) (nxt := nxt) held unclosed (by rw [view.hod]; exact all) rfl
    (by rw [view.hod, view.me]; exact owner) (by rw [view.me]; exact next)
  rw [view.me] at finish
  exact finish

end

/-- A RING is taken and answered. -/
theorem ringReceived_runs {s : State} {m : XMsg} {code : Nat} {t : Core} (ha : s.awake) (hd : exServes s.dev = true)
    (hk : m.kind = 3) (taken : s.core.takeX m = (code, t)) :
    exec (.ringReceived m) s =
      .next (finish s.dev (t.answerX m.sender code (some (msgBytes m))).settle s.pending) := by
  refine (?_ : execRingReceived m s = _)
  unfold execRingReceived
  have same : ({ m with kind := 3 } : XMsg) = m := by rw [← hk]
  rw [lift_awake _ _ ha, same, Core.inMsg_serves _ hd, taken]

/-- So is a RING_END. -/
theorem ringEndReceived_runs {s : State} {m : XMsg} {code : Nat} {t : Core} (ha : s.awake) (hd : exServes s.dev = true)
    (hk : m.kind = 4) (taken : s.core.takeX m = (code, t)) :
    exec (.ringEndReceived m) s =
      .next (finish s.dev (t.answerX m.sender code (some (msgBytes m))).settle s.pending) := by
  refine (?_ : execRingEndReceived m s = _)
  unfold execRingEndReceived
  have same : ({ m with kind := 4 } : XMsg) = m := by rw [← hk]
  rw [lift_awake _ _ ha, same, Core.inMsg_serves _ hd, taken]

/-! ### Answers (R278, R287, R347) -/

/-- A command that may free tags, and leaves no request without a route, ends with what it hands over. -/
theorem liftTags_settles {f : Dev → Core → Core} {s : State} {t : Core} (ha : s.awake) (e : f s.dev s.core = t.settle)
    (ended : t.links.ended = []) : liftTags f s = .next (finish s.dev t.settle s.pending) := by
  unfold liftTags
  rw [lift_awake _ _ ha, e]
  dsimp only
  rw [Core.endUnsent_nil _ _ _ (by rw [Core.settle_ended]; exact ended)]

/-- A transaction ends: where no request waits for a tag, its tag is free and no more changes. -/
theorem Core.closeTxn_quiet {c : Core} (h : c.links.tagWaits = []) (tag : Nat) :
    c.closeTxn tag = { c with links := { c.links with txns := KMap.erase c.links.txns tag } } := by
  unfold Core.closeTxn
  dsimp only
  rw [h]
  rfl

/-- The message found under a tag. -/
theorem Core.outByTag_found {c : Core} {tag : Nat} {again : Bool} {o : OutMsg} (h : c.outByTag tag again = some o) :
    o ∈ c.xch.out ∧ o.again = again := by
  unfold Core.outByTag at h
  have found := List.find?_some (p := fun o : OutMsg => o.tag == some tag && o.again == again) h
  rw [Bool.and_eq_true] at found
  exact ⟨List.mem_of_find?_eq_some h, eq_of_beq found.2⟩

/-- A message replaced is in the buffers as it is now. -/
theorem Core.mem_swapOut {c : Core} {o : OutMsg} (h : o ∈ c.xch.out) (o' : OutMsg) : o' ∈ (c.swapOut o o').xch.out :=
  List.mem_map.2 ⟨o, h, if_pos rfl⟩

/-- An answer to a message sent ends its transaction; the message leaves its buffer, or waits to be sent again. -/
theorem Core.takeAnswer_answers {c : Core} {tag h : Nat} {t : Txn} {o : OutMsg} (ht : KMap.get? c.links.txns tag = some t)
    (hu : t.use = .xmsg h) (quiet : c.links.tagWaits = []) (ho : c.outByTag tag false = some o) (code : Nat) :
    let r := c.takeAnswer { tag := tag, code := code }
    r.links = { c.links with txns := KMap.erase c.links.txns tag } ∧ r.mem = c.mem ∧ r.stp = c.stp ∧
      (code = 0 ∨ code = 3 → r.xch.out = c.xch.out.erase o) ∧ (code = 1 ∨ code = 2 → { o with again := true } ∈ r.xch.out) := by
  unfold Core.takeAnswer
  dsimp only
  rw [ht]
  dsimp only
  rw [hu]
  dsimp only
  rw [Core.closeTxn_quiet quiet]
  have found : Core.outByTag { c with links := { c.links with txns := KMap.erase c.links.txns tag } } tag false = some o := ho
  rw [found]
  dsimp only
  by_cases wait : code = 1 ∨ code = 2
  · rw [if_pos wait]
    exact ⟨rfl, rfl, rfl, fun done => by omega, fun _ => Core.mem_swapOut (Core.outByTag_found ho).1 _⟩
  · rw [if_neg wait]
    exact ⟨rfl, rfl, rfl, fun _ => rfl, fun again => absurd again wait⟩

/-- The message goes to the member after the one it was for. -/
def Core.pass (c : Core) (o : OutMsg) (tag : Nat) : Core :=
  let tgt := (nextOf (c.membersFor o.msg.step) o.tgt).getD o.tgt
  (((c.closeTxn tag).swapOut o { o with tgt := tgt, tag := none, again := false }).bump 0x8880 0xC 1).raise
    (xEv 0x8024 0 o.msg.hod o.tgt o.msg.kind)

theorem ringHopTimeout_runs {s : State} {tag : Nat} {o : OutMsg} (ha : s.awake) (hd : exServes s.dev = true)
    (ho : s.core.outByTag tag false = some o) (hk : o.msg.kind = 3 ∨ o.msg.kind = 4)
    (ended : (s.core.pass o tag).links.ended = []) :
    exec (.ringHopTimeout tag) s = .next (finish s.dev (s.core.pass o tag).settle s.pending) := by
  refine (?_ : execRingHopTimeout tag s = _)
  unfold execRingHopTimeout
  refine liftTags_settles ha ?_ ended
  have kind : (exServes s.dev && (o.msg.kind == 3 || o.msg.kind == 4)) = true := by
    rcases hk with hk | hk <;> rw [hd, hk] <;> rfl
  rw [ho]
  dsimp only
  rw [if_pos kind, (Core.outByTag_found ho).2]
  rfl

theorem Core.pass_passes {c : Core} {o : OutMsg} {tag : Nat} (quiet : c.links.tagWaits = [])
    (ho : c.outByTag tag false = some o) :
    let t := c.pass o tag
    t.links.ended = c.links.ended ∧ t.obj 0x8880 0xC = min (c.obj 0x8880 0xC + 1) (objMax 0x8880 0xC) ∧
      { o with tgt := (nextOf (c.membersFor o.msg.step) o.tgt).getD o.tgt, tag := none, again := false } ∈ t.xch.out := by
  unfold Core.pass
  dsimp only
  rw [Core.closeTxn_quiet quiet]
  have swapped := Core.mem_swapOut (c := { c with links := { c.links with txns := KMap.erase c.links.txns tag } })
    (Core.outByTag_found ho).1
    { o with tgt := (nextOf (c.membersFor o.msg.step) o.tgt).getD o.tgt, tag := none, again := false }
  generalize hb : Core.swapOut _ o _ = b at swapped
  obtain ⟨ended, count⟩ : b.links.ended = c.links.ended ∧ b.obj 0x8880 0xC = c.obj 0x8880 0xC := by
    rw [← hb]
    exact ⟨rfl, rfl⟩
  have raised := (b.bump 0x8880 0xC 1).accesses_raise (xEv 0x8024 0 o.msg.hod o.tgt o.msg.kind) rfl
  refine ⟨?_, ?_, ?_⟩
  · rw [raised.links, Core.bump_links, ended]
  · rw [raised.exch _ _ (by decide) (by decide), Core.obj_bump_self _ _ _ _ one_ne_zero, count]
  · rw [raised.xch, Core.bump_xch]
    exact swapped

theorem xansReceived_runs {s : State} {a : XAnswer} (ha : s.awake) (ended : (s.core.takeAnswer a).links.ended = []) :
    exec (.xansReceived [a]) s = .next (finish s.dev (s.core.takeAnswer a).settle s.pending) := by
  refine (?_ : execXansReceived [a] s = _)
  unfold execXansReceived
  exact liftTags_settles ha rfl ended

theorem resendTimer_runs {s : State} {tag : Nat} {o : OutMsg} (ha : s.awake) (hd : exServes s.dev = true)
    (ho : s.core.outByTag tag true = some o) :
    exec (.resendTimer tag) s = .next (finish s.dev
      ((s.core.swapOut o { o with tag := none, again := false }).bump 0x8880 7 1).settle s.pending) := by
  refine (?_ : execResendTimer tag s = _)
  unfold execResendTimer
  rw [lift_awake _ _ ha, ho]
  dsimp only
  rw [if_pos hd]

/-- Settles O41: a RING and a RING_END at a hop are `Core.takeX_ring` and `Core.takeX_ringEnd`, a message not accepted in
time is passed on (`Core.pass_passes`), and an XANS is `Core.takeAnswer_answers`; handing over what waits leaves no request
without its end (`liftTags_settles`). -/
theorem ringHopsAndAnswers : Obligations.RingHopsAndAnswers := by
  unfold Obligations.RingHopsAndAnswers
  refine ⟨?hops, ?answers⟩
  case hops =>
    intro s m h a nxt ha hd clean ended head next
    refine ⟨?taken, ?timeout⟩
    case taken =>
      intro ever step hh isOpen slot ring owner notFirst
      refine ⟨?block, ?last⟩
      case block =>
        intro word esc vs kind count undone inHod own blocks plain
        obtain ⟨t, taken, sent⟩ := Core.takeX_ring clean head next ever step hh isOpen slot ring owner notFirst kind count
          undone inHod own blocks plain
        exact ⟨t, ringReceived_runs ha hd kind taken, sent⟩
      case last =>
        intro kind unclosed all
        obtain ⟨t, taken, sent⟩ := Core.takeX_ringEnd clean head next ever step hh isOpen slot ring owner kind unclosed all
        exact ⟨t, ringEndReceived_runs ha hd kind taken, sent⟩
    case timeout =>
      intro tag o ho hk quiet
      obtain ⟨kept, passed⟩ := Core.pass_passes quiet ho
      exact ⟨_, ringHopTimeout_runs ha hd ho hk (kept.trans ended), passed⟩
  case answers =>
    intro s tag o ha hd ended
    refine ⟨?xans, ?resend⟩
    case xans =>
      intro code h t ht hu quiet ho a
      obtain ⟨links, mem, stp, left, waits⟩ := Core.takeAnswer_answers ht hu quiet ho code
      refine ⟨_, xansReceived_runs ha (by rw [links]; exact ended), ?_, mem, stp, left, waits⟩
      rw [links]
      exact KMap.get?_erase_self _ _
    case resend =>
      intro ho
      refine ⟨_, resendTimer_runs ha hd ho, ?_, ?_, Core.obj_bump_self _ _ _ _ one_ne_zero⟩
      · rw [Core.bump_xch]
        exact Core.mem_swapOut (Core.outByTag_found ho).1 _
      · rw [Core.bump_mem]
        rfl

end Sys2Proof.Machine
end
